-- ==== Sys2Proof/Word.lean ====
section
/-! DEFINITION. The word types of the register interface and the plainest arithmetic on them. A 64 B ring entry, a
64 B mailbox argument and a 16 B result are little-endian byte strings (R15) held as one natural number, a `Block`. -/

namespace Sys2Proof

/-- A 32-bit register word (R17). -/
abbrev Word32 := BitVec 32

/-- FP32 bits. -/
abbrev F32 := BitVec 32

/-- A little-endian byte string as a number: byte n is bits 8n to 8n + 7 (R15). -/
abbrev Block := Nat

/-- Bits lo to lo + width - 1 of the field that starts at a byte offset (R14, R15). -/
def fld (e : Block) (byte lo width : Nat) : Nat := (e >>> (8 * byte + lo)) % 2 ^ width

/-- One bit of the field that starts at a byte offset. -/
def flg (e : Block) (byte lo : Nat) : Bool := (e >>> (8 * byte + lo)) % 2 == 1

/-- A value placed at a byte offset of a block. -/
def at8 (byte : Nat) (v : Nat) : Block := v <<< (8 * byte)

/-- Bit n of a number. -/
def bit (v n : Nat) : Bool := (v >>> n) % 2 == 1

/-- 1 for true. -/
def b2n (b : Bool) : Nat := if b then 1 else 0

/-- Ceiling division. -/
def cdiv (a b : Nat) : Nat := (a + b - 1) / b

/-- The number of set bits among bits 0 to n - 1. -/
def popcount (v : Nat) : Nat → Nat
  | 0 => 0
  | n + 1 => popcount v n + b2n (bit v n)

/-- The numbers below n whose bit is set in v, in rising order. -/
def bitsOf (v n : Nat) : List Nat := (List.range n).filter (fun i => bit v i)

/-- v with bit n set or cleared. -/
def setBit (v n : Nat) (b : Bool) : Nat :=
  if bit v n == b then v else if b then v + 2 ^ n else v - 2 ^ n

end Sys2Proof
end

