-- ==== Sys2Proof/Machine/Store.lean ====
section
/-! DEFINITION. Sparse tables in one canonical form: (key, value) pairs with strictly rising keys; a counter table lists
no zero. Equal tables are equal data. -/

namespace Sys2Proof.Machine

/-- A sparse table: pairs with strictly rising keys. -/
abbrev SMap (α : Type) := List (Nat × α)

/-- Keys strictly rise from a bound on. -/
def SMap.above {α : Type} (lo : Nat) : SMap α → Bool
  | [] => true
  | (k, _) :: t => decide (lo ≤ k) && SMap.above (k + 1) t

/-- The canonical form: keys strictly rising. -/
def SMap.wf {α : Type} (m : SMap α) : Bool := m.above 0

/-- The value at a key. -/
def SMap.get {α : Type} : SMap α → Nat → Option α
  | [], _ => none
  | (k, v) :: t, x => if x == k then some v else if x < k then none else SMap.get t x

/-- The table with a key's value set. -/
def SMap.put {α : Type} : SMap α → Nat → α → SMap α
  | [], x, v => [(x, v)]
  | (k, w) :: t, x, v =>
    if x == k then (k, v) :: t else if x < k then (x, v) :: (k, w) :: t else (k, w) :: SMap.put t x v

/-- The table without a key. -/
def SMap.del {α : Type} : SMap α → Nat → SMap α
  | [], _ => []
  | (k, w) :: t, x => if x == k then t else if x < k then (k, w) :: t else (k, w) :: SMap.del t x

/-- The value at a key changed, where the key is present. -/
def SMap.upd {α : Type} (m : SMap α) (x : Nat) (f : α → α) : SMap α :=
  m.map (fun p => if p.1 == x then (p.1, f p.2) else p)

/-- Every value changed by its key. -/
def SMap.mapKV {α : Type} (m : SMap α) (f : Nat → α → α) : SMap α := m.map (fun p => (p.1, f p.1 p.2))

/-- The entries that meet a test. -/
def SMap.sel {α : Type} (m : SMap α) (f : Nat → α → Bool) : SMap α := m.filter (fun p => f p.1 p.2)

/-- True when a key is present. -/
def SMap.has {α : Type} (m : SMap α) (x : Nat) : Bool := (m.get x).isSome

/-- A counter table: an unlisted key reads 0, and no entry is 0. -/
abbrev Ctrs := SMap Nat

/-- A counter's value. -/
def Ctrs.rd (c : Ctrs) (k : Nat) : Nat := (SMap.get c k).getD 0

/-- A counter set to a value; 64-bit counters wrap (R428). -/
def Ctrs.wr (c : Ctrs) (k v : Nat) : Ctrs :=
  if v % 2 ^ 64 == 0 then SMap.del c k else SMap.put c k (v % 2 ^ 64)

/-- A counter raised. -/
def Ctrs.inc (c : Ctrs) (k n : Nat) : Ctrs := Ctrs.wr c k (Ctrs.rd c k + n)

/-- No entry of a counter table is 0. -/
def Ctrs.wf (c : Ctrs) : Bool := SMap.wf c && c.all (fun p => p.2 != 0)

/-- The first of the last n numbers, counted cyclically from a starting point below a bound, that a test accepts. -/
def freeFromN (start bound : Nat) (ok : Nat → Bool) : Nat → Option Nat
  | 0 => none
  | n + 1 => if ok ((start + (bound - (n + 1))) % bound) then some ((start + (bound - (n + 1))) % bound) else freeFromN start bound ok n

/-- The first number at or cyclically after a starting point below a bound that a test accepts. -/
def freeFrom (start bound : Nat) (ok : Nat → Bool) : Option Nat := freeFromN start bound ok bound

/-- The list with every element that meets a test replaced. -/
def updWhere {α : Type} (l : List α) (p : α → Bool) (f : α → α) : List α := l.map (fun x => if p x then f x else x)

/-- Insertion of an element into a list ordered by a relation, after its equals. -/
def insertBy {α : Type} (lt : α → α → Bool) (x : α) : List α → List α
  | [] => [x]
  | y :: t => if lt x y then x :: y :: t else y :: insertBy lt x t

/-- A stable sort. -/
def sortBy {α : Type} (lt : α → α → Bool) (l : List α) : List α := l.foldl (fun acc x => insertBy lt x acc) []

/-- Distinct elements, first occurrences kept in reverse order of the list. -/
def dedup {α : Type} [BEq α] (l : List α) : List α := l.foldl (fun acc x => if acc.contains x then acc else acc ++ [x]) []

/-- A field stored in three copies (R18, R437). -/
structure Tri (α : Type) where
  a : α
  b : α
  c : α
deriving DecidableEq, Repr

/-- Three equal copies: a write sets all three at one instant (R437). -/
def Tri.mk1 {α : Type} (x : α) : Tri α := ⟨x, x, x⟩

/-- The majority of three copies, none when all differ. -/
def Tri.vote {α : Type} [DecidableEq α] (t : Tri α) : Option α :=
  if t.a = t.b then some t.a else if t.a = t.c then some t.a else if t.b = t.c then some t.b else none

/-- The value read: the majority, or the field's safe value (Table 15-3). -/
def Tri.read {α : Type} [DecidableEq α] (t : Tri α) (safe : α → α → α → α) : α :=
  (t.vote).getD (safe t.a t.b t.c)

/-- A natural-number field read by majority with bitwise OR as its safe value (fence masks, Table 15-3). -/
def Tri.orRead (t : Tri Nat) : Nat := t.read (fun x y z => x ||| y ||| z)

end Sys2Proof.Machine
end

