-- ==== Sys2Proof/Payload.lean ====
section
/-! DEFINITION. What commands carry besides their entry: the structured data the module reads from companion memory
(manifests, bulk buffers, query blocks), the bodies of culvert messages, and the samples of pins and sensors. -/

namespace Sys2Proof

/-- The four tier values of a page entry (Table 02-3). -/
inductive Tier where
  | crest | berm | toe | none
deriving DecidableEq, Repr

/-- Session class (Table 00-5): latency-critical or best-effort. -/
inductive Cls where
  | lc | be
deriving DecidableEq, Repr

/-- CLASS as a bit (Table 03-2). -/
def Cls.code : Cls → Nat
  | .lc => 0
  | .be => 1

/-- Who writes a register (R18, R350): a user-attribute, privileged or secure master. -/
inductive Priv where
  | user | privileged | secure
deriving DecidableEq, Repr

/-- PV accepts privileged and secure masters only (Table 00-3). -/
def Priv.pv (p : Priv) : Bool := p != .user

/-- A mailbox: the management mailbox or a polder's (R403). -/
inductive Box where
  | mgmt
  | pol (p : Fin 16)
deriving DecidableEq, Repr

/-- The two clocks at an event that the warden times: the HVL counter and the warden's own ticks (R3, R383). -/
structure Clocks where
  hvl : Nat
  wd : Nat
deriving DecidableEq, Repr

/-- A register read's offset, and whether it is 8 bytes wide or 4 (R17). -/
structure ReadAt where
  off : Nat
  wide : Bool
deriving DecidableEq, Repr

/-- A register aperture (Table 15-1). -/
inductive Region where
  | mgmt
  | pol (p : Fin 16)
  | sec
  | wmb
deriving DecidableEq, Repr

/-- A tensor entry (Table 05-2). -/
structure Tensor where
  width : Nat
  fmt : Nat
deriving DecidableEq, Repr

/-- A kernel descriptor (Table 05-3). -/
structure Kernel where
  op : Nat
  fmtS : Nat
  fmtT : Nat
  fmtO : Nat
  outSat : Bool
  func : Nat
  k : Nat
  n : Nat
  inA : Nat
  inB : Nat
  out : Nat
  res : Nat
  tscale : F32
  wOff : Nat
  csOff : Nat
  biasOff : Nat
  attr : Nat
deriving DecidableEq, Repr

/-- One manifest without its nested draft (R156): header fields, tensor table and kernels in program order. -/
structure Prog where
  version : Nat
  layers : Nat
  tensors : List Tensor
  pro : List Kernel
  layer : List Kernel
  epi : List Kernel
  kvGroups : Nat
  kvFmt : Nat
  layerStride : Nat
  imageBytes : Nat
  vocab : Nat
  actRowBytes : Nat
  draftOff : Nat
  manifestBytes : Nat
  digest : Nat
deriving DecidableEq, Repr

/-- A manifest with its nested draft (R157). -/
structure Manifest where
  main : Prog
  draft : Option Prog
deriving DecidableEq, Repr

/-- Sampler parameters: bytes 28 to 55 of SAMPLER_CONF (Table 07-5). -/
structure SampParams where
  temp : F32
  topP : F32
  minP : F32
  repPen : F32
  presPen : F32
  freqPen : F32
  topK : Nat
  window : Nat
deriving DecidableEq, Repr

/-- The bulk buffer of SAMPLER_CONF, laid out as the sampler page (Table 07-6). -/
structure Bulk where
  biasN : Nat
  stopN : Nat
  logprob : Bool
  maskStatic : Bool
  eos : Nat
  bias : List (Nat × F32)
  stops : List (List Nat)
  mask : Nat
deriving DecidableEq, Repr

/-- What the module reads from companion memory when a pass forms: CONS per token ring address (R244), and MASK_SEQ
with the bitmap per mask slot address (R242). -/
structure HostGen where
  cons : List (Nat × Nat)
  masks : List (Nat × Nat × Nat)
deriving DecidableEq, Repr

/-- What a strip's array reports besides what it computes: the order in which the terms of each of its reductions arrive (R140; those
not named follow in rising order), the nanoseconds it waited for staged tiles (R150), the bytes it moved between activation regions and Crest (R151), and an error in the bytes of its output tile (R144). -/
structure StripOut where
  order : List (List Nat) := []
  waitNs : Nat := 0
  spillBytes : Nat := 0
  flip : Nat := 0
deriving DecidableEq, Repr

/-- LIFE (Table 03-3). -/
inductive Life where
  | free | active | parked | retiring | husk
deriving DecidableEq, Repr

/-- The number of a LIFE state (Table 03-3). -/
def Life.code : Life → Nat
  | .free => 0 | .active => 1 | .parked => 2 | .retiring => 3 | .husk => 4

/-- OWN (Table 03-3). -/
inductive Own where
  | none | owned | pendingOut | importing | relinquished | restoring | shadow
deriving DecidableEq, Repr

/-- The number of an OWN state (Table 03-3). -/
def Own.code : Own → Nat
  | .none => 0 | .owned => 1 | .pendingOut => 2 | .importing => 3 | .relinquished => 4 | .restoring => 5 | .shadow => 6

/-- A session descriptor (Table 03-2). -/
structure Desc where
  gen : Nat
  life : Life
  own : Own
  cls : Cls
  sparse : Bool
  sealed : Bool
  pol : Nat
  slot : Nat
  jdirty : Bool
  sid : Nat
  epoch : Nat
  pend : Nat
  lease : Nat
  peerMod : Nat
  peerPol : Nat
  tokens : Nat
  ctxMax : Nat
  root : Nat
  step : Nat
  job : Nat
  famRefs : Nat
  fam : Nat
  ckptRef : Nat
deriving DecidableEq, Repr

/-- An unused directory entry of a generation. -/
def Desc.blank (gen : Nat) : Desc :=
  { gen := gen, life := .free, own := .none, cls := .lc, sparse := false, sealed := false, pol := 0, slot := 0,
    jdirty := false, sid := 0, epoch := 0, pend := 0, lease := 0, peerMod := 0, peerPol := 0, tokens := 0, ctxMax := 0,
    root := 0, step := 0, job := 0, famRefs := 0, fam := 0, ckptRef := 0 }

/-- One position of a KV page body: its K and V element codes and block scales (Table 06-2). -/
structure KvRow where
  k : List Nat
  ks : List Nat
  v : List Nat
  vs : List Nat
deriving DecidableEq, Repr

/-- Generation state (Table 07-3) and the feature row. -/
structure Gen where
  pendTok : Nat
  pendValid : Bool
  featValid : Bool
  specMode : Nat
  greedy : Bool
  draftLen : Nat
  treeNodes : Nat
  treeParent : List Nat
  nextSeq : Nat
  stepAtShip : Nat
  feature : List Nat
deriving DecidableEq, Repr

/-- The sampler page (Table 07-6); the history ring is held oldest first, at most 4,096 tokens, with HIST_HEAD, the slot of its next write. -/
structure SampPage where
  pr : SampParams
  logprob : Bool
  maskStatic : Bool
  eos : Nat
  bias : List (Nat × F32)
  stops : List (List Nat)
  mask : Nat
  hist : List Nat
  head : Nat
deriving DecidableEq, Repr

/-- A state root as it lies in memory (Tables 06-3 and 07-3): the geometry, the regions' addresses, the generation state, the history ring's count
and head, and the map pages by DMAP entry. -/
structure RootImg where
  layers : Nat
  groups : Nat
  fmt : Nat
  qsValid : Bool
  w : Nat
  bpp : Nat
  bodyBytes : Nat
  sketchSsa : Nat
  coarseSsa : Nat
  blocks : Nat
  gen : Gen
  samplerSsa : Nat
  featureSsa : Nat
  histCount : Nat
  histHead : Nat
  dmap : List (Nat × Nat)
deriving DecidableEq, Repr

/-- The culvert body of an ownership message (R469). -/
structure OwnBody where
  sid : Nat
  epoch : Nat
  leaseMs : Nat
  guardMs : Nat
  pages : Nat
  status : Nat
  cls : Cls
  sparse : Bool
  slot : Nat
  ctxMax : Nat
  handle : Nat
  holder : Nat
  ownerValid : Bool
deriving DecidableEq, Repr

def OwnBody.blank : OwnBody :=
  { sid := 0, epoch := 0, leaseMs := 0, guardMs := 0, pages := 0, status := 0, cls := .lc, sparse := false, slot := 0,
    ctxMax := 0, handle := 0, holder := 0, ownerValid := false }

/-- The ownership messages (Table 16-6). -/
inductive OwnMsg where
  | offer | claim | claimAck | abort | assert | assertReply
deriving DecidableEq, Repr

/-- A PAGE message: its header (Table 07-9) and its data by kind: KV rows, state root, sampler page, or feature row with its format. -/
structure PageMsg where
  sid : Nat
  h : Nat
  pseq : Nat
  kind : Nat
  fmt : Nat
  fill : Nat
  lg : Nat
  ix : Nat
  len : Nat
  rows : List KvRow
  root : Option RootImg
  samp : Option SampPage
  featFmt : Nat
  feat : List Nat
deriving DecidableEq, Repr

/-- A journal record (Table 03-11). KIND: 1 DESC, 2 FREE, 3 OWN, 4 STEP, 5 RELEASE. -/
structure JRec where
  jseq : Nat
  src : Nat
  pol : Nat
  kind : Nat
  desc : Desc
  sid : Nat
  epoch : Nat
  step : Nat
  toks : List Nat
deriving DecidableEq, Repr

/-- The payload of a checkpoint record by kind (Table 09-1). -/
inductive CkPay where
  | desc (d : Desc)
  | root (x : RootImg)
  | sampler (s : SampPage)
  | feature (fmt pages : Nat) (row : List Nat)
  | body (fmt bytes : Nat) (rows : List KvRow)
  | sketch (slots : List Nat)
  | qsketch (q : List Nat)
deriving DecidableEq, Repr

/-- A checkpoint record (Table 09-2) with its payload; SESSION_ID, EPOCH and SEQ are those of its checkpoint. -/
structure CkRec where
  kind : Nat
  fmt : Nat
  fill : Nat
  lg : Nat
  ix : Nat
  check : Nat
  digest : Nat
  bytes : Nat
  pay : CkPay
deriving DecidableEq, Repr

/-- A checkpoint: the fields of its commit record (Table 09-3) and its records of kinds 1 to 7 in the order written. -/
structure Ck where
  sid : Nat
  epoch : Nat
  seq : Nat
  base : Bool
  hosted : Bool
  parentSeq : Nat
  parentEpoch : Nat
  step : Nat
  tokens : Nat
  ownerMod : Nat
  ownerPol : Nat
  cls : Cls
  sparse : Bool
  sealed : Bool
  fmt : Nat
  layers : Nat
  groups : Nat
  headDim : Nat
  w : Nat
  ctxMax : Nat
  modelDigest : Nat
  recsDigest : Nat
  recs : List CkRec
deriving DecidableEq, Repr

/-- An input record of VEC_INSERT or VEC_BUILD_LIST (Table 08-4): identifier, code, field area, tag set and rerank vector. -/
structure VRec where
  id : Nat
  code : Nat
  fields : Nat
  tags : Nat
  vec : List Nat
deriving DecidableEq, Repr

/-- A record of which nothing was read. -/
def VRec.blank : VRec := { id := 0, code := 0, fields := 0, tags := 0, vec := [] }

/-- An attribute field (Table 08-2): its width code, SIGNED and byte offset. -/
structure VField where
  width : Nat
  signed : Bool
  off : Nat
deriving DecidableEq, Repr

/-- An index definition block (Table 08-2) without its centroids. -/
structure VDef where
  version : Nat
  codeBits : Nat
  afBytes : Nat
  tags : Bool
  lists : Nat
  rvFmt : Nat
  nfields : Nat
  rvDim : Nat
  rrSlots : Nat
  batchUs : Nat
  fields : List VField
deriving DecidableEq, Repr

/-- A field clause of a filter (Table 08-8). OP: 0 EQ, 1 NE, 2 IN, 3 OUT. -/
structure VClause where
  field : Nat
  op : Nat
  lo : Nat
  hi : Nat
deriving DecidableEq, Repr

/-- A filter block (Table 08-8). -/
structure VFilter where
  nclause : Nat
  allEn : Bool
  anyEn : Bool
  noneEn : Bool
  clauses : List VClause
  tagAll : Nat
  tagAny : Nat
  tagNone : Nat
deriving DecidableEq, Repr

/-- A query block (R271): code, filter block and query vector. -/
structure VBlock where
  code : Nat
  filter : VFilter
  vec : List Nat
deriving DecidableEq, Repr

/-- The slot at the head of a submission ring as companion memory holds it: the ring and the bytes of the slot, a 64 B entry or, in a sealed
polder, a 128 B sealed one (R371). -/
structure HeadEntry where
  sq : Fin 16
  slot : Block
deriving DecidableEq, Repr

/-- A received Ethernet frame: whether it is a culvert frame for this module, its tag (PCP, DEI), a congestion mark, L, and its
culvert header (Table 16-5) with what CHECK and a sealed body's tag say; for a NOTICE its KIND and SERIAL. -/
structure Wire where
  culvert : Bool
  pcp : Nat
  dei : Bool
  ce : Bool
  len : Nat
  ftype : Nat
  lane : Nat
  sealed : Bool
  keygen : Nat
  last : Bool
  ece : Bool
  src : Nat
  srcPol : Nat
  dst : Nat
  dstPol : Nat
  ty : Nat
  seg : Nat
  psn : Nat
  msg : Nat
  ackPsn : Nat
  bitmap : Nat
  check : Bool
  auth : Bool
  kind : Nat
  serial : Nat
deriving DecidableEq, Repr

/-- A firmware image (R355): its 128 B header, its body, the ML-DSA-44 public key of its signature block, and whether Verify accepts the signature
over the header's SHA3-256 (log entry 18). -/
structure FwImage where
  header : Block
  body : Block
  key : Block
  sigOk : Bool
deriving DecidableEq, Repr

/-- The fields of an image header (R355). -/
def FwImage.svn (i : FwImage) : Nat := fld i.header 4 0 32
def FwImage.keySlot (i : FwImage) : Nat := fld i.header 8 0 2
def FwImage.bytes (i : FwImage) : Nat := fld i.header 16 0 64
def FwImage.digest (i : FwImage) : Nat := fld i.header 32 0 256

/-- A quote (Table 12-6): its body, then its signature, the KEM key, the endorsed key and the endorsement. -/
structure Quote where
  kind : Nat
  pending : Bool
  debugOpen : Bool
  sealed : Bool
  kem : Bool
  polder : Nat
  profile : Nat
  nonce : Nat
  deviceId : Nat
  moduleId : Nat
  idValid : Bool
  fwSvn : Nat
  time : Nat
  romDigest : Nat
  fwDigest : Nat
  pendingDigest : Nat
  configDigest : Nat
  polderDigest : Nat
  modelDigest : Nat
  kemDigest : Nat
  keyEpoch : Nat
  bbEpoch : Nat
  tenant : Nat
  signature : Nat
  kemKey : Nat
  endorsedKey : Nat
  endorsement : Nat
deriving DecidableEq, Repr

/-- The body of ANNOUNCE (R473). -/
structure Announce where
  domain : Nat
  id : Nat
  valid : Bool
  serial : Nat
  v6 : Nat
  v4 : Nat
  mac : Nat
  ports : Nat
  level : Nat
deriving DecidableEq, Repr

/-- A power message (Table 11-6). -/
structure PowerMsg where
  kind : Nat
  group : Nat
  watts : Nat
  offerMs : Nat
  nonce : Nat
  src : Nat
  sendNs : Nat
deriving DecidableEq, Repr

/-- An owner of work: the polder, the job and the submission ring of the command that caused it (R344). -/
structure Payer where
  pol : Nat
  job : Nat
  ring : Option Nat
deriving DecidableEq, Repr

/-- Who an activity is charged to (Table 11-9): owners in equal shares (the rows of a pass, the queries of a strip or a visit; one owner for
work of one sequence, job, query or command), a polder's background, or, for stripe parity, the polders of the row's data units by
unit count. -/
inductive Owners where
  | equal (os : List Payer)
  | background (p : Nat)
  | parity (units : List Nat)
deriving DecidableEq, Repr

/-- The charges of an activity, one share each; job 0xFFFF is a polder's background (Table 11-11). -/
def Owners.charges : Owners → List Payer
  | .equal os => os
  | .background p => [⟨p, 0xFFFF, none⟩]
  | .parity ps => ps.map (fun p => ⟨p, 0xFFFF, none⟩)

/-- What a unit of activity is: the operations of an array (Table 04-4), a byte in a tier, a byte on a wire (Table 11-8). -/
inductive Work where
  | fp8 | fourBit | bf16 | binary | edge | crestByte | bermByte | toeByte | linkByte
deriving DecidableEq, Repr

/-- The nominal energy of a unit of activity in fJ (Table 04-4, at VCORE 0.70 V; Table 02-2); on links the weight is 1 per byte. -/
def Work.nominal : Work → Nat
  | .fp8 => 90 | .fourBit => 50 | .bf16 => 300 | .binary => 60 | .edge => 400
  | .crestByte => 800 | .bermByte => 45000 | .toeByte => 260000 | .linkByte => 1

/-- The energy in fJ of an array operation at a VCORE in mV (R123). -/
def Work.energyAt (w : Work) (mv : Nat) : Rat := w.nominal * ((mv : Rat) / 700) ^ 2

/-- An activity record of a control interval: its domain (0 compute, 1 memory, 2 links), its work by kind and who it is charged to. -/
structure Activity where
  dom : Nat
  work : List (Work × Nat)
  dest : Owners
deriving DecidableEq, Repr

/-- A record's weight (Table 11-8). -/
def Activity.weight (a : Activity) : Nat := (a.work.map (fun e => e.1.nominal * e.2)).sum

/-- What the power stages and the ceilings give the controller in a control interval (R334, R335, R343): 1 ms averages in mW, the age
of the oldest domain sample in ns, whether a memory or link ceiling held a request and the power of those requests, the compute
load of each polder, the energy of each VCORE domain, of memory and of links and what belongs to no one, in nJ, the activity records, waits in
ns by polder and tier, by polder and port, gating by polder, and the Berm devices with shortened refresh. -/
structure PwrSample where
  inMw : Nat
  compMw : Nat
  memMw : Nat
  linkMw : Nat
  fixedMw : Nat
  age : Nat
  heldMem : Bool
  heldLink : Bool
  demMem : Nat
  demLink : Nat
  pc : List Nat
  eVdom : List Nat
  eMem : Nat
  eLink : Nat
  eRest : Nat
  acts : List Activity
  memHold : List (Nat × Nat × Nat)
  linkHold : List (Nat × Nat × Nat)
  gateNs : List (Nat × Nat)
  refresh : Nat
deriving DecidableEq, Repr

/-- The provisioning block of the board EEPROM (Table 17-4): OP, the reformat request and the anchors' addresses. -/
structure Prov where
  op : Nat
  fmtSerial : Nat
  fmtNonce : Nat
  anchors : List (Nat × Nat)
deriving DecidableEq, Repr

/-- What enumeration finds on a Toe channel (R475, R83): whether a target is left, good and spare blocks, the collection
threshold, and map units of good blocks. -/
structure ChanIn where
  present : Bool
  excluded : Nat
  good : Nat
  spare : Nat
  thresh : Nat
  units : Nat
  endurance : Nat
deriving DecidableEq, Repr

/-- An HVL time message (R463). -/
structure TimeMsg where
  refNs : Nat
  seq : Nat
  refLocked : Bool
deriving DecidableEq, Repr

end Sys2Proof
end

