-- ==== Sys2Proof/Machine/NetTypes.lean ====
section
/-! DEFINITION. The state of the traffic units and of culvert: policers, arbiters and sluice tables (chapter 10), the board
record, the Ethernet ports and the lanes to each peer module (chapter 16), and transfer keys (R375, R376). -/

namespace Sys2Proof.Machine

/-- The settings of a policer (Table 10-4a). -/
structure PolSet where
  en : Bool
  aware : Bool
  yAct : Nat
  rAct : Nat
  cir : Nat
  pir : Nat
  cbs : Nat
  pbs : Nat
deriving DecidableEq, Repr

def PolSet.off : PolSet := { en := false, aware := false, yAct := 0, rAct := 0, cir := 0, pir := 0, cbs := 0, pbs := 0 }

/-- A policer (R314, R317): its settings, both buckets in milli-bytes or micro-commands, and an update that waits for the
next refill with its FILL bit and the instant it was accepted. -/
structure Policer where
  set : PolSet
  tc : Nat
  tp : Nat
  pending : Option (PolSet × Bool × Nat)
deriving DecidableEq, Repr

def Policer.off : Policer := { set := PolSet.off, tc := 0, tp := 0, pending := none }

/-- A port's entry in the board record (Table 16-8); addresses and keys as numbers. -/
structure PortBoard where
  mac : Nat
  vid : Nat
  mode : Nat
  macsec : Bool
  prefix6 : Nat
  pcpCtrl : Nat
  pcpBulkLc : Nat
  pcpBulkBe : Nat
  prioMap : Nat
  lcPcp : Nat
  ipv4 : Nat
  gw4 : Nat
  ipv6 : Nat
  gw6 : Nat
  ckn : Nat
  cak : Nat
deriving DecidableEq, Repr

def PortBoard.blank : PortBoard :=
  { mac := 0, vid := 0, mode := 0, macsec := false, prefix6 := 0, pcpCtrl := 0, pcpBulkLc := 0, pcpBulkBe := 0, prioMap := 0,
    lcPcp := 0, ipv4 := 0, gw4 := 0, ipv6 := 0, gw6 := 0, ckn := 0, cak := 0 }

/-- The board record (Table 16-8). -/
structure Board where
  domain : Nat
  culvertPorts : Nat
  endurance : Nat
  rdLimit : Nat
  retentionDays : Nat
  ports : List PortBoard
deriving DecidableEq, Repr

/-- Who sends a culvert frame to whom, and what is in it: the header fields that every frame of a message shares (Table 16-5). -/
structure CulHead where
  ftype : Nat
  lane : Nat
  keygen : Option Nat
  src : Nat
  srcPol : Nat
  dst : Nat
  dstPol : Nat
  ty : Nat
deriving DecidableEq, Repr

/-- A frame on its way out of a port (R312): its polder (16: the module's own queue, R459), class and traffic class, L, the
culvert frame it carries (lane key and PSN, its culvert header and its payload), its DEI bit, whether its policer has passed it, counted it
red, and since when it is held. -/
structure EgrFrame where
  pol : Nat
  cls : Cls
  tc : Nat
  len : Nat
  lane : Nat
  psn : Nat
  head : Block
  payload : Block
  dei : Bool
  passed : Bool
  red : Bool
  held : Option Nat
deriving DecidableEq, Repr

/-- A stamped candidate of a polder at a port's traffic class (R318). -/
structure Cand where
  f : Nat
  fr : EgrFrame
deriving DecidableEq, Repr

/-- The virtual time of an arbiter and the finish time of each polder (R318). -/
structure Arb where
  v : Nat
  fin : SMap Nat
deriving DecidableEq, Repr

/-- A gate control list (R321): its entries as (interval, gates). -/
structure Sluice where
  base : Nat
  cycle : Nat
  ext : Nat
  entries : List (Nat × Nat)
deriving DecidableEq, Repr

/-- An Ethernet port: its link, counter, sluice table with a change that is due (no list: removal), the gates after a
counter step until the table restarts (R326), its queued frames in arrival order, candidates by traffic class * 17 + polder,
the frame in flight, the end of the last one, and whether MACsec keys are agreed (R458). -/
structure Port where
  up : Bool
  retryAt : Nat
  clk : Nat
  sluice : Option Sluice
  change : Option (Nat × Option Sluice)
  changeTime : Nat
  resume : Option (Nat × Nat)
  gates : Nat
  entry : Nat
  queue : List EgrFrame
  cands : SMap Cand
  flight : Option (EgrFrame × Nat)
  lastEnd : Nat
  secured : Bool
deriving DecidableEq, Repr

def Port.blank : Port :=
  { up := false, retryAt := 0, clk := 0, sluice := none, change := none, changeTime := 0, resume := none, gates := 255,
    entry := 0, queue := [], cands := [], flight := none, lastEnd := 0, secured := false }

/-- A culvert DATA frame: its place in its lane and message, its header's fields and its payload, and what its queueing needs. -/
structure CulFrame where
  head : CulHead
  body : Block
  psn : Nat
  msg : Nat
  seg : Nat
  last : Bool
  port : Nat
  pol : Nat
  cls : Cls
  bytes : Nat
  sentAt : Nat
  timer : Nat
  missed : Nat
deriving DecidableEq, Repr

/-- A frame received on a lane and held until its message is delivered. -/
structure RxFrame where
  psn : Nat
  msg : Nat
  seg : Nat
  last : Bool
  ty : Nat
  srcPol : Nat
  dstPol : Nat
  port : Nat
  sealed : Bool
  keygen : Nat
  ok : Bool
deriving DecidableEq, Repr

/-- A lane to a peer module (R466): sending side, then receiving side. -/
structure Lane where
  nextPsn : Nat
  nextMsg : Nat
  win : Nat
  unacked : List CulFrame
  queue : List CulFrame
  lastTx : Nat
  grow : Nat
  rxNext : Nat
  rxSeen : List Nat
  rxFrames : List RxFrame
  rxMsg : Nat
  sinceAck : Nat
  oldest : Option Nat
  ece : Bool
  inbox : List RxFrame
deriving DecidableEq, Repr

/-- A lane with nothing sent or received; WIN is 256 on the control lane and 2,048 on the bulk lane. -/
def Lane.blank (bulk : Bool) : Lane :=
  { nextPsn := 0, nextMsg := 0, win := if bulk then 2048 else 256, unacked := [], queue := [], lastTx := 0, grow := 0,
    rxNext := 0, rxSeen := [], rxFrames := [], rxMsg := 0, sinceAck := 0, oldest := none, ece := false, inbox := [] }

/-- A transfer key with a peer polder (R375, R376): the key, its generation and that of the next one, since when it is in use, messages
sealed each way, whether this side has begun an exchange, and until when the receiver keeps the previous key. -/
structure Tk where
  live : Bool
  key : Nat
  gen : Nat
  next : Nat
  since : Nat
  sent : Nat
  recv : Nat
  helloSent : Bool
  prev : Option Nat
  prevKey : Nat
deriving DecidableEq, Repr

def Tk.blank : Tk :=
  { live := false, key := 0, gen := 0, next := 0, since := 0, sent := 0, recv := 0, helloSent := false, prev := none, prevKey := 0 }

/-- What a start reads from pins, straps, EEPROM, flash and devices (R474, R475, R478, R481, R486, R514): the straps; the board
EEPROM's bytes as the integrator wrote them, all zero where none answers; Crest dies that fail their march test; the rate in MT/s each Berm device trains at, 0 at none;
the Toe channels enumerated; the HVL generation both ends support; ports that come up; whether the HVL counter locks in time; and units, by type and
index, that fail their self-test. -/
structure BootIn where
  straps : Nat
  smbAddr : Nat
  eeprom : Block
  crestBad : List Nat
  bermRate : List Nat
  chans : List ChanIn
  hvlGen : Nat
  portsUp : Nat
  locked : Bool
  fails : List (Nat × Nat)
deriving DecidableEq, Repr

end Sys2Proof.Machine
end

