-- ==== Sys2Proof/Syntax.lean ====
section
/-! DEFINITION. The commands of the block, one constructor per row of the opcode table. A command of a ring names its polder and TAG and acts on the
entry taken with that TAG; a mailbox command names its mailbox and acts on the argument as it stood at GO; a message names its sender. What a command
reads outside the module, and what an event brings, are operands. -/

namespace Sys2Proof

inductive Instr where
  /-- COLD_START (R481): the boot inputs and the last stage the row runs to. -/
  | coldStart (b : Machine.BootIn) (upTo : Nat)
  /-- POWER_FAILURE (R511). -/
  | powerFailure
  /-- POWER_FAIL_PROGRAMS_DONE (R511). -/
  | powerFailProgramsDone
  /-- VIN_RANGE (R508): VIN in mV. -/
  | vinRange (mv : Nat)
  /-- MODULE_RESET (R498). -/
  | moduleReset
  /-- HVL_RST (R514). -/
  | hvlRst
  /-- PORT_RETRY (R484): the port, whether it trained, and the HVL counter. -/
  | portRetry (k : Fin 4) (up : Bool) (t : Nat)
  /-- SESS_OPEN (R96): the polder and the TAG of the command taken. -/
  | sessOpen (p : Fin 16) (tag : Nat)
  /-- SESS_PARK (R97): the polder and the TAG of the command taken. -/
  | sessPark (p : Fin 16) (tag : Nat)
  /-- SESS_REVIVE (R64): the polder, the TAG, and what token rings and mask slots hold. -/
  | sessRevive (p : Fin 16) (tag : Nat) (hv : HostGen)
  /-- SESS_MOVE (R101): the polder and the TAG of the command taken. -/
  | sessMove (p : Fin 16) (tag : Nat)
  /-- SESS_FORK (R99): the polder and the TAG of the command taken. -/
  | sessFork (p : Fin 16) (tag : Nat)
  /-- SESS_RETIRE (R97): the polder and the TAG of the command taken. -/
  | sessRetire (p : Fin 16) (tag : Nat)
  /-- SESS_HANDOFF_OUT (R103): the polder and the TAG of the command taken. -/
  | sessHandoffOut (p : Fin 16) (tag : Nat)
  /-- SESS_HANDOFF_IN (R107): the polder, the TAG, and what token rings and mask slots hold. -/
  | sessHandoffIn (p : Fin 16) (tag : Nat) (hv : HostGen)
  /-- SESS_QUERY (R106): the polder and the TAG of the command taken. -/
  | sessQuery (p : Fin 16) (tag : Nat)
  /-- GEN_STEP (R223): the polder, the TAG, and what token rings and mask slots hold. -/
  | genStep (p : Fin 16) (tag : Nat) (hv : HostGen)
  /-- GEN_PREFILL_ACCEPT (R249): the polder, the TAG, and the history buffer. -/
  | genPrefillAccept (p : Fin 16) (tag : Nat) (hist : List Nat) (hv : HostGen)
  /-- GEN_STOP (R225). -/
  | genStop (p : Fin 16) (tag : Nat)
  /-- GEN_STOP_JOB (R186). -/
  | genStopJob (p : Fin 16) (tag : Nat)
  /-- GEN_SPEC_CONF (R228). -/
  | genSpecConf (p : Fin 16) (tag : Nat)
  /-- SAMPLER_CONF (R236): the polder, the TAG, and the bulk buffer. -/
  | samplerConf (p : Fin 16) (tag : Nat) (bulk : Block)
  /-- KRN_SUBMIT (R184). -/
  | krnSubmit (p : Fin 16) (tag : Nat)
  /-- MODEL_LOAD (R162): the polder, the TAG, and the manifest and image read. -/
  | modelLoad (p : Fin 16) (tag : Nat) (man img : Block)
  /-- MODEL_EVICT (R166). -/
  | modelEvict (p : Fin 16) (tag : Nat)
  /-- MODEL_EVICT_CREST (R166). -/
  | modelEvictCrest (p : Fin 16) (tag : Nat)
  /-- MODEL_PIN (R165). -/
  | modelPin (p : Fin 16) (tag : Nat)
  /-- MODEL_UNPIN (R165). -/
  | modelUnpin (p : Fin 16) (tag : Nat)
  /-- VEC_QUERY (R274): the polder, the TAG, and the query block. -/
  | vecQuery (p : Fin 16) (tag : Nat) (blk : Block)
  /-- VEC_INSERT (R262): the polder, the TAG, and the records. -/
  | vecInsert (p : Fin 16) (tag : Nat) (recs : Block)
  /-- VEC_DELETE (R263). -/
  | vecDelete (p : Fin 16) (tag : Nat)
  /-- VEC_DEFINE (R254): the polder, the TAG, and the definition block with its centroids. -/
  | vecDefine (p : Fin 16) (tag : Nat) (blk cents : Block)
  /-- VEC_BUILD (R267): the polder, the TAG, and the records. -/
  | vecBuild (p : Fin 16) (tag : Nat) (recs : Block)
  /-- VEC_DROP_LIST (R267). -/
  | vecDropList (p : Fin 16) (tag : Nat)
  /-- VEC_DROP_INDEX (R267). -/
  | vecDropIndex (p : Fin 16) (tag : Nat)
  /-- VEC_COMPACT (R266). -/
  | vecCompact (p : Fin 16) (tag : Nat)
  /-- SEAL_RETRY (R265). -/
  | sealRetry (p : Fin 16)
  /-- MEM_MAP (R422). -/
  | memMap (p : Fin 16) (tag : Nat)
  /-- MEM_MAP_RELEASE (R422). -/
  | memMapRelease (p : Fin 16) (tag : Nat)
  /-- MEM_MAP_REMAP (R422). -/
  | memMapRemap (p : Fin 16) (tag : Nat)
  /-- MEM_PREFETCH (R62). -/
  | memPrefetch (p : Fin 16) (tag : Nat)
  /-- MEM_PIN (R61). -/
  | memPin (p : Fin 16) (tag : Nat)
  /-- MEM_UNPIN (R61). -/
  | memUnpin (p : Fin 16) (tag : Nat)
  /-- CKPT_BEGIN (R295). -/
  | ckptBegin (p : Fin 16) (tag : Nat)
  /-- CKPT_EXPORT (R306). -/
  | ckptExport (p : Fin 16) (tag : Nat)
  /-- CKPT_COMMIT (R298). -/
  | ckptCommit (p : Fin 16) (tag : Nat)
  /-- CKPT_RESTORE (R304): the polder, the TAG, and the stream at HOST. -/
  | ckptRestore (p : Fin 16) (tag : Nat) (stream : Block)
  /-- CKPT_DROP (R301). -/
  | ckptDrop (p : Fin 16) (tag : Nat)
  /-- CKPT_COPY_DONE (R295). -/
  | ckptCopyDone (p : Fin 16) (sid : Nat)
  /-- REPLICA_RECLAIM (R299). -/
  | replicaReclaim (p : Fin 16) (t : Nat)
  /-- RESTORE_LOAD_DONE (R304). -/
  | restoreLoadDone (p : Fin 16) (idx : Nat)
  /-- PROFILE_SELECT (R493). -/
  | profileSelect (b : Box)
  /-- POLDER_COMPOSE (R494): the mailbox, and TENANT_DIGEST at the host address. -/
  | polderCompose (b : Box) (tenant : Nat)
  /-- POLDER_DISSOLVE (R495). -/
  | polderDissolve (b : Box)
  /-- POLDER_RESET (R500): the mailbox, the last step of Table 17-10 the row runs to, and the units that pass their self-test. -/
  | polderReset (b : Box) (step : Nat) (good : List (Nat × Nat))
  /-- FW_UPDATE_STAGE (R501): the mailbox and the image at HOST. -/
  | fwUpdateStage (b : Box) (img : FwImage)
  /-- FW_UPDATE_DISCARD (R501). -/
  | fwUpdateDiscard (b : Box)
  /-- FW_UPDATE_ACTIVATE (R502): the mailbox, the last step of Table 17-11 the row runs to, and whether the programmed slot verifies. -/
  | fwUpdateActivate (b : Box) (step : Nat) (good : Bool)
  /-- ATTEST_QUOTE (R360). -/
  | attestQuote (b : Box)
  /-- KEY_ROTATE_AT_REST (R365). -/
  | keyRotateAtRest (b : Box)
  /-- KEY_ROTATE_BOUNCE (R374): the mailbox and the setup block at HOST. -/
  | keyRotateBounce (b : Box) (setup : Block)
  /-- POWER_BUDGET (R337). -/
  | powerBudget (b : Box)
  /-- POWER_BUDGET_POLDER (R337). -/
  | powerBudgetPolder (b : Box)
  /-- CLAMP_RELEASE (R333). -/
  | clampRelease (b : Box)
  /-- QUOTA_SET (R59). -/
  | quotaSet (b : Box)
  /-- SLUICE_LOAD (R322): the mailbox and the bytes at LIST. -/
  | sluiceLoad (b : Box) (list : Block)
  /-- SLUICE_REMOVE (R325). -/
  | sluiceRemove (b : Box)
  /-- POLICER_SET (R316). -/
  | policerSet (b : Box)
  /-- POLICER_DISABLE (R316). -/
  | policerDisable (b : Box)
  /-- WFQ_SET (R320). -/
  | wfqSet (b : Box)
  /-- FENCE_UNIT (R386). -/
  | fenceUnit (b : Box)
  /-- UNFENCE_UNIT (R387): the mailbox, and whether the self-test passes. -/
  | unfenceUnit (b : Box) (pass : Bool)
  /-- TIME_SYNC_CONF (R410). -/
  | timeSyncConf (b : Box)
  /-- ENERGY_REPORT (R347). -/
  | energyReport (b : Box)
  /-- PEER_CONF (R411). -/
  | peerConf (b : Box)
  /-- CKPT_SCHEDULE (R293). -/
  | ckptSchedule (b : Box)
  /-- CNT_SNAP (R408): the mailbox, the HVL counter, and the polder counters in order. -/
  | cntSnap (b : Box) (t : Nat) (ts : List Nat)
  /-- CNT_SNAP_POLDER (R408): the mailbox, the HVL counter, and the polder counter. -/
  | cntSnapPolder (b : Box) (t pt : Nat)
  /-- FAULT_LOG_READ (R396). -/
  | faultLogRead
  /-- POLDER_FENCE (R389). -/
  | polderFence
  /-- POWER_CLAMP (R340). -/
  | powerClamp
  /-- MODULE_SEAL (R390): the last step of Table 13-4 the row runs to. -/
  | moduleSeal (step : Nat)
  /-- IDENTITY_QUOTE (R360). -/
  | identityQuote
  /-- WARM_RESET (R499): the boot inputs and the last stage the row runs to. -/
  | warmReset (b : Machine.BootIn) (upTo : Nat)
  /-- RING_INTAKE (R414): the polder, its counter, the head entries in companion memory, and what token rings and mask slots hold. -/
  | ringIntake (p : Fin 16) (t : Nat) (heads : List HeadEntry) (hv : HostGen)
  /-- EVENT_POST (R423). -/
  | eventPost (p : Fin 16)
  /-- SQ_TAIL_WRITE (R413). -/
  | sqTailWrite (p q : Fin 16) (v : Nat) (pr : Priv)
  /-- CQ_HEAD_WRITE (R413). -/
  | cqHeadWrite (p c : Fin 16) (v : Nat) (pr : Priv)
  /-- SQ_CTRL_WRITE (R412). -/
  | sqCtrlWrite (p q : Fin 16) (v : Nat) (pr : Priv)
  /-- CQ_CTRL_WRITE (R415). -/
  | cqCtrlWrite (p c : Fin 16) (v : Nat) (pr : Priv)
  /-- SEC_PRIV_MAP_WRITE (R432). -/
  | secPrivMapWrite (v : Nat) (pr : Priv)
  /-- TST_RES_INJECT (R451). -/
  | tstResInject (v : Nat) (pr : Priv)
  /-- TST_ECC_INJECT (R451). -/
  | tstEccInject (v : Nat) (pr : Priv)
  /-- TST_STALL_INJECT (R451). -/
  | tstStallInject (v : Nat) (pr : Priv)
  /-- TST_LOCKSTEP_INJECT (R451). -/
  | tstLockstepInject (v : Nat) (pr : Priv)
  /-- TST_TR_INJECT (R451). -/
  | tstTrInject (v : Nat) (pr : Priv)
  /-- TST_SENSOR_OFFSET (R451). -/
  | tstSensorOffset (v : Nat) (pr : Priv)
  /-- REGISTER_WRITE (R431): the aperture, the offset in it, the value, and the privilege attribute. -/
  | registerWrite (r : Region) (off v : Nat) (pr : Priv)
  /-- CMP_LO_READ (R449). -/
  | cmpLoRead (n : Fin 16) (pr : Priv)
  /-- CMP_HI_READ (R449). -/
  | cmpHiRead (n : Fin 16) (pr : Priv)
  /-- XD_STALL_READ (R434): the aperture, the offset with the width of the access, and the master. -/
  | xdStallRead (r : Region) (a : ReadAt) (pr : Priv)
  /-- XD_TIMEOUT (R434). -/
  | xdTimeout (r : Region) (off : Nat)
  /-- MIRROR_REFRESH (R434). -/
  | mirrorRefresh
  /-- STATUS_WORD (R477). -/
  | statusWord
  /-- READ_VIN (R477). -/
  | readVin
  /-- READ_IIN (R477). -/
  | readIin
  /-- READ_TEMPERATURE_1 (R477). -/
  | readTemperature1
  /-- READ_POUT (R477). -/
  | readPout
  /-- WMB_OFFSET (R477): the offset, and whether the PEC is right. -/
  | wmbOffset (off : Nat) (pec : Bool)
  /-- WMB_WRITE (R477): the words, and whether the PEC is right. -/
  | wmbWrite (ws : List Nat) (pec : Bool)
  /-- WMB_READ (R477): how many words. -/
  | wmbRead (n : Nat)
  /-- ALERT_RESPONSE (R476). -/
  | alertResponse
  /-- BYPASS (R479). -/
  | bypass
  /-- IDCODE (R479). -/
  | idcode
  /-- SAMPLE_PRELOAD (R479). -/
  | samplePreload
  /-- EXTEST (R479). -/
  | extest
  /-- EXTEST_PULSE (R479). -/
  | extestPulse
  /-- EXTEST_TRAIN (R479). -/
  | extestTrain
  /-- CLAMP (R479). -/
  | clamp
  /-- HIGHZ (R479). -/
  | highz
  /-- STRIP_COMPLETE (R171): the polder, the array, the polder counter, the edge unit results, and what token rings and mask slots hold. -/
  | stripComplete (p : Fin 16) (a t : Nat) (o : StripOut) (hv : HostGen)
  /-- FORCED_PASS (R235): the polder, the session, and, strip by strip in program order, the array that ran it and what it reports. -/
  | forcedPass (p : Fin 16) (idx : Nat) (arrs : List Nat) (outs : List StripOut) (hv : HostGen)
  /-- RESIDUE_MISMATCH (R145): the array, and whether the recomputation mismatches too. -/
  | residueMismatch (a : Nat) (again : Bool)
  /-- HANDSHAKE_STALL (R146): the polder, the array, and whether its self-test passes. -/
  | handshakeStall (p : Fin 16) (a : Nat) (pass : Bool)
  /-- PACE_UPDATE (R124): the polder, the kHz its replica rings measure, and the HVL counter. -/
  | paceUpdate (p : Fin 16) (rates : List Nat) (t : Nat)
  /-- RECALL_DEADLINE (R214): the polder, the pass, the polder counter, and what token rings and mask slots hold. -/
  | recallDeadline (p : Fin 16) (id t : Nat) (hv : HostGen)
  /-- HEAT_EPOCH (R45). -/
  | heatEpoch (p : Fin 16) (t : Nat)
  /-- MIGRATION_COMMIT (R53): the polder and the page, and what token rings and mask slots hold. -/
  | migrationCommit (p : Fin 16) (n : Nat) (hv : HostGen)
  /-- REVIVAL_RESUME (R64). -/
  | revivalResume (p : Fin 16) (idx : Nat)
  /-- TIER_READ_FAIL (R66): the polder and page, read retries done, whether a re-read succeeds, and whether its stripe row gives the unit back. -/
  | tierReadFail (p : Fin 16) (n tries : Nat) (again stripe : Bool)
  /-- STRIPE_ROW_CLOSE (R71). -/
  | stripeRowClose (row t : Nat)
  /-- TOE_WRITE_ACK (R72): the map unit and the block programmed. -/
  | toeWriteAck (u blk : Nat)
  /-- PROGRAM_FAILURE (R79). -/
  | programFailure (u blk : Nat)
  /-- ERASE_FAILURE (R79). -/
  | eraseFailure (ch blk : Nat)
  /-- RETENTION_RELOCATE (R75). -/
  | retentionRelocate (ch blk dst t : Nat)
  /-- GARBAGE_COLLECTION (R77): the channel, the block, where its units go, where wear levelling moves the coldest block, and whether a suspect block passes its verify read. -/
  | garbageCollection (ch blk dst lvl : Nat) (verify : Bool)
  /-- REBUILD_COMPLETE (R80). -/
  | rebuildComplete (p : Fin 16) (ch : Nat)
  /-- BATCH_TIMER (R276). -/
  | batchTimer (p : Fin 16) (t : Nat)
  /-- VISIT_END (R276): the polder, the visit, the polder counter, and segments whose CHECK failed. -/
  | visitEnd (p : Fin 16) (id t : Nat) (bad : List Nat)
  /-- QUERY_DEADLINE (R280). -/
  | queryDeadline (p : Fin 16) (tag t : Nat)
  /-- LEASE_EXPIRY (R103). -/
  | leaseExpiry (p : Fin 16) (idx t : Nat)
  /-- COMMIT_WINDOW_CLOSE (R103). -/
  | commitWindowClose (p : Fin 16) (sid t : Nat)
  /-- RELINQUISHED_EXPIRY (R103). -/
  | relinquishedExpiry (p : Fin 16) (idx t : Nat)
  /-- RESTORE_LEASE_EXPIRY (R103). -/
  | restoreLeaseExpiry (p : Fin 16) (idx t : Nat)
  /-- HANDOFF_IN_WAIT_EXPIRY (R107). -/
  | handoffInWaitExpiry (p : Fin 16) (tag t : Nat)
  /-- OFFER (R103). -/
  | offer (src srcPol : Nat) (p : Fin 16) (x : OwnBody)
  /-- PAGE (R247). -/
  | page (src srcPol : Nat) (p : Fin 16) (x : PageMsg) (hv : HostGen)
  /-- PAGE_ACK (R108). -/
  | pageAck (src srcPol : Nat) (p : Fin 16) (sid h pseq : Nat)
  /-- CLAIM (R103). -/
  | claim (src srcPol : Nat) (p : Fin 16) (x : OwnBody)
  /-- CLAIM_ACK (R103). -/
  | claimAck (src srcPol : Nat) (p : Fin 16) (x : OwnBody)
  /-- ABORT (R103). -/
  | abort (src srcPol : Nat) (p : Fin 16) (x : OwnBody)
  /-- ASSERT (R103). -/
  | assert (src srcPol : Nat) (p : Fin 16) (x : OwnBody)
  /-- ASSERT_REPLY (R103). -/
  | assertReply (src srcPol : Nat) (p : Fin 16) (x : OwnBody)
  /-- JOURNAL (R110). -/
  | journal (src srcPol : Nat) (p : Fin 16) (recs : List JRec)
  /-- JOURNAL_ACK (R111): the buddy, the JSEQ it holds, and what token rings and mask slots hold. -/
  | journalAck (src jseq : Nat) (hv : HostGen)
  /-- JOURNAL_FLUSH (R111). -/
  | journalFlush (t : Nat)
  /-- BUDDY_DEGRADE (R112). -/
  | buddyDegrade (t : Nat)
  /-- PEER_FAILURE_DECLARED (R113). -/
  | peerFailureDeclared (src t : Nat)
  /-- NOTICE (R472). -/
  | notice
  /-- DIR_REFETCH (R93): the entry and the descriptor the buddy gave. -/
  | dirRefetch (idx : Nat) (x : Desc)
  /-- CULVERT_DATA (R466). -/
  | culvertData (t : Nat)
  /-- CULVERT_ACK (R466). -/
  | culvertAck (t : Nat)
  /-- CULVERT_ACK_TIMER (R466). -/
  | culvertAckTimer (src lane t : Nat)
  /-- CULVERT_RESEND_TIMER (R466). -/
  | culvertResendTimer (dst lane psn t : Nat)
  /-- KEEPALIVE_TIMER (R466). -/
  | keepaliveTimer (dst lane t : Nat)
  /-- KEEPALIVE (R466). -/
  | keepalive (src : Nat)
  /-- TK_HELLO (R375): the sender, the polder, the quote, the ciphertext, and whether signature and endorsement verify. -/
  | tkHello (src srcPol : Nat) (p : Fin 16) (q : Quote) (ct : Nat) (verifies : Bool)
  /-- TK_RENEW (R376). -/
  | tkRenew (p : Fin 16) (mod pol t : Nat)
  /-- TK_EXPIRE (R376). -/
  | tkExpire (p : Fin 16) (mod pol t : Nat)
  /-- TK_PREVIOUS_DISCARD (R376). -/
  | tkPreviousDiscard (p : Fin 16) (mod pol t : Nat)
  /-- REPL_DIGESTS (R297). -/
  | replDigests (src srcPol : Nat) (p : Fin 16) (sid epoch seq : Nat) (ds : List Nat)
  /-- REPL_LACKS (R297). -/
  | replLacks (src srcPol : Nat) (p : Fin 16) (bits : List Bool)
  /-- REPL_CHUNK (R297). -/
  | replChunk (src srcPol : Nat) (p : Fin 16) (digest bytes : Nat) (pay : CkPay)
  /-- REPL_RECORDS (R297). -/
  | replRecords (src srcPol : Nat) (p : Fin 16) (sid epoch seq : Nat) (rs : List CkRec)
  /-- REPL_COMMIT (R297). -/
  | replCommit (src srcPol : Nat) (p : Fin 16) (c : Ck)
  /-- REPL_ACK (R298). -/
  | replAck (src srcPol : Nat) (p : Fin 16) (sid epoch seq : Nat) (failed : Bool)
  /-- ANNOUNCE (R497): the sender, the body, whether this anchor is the lowest reachable one, and the HVL counter. -/
  | announce (src : Nat) (x : Announce) (coord : Bool) (t : Nat)
  /-- DISCOVERY_BACKOFF (R496). -/
  | discoveryBackoff (coord : Bool) (t : Nat)
  /-- ANCHOR_ACK_TIMEOUT (R496). -/
  | anchorAckTimeout (coord : Bool) (t : Nat)
  /-- ANCHOR_TICK (R496). -/
  | anchorTick (t : Nat)
  /-- RELAY_FORWARD (R496). -/
  | relayForward (t : Nat)
  /-- RELAY_ACK_TIMEOUT (R496). -/
  | relayAckTimeout (t : Nat)
  /-- INGRESS_FRAME (R459): the port, the frame, and the bytes its queue set holds and can hold. -/
  | ingressFrame (k : Fin 4) (w : Wire) (used size : Nat)
  /-- MKA_FRAME (R458). -/
  | mkaFrame (k : Fin 4) (agreed : Bool)
  /-- NEIGHBOUR_FRAME (R458). -/
  | neighbourFrame (k : Fin 4) (addr : Nat)
  /-- PTP_FRAME (R460): the port, domain, profile, measured offsets, and the HVL counter. -/
  | ptpFrame (k : Fin 4) (dom profile : Nat) (off hvlOff : Int) (ms : List (Nat × Int)) (t : Nat)
  /-- TIME_MESSAGE (R463). -/
  | timeMessage (msg : Block) (delay : Nat) (ms : List (Nat × Int)) (t : Nat)
  /-- LOCK_LOSS (R461). -/
  | lockLoss (k t : Nat)
  /-- POLICER_REFILL (R314). -/
  | policerRefill (p : Fin 16) (t : Nat)
  /-- SLUICE_ENTRY (R321). -/
  | sluiceEntry (k : Fin 4) (t : Nat)
  /-- SLUICE_CHANGE (R325). -/
  | sluiceChange (k : Fin 4) (t : Nat)
  /-- FRAME_TX_DONE (R324). -/
  | frameTxDone (k : Fin 4) (t : Nat)
  /-- HVL_READ_TIMEOUT (R456). -/
  | hvlReadTimeout (half : Nat) (cmd : Option (Fin 16 × Nat)) (box : Option Box) (t : Nat)
  /-- CONTROL_INTERVAL (R334). -/
  | controlInterval (x : PwrSample) (t : Nat)
  /-- THERMAL_SAMPLE (R338): the temperatures and the two clocks. -/
  | thermalSample (temps : List Int) (t : Clocks)
  /-- THERM_VHI_STEP (R338). -/
  | thermVhiStep (t : Nat)
  /-- WARDEN_THERM_CLAMP (R397). -/
  | wardenThermClamp (t : Clocks)
  /-- THERM_TRIP (R397). -/
  | thermTrip
  /-- POWER_REQUEST (R341). -/
  | powerRequest (src t : Nat) (y : PowerMsg)
  /-- POWER_OFFER (R342). -/
  | powerOffer (src t : Nat) (y : PowerMsg)
  /-- OFFER_DEADLINE (R342). -/
  | offerDeadline (t : Nat)
  /-- OFFER_RETURN (R342). -/
  | offerReturn (t : Nat)
  /-- ACCOUNTING_CLOSE (R346). -/
  | accountingClose (p : Fin 16) (t : Nat)
  /-- TOKEN_RING_MOD_TIMER (R245). -/
  | tokenRingModTimer (p : Fin 16) (tag t : Nat)
  /-- CQ_MOD_TIMER (R426). -/
  | cqModTimer (p c : Fin 16) (t : Nat)
  /-- DRBG_RESEED (R241). -/
  | drbgReseed (p : Fin 16)
  /-- KEY_SWEEP (R366). -/
  | keySweep (p : Fin 16) (n : Nat)
  /-- FABRIC_PORT_ERROR (R383). -/
  | fabricPortError (a t : Nat)
  /-- FABRIC_WEDGE (R383). -/
  | fabricWedge (t : Clocks)
  /-- ACT_STORE_ECC (R383). -/
  | actStoreEcc (a t : Nat) (uncorr : Bool) (detail : Block)
  /-- CREST_ECC (R383). -/
  | crestEcc (die : Nat) (uncorr : Bool) (page : Option (Fin 16 × Nat)) (detail : Block)
  /-- CREST_SCRUB (R383). -/
  | crestScrub (t : Clocks)
  /-- CREST_DIE_FAULT (R383). -/
  | crestDieFault (die : Nat)
  /-- BERM_ECC (R383). -/
  | bermEcc (d t : Nat) (uncorr again : Bool) (page : Option (Fin 16 × Nat)) (detail : Block)
  /-- BERM_DEVICE_FAULT (R383). -/
  | bermDeviceFault (d cause t : Nat)
  /-- BERM_TRAINING_CHECK (R383). -/
  | bermTrainingCheck (t : Clocks) (bad : Nat)
  /-- TOE_CHANNEL_FAULT (R383). -/
  | toeChannelFault (ch cause : Nat)
  /-- LOCKSTEP_MISMATCH (R388). -/
  | lockstepMismatch (k : Nat)
  /-- HEARTBEAT_LOSS (R383). -/
  | heartbeatLoss (k : Nat) (t : Clocks)
  /-- AUTO_SEAL (R384). -/
  | autoSeal (t : Clocks)
  /-- DUP_MISMATCH (R383). -/
  | dupMismatch (ty n t : Nat)
  /-- TR_SWEEP (R437). -/
  | trSweep (t : Nat)
  /-- PHASE_FAULT (R383). -/
  | phaseFault (n : Nat)
  /-- VCORE_DOMAIN_FAULT (R383). -/
  | vcoreDomainFault (g : Nat)
  /-- HVL_LANE_CRC (R383). -/
  | hvlLaneCrc (half : Nat)
  /-- HVL_LANE_LOSS (R383). -/
  | hvlLaneLoss (half : Nat)
  /-- ETH_PORT_FAULT (R383). -/
  | ethPortFault (k : Nat)
  /-- SENSOR_IMPLAUSIBLE (R383). -/
  | sensorImplausible (n : Nat) (detail : Block)
  /-- OSC_CHECK (R393). -/
  | oscCheck (t tickPs : Nat)
  /-- FAULT_LOG_COPY (R399). -/
  | faultLogCopy (t : Nat)
  /-- MRST_L_RELEASE (R517). -/
  | mrstLRelease (b : Machine.BootIn) (upTo : Nat)
  /-- HVL_RST_L_RELEASE (R514). -/
  | hvlRstLRelease (gen : Nat)
  /-- ENTROPY_HEALTH_FAIL (R241). -/
  | entropyHealthFail
deriving DecidableEq, Repr

end Sys2Proof
end

