-- ==== Sys2Proof/Machine/Flags.lean ====
section
/-! DEFINITION. Number formats (R126 to R133), FP32 arithmetic with round to nearest even (R119, R137) and output
conversion (R141 to R143): the operand forms and the result flags (overflow and NaN counts) of the arrays. -/

namespace Sys2Proof.Machine

/-- An exact value: a signed dyadic number m * 2^e, an infinity or NaN. -/
inductive Num where
  | fin (neg : Bool) (m : Nat) (e : Int)
  | inf (neg : Bool)
  | nan
deriving DecidableEq, Repr

/-- How an all-ones exponent is read (Table 04-6). -/
inductive Top where
  /-- Inf and NaN as in IEEE formats. -/
  | ieee
  /-- One NaN code, no Inf (FP8 E4M3). -/
  | nanOnly
  /-- Every code finite (FP6, FP4). -/
  | finite
deriving DecidableEq, Repr

/-- A floating element encoding (Table 04-6). -/
structure FloatFmt where
  ebits : Nat
  bias : Nat
  mbits : Nat
  top : Top
deriving DecidableEq, Repr

def fmtF32 : FloatFmt := ⟨8, 127, 23, .ieee⟩
def fmtBf16 : FloatFmt := ⟨8, 127, 7, .ieee⟩
def fmtF16 : FloatFmt := ⟨5, 15, 10, .ieee⟩
def fmtE4m3 : FloatFmt := ⟨4, 7, 3, .nanOnly⟩
def fmtE5m2 : FloatFmt := ⟨5, 15, 2, .ieee⟩
def fmtE3m2 : FloatFmt := ⟨3, 3, 2, .finite⟩
def fmtE2m3 : FloatFmt := ⟨2, 1, 3, .finite⟩
def fmtE2m1 : FloatFmt := ⟨2, 1, 1, .finite⟩

/-- The bits of an element. -/
def FloatFmt.bits (f : FloatFmt) : Nat := 1 + f.ebits + f.mbits

/-- The code of the largest finite magnitude (Table 04-6). -/
def FloatFmt.maxCode (f : FloatFmt) : Nat :=
  match f.top with
  | .ieee => (2 ^ f.ebits - 1) * 2 ^ f.mbits - 1
  | .nanOnly => 2 ^ (f.ebits + f.mbits) - 2
  | .finite => 2 ^ (f.ebits + f.mbits) - 1

/-- The value of an element code; an exponent field of zero is a subnormal, read at its true value (R127, R137). -/
def FloatFmt.decode (f : FloatFmt) (code : Nat) : Num :=
  let neg := bit code (f.ebits + f.mbits)
  let mag := code % 2 ^ (f.ebits + f.mbits)
  let ex := mag / 2 ^ f.mbits
  let man := mag % 2 ^ f.mbits
  if mag > f.maxCode then
    (if f.top == .ieee && man == 0 then .inf neg else .nan)
  else if ex == 0 then .fin neg man (1 - (f.bias : Int) - f.mbits)
  else .fin neg (man + 2 ^ f.mbits) ((ex : Int) - f.bias - f.mbits)

/-- m * 2^s for a natural m, rounded to a natural number, nearest with ties to even. -/
def roundShift (m : Nat) (s : Int) : Nat :=
  match s with
  | .ofNat k => m * 2 ^ k
  | .negSucc k =>
    let d := 2 ^ (k + 1)
    let q := m / d
    let r := m % d
    if 2 * r > d then q + 1
    else if 2 * r == d && q % 2 == 1 then q + 1
    else q

/-- The magnitude code of m * 2^e rounded to nearest even in a format; a code above `maxCode` is an overflow (R141). -/
def FloatFmt.roundMag (f : FloatFmt) (m : Nat) (e : Int) : Nat :=
  if m == 0 then 0 else
  let lsb : Int := max ((Nat.log2 m : Int) + e - f.mbits) (1 - (f.bias : Int) - f.mbits)
  let q := roundShift m (e - lsb)
  if q < 2 ^ f.mbits then q
  else ((lsb + f.mbits + f.bias).toNat) * 2 ^ f.mbits + (q - 2 ^ f.mbits)

/-- A code with its sign bit. -/
def FloatFmt.signed (f : FloatFmt) (neg : Bool) (mag : Nat) : Nat := b2n neg * 2 ^ (f.ebits + f.mbits) + mag

/-- FP32 bits of an exact value: nearest even, Inf beyond the range (R119). -/
def toF32 (x : Num) : F32 :=
  match x with
  | .nan => 0x7FC00000#32
  | .inf neg => BitVec.ofNat 32 (fmtF32.signed neg 0x7F800000)
  | .fin neg m e =>
    let c := fmtF32.roundMag m e
    BitVec.ofNat 32 (fmtF32.signed neg (if c > fmtF32.maxCode then 0x7F800000 else c))

/-- The edge unit's FP32 result: a subnormal is flushed to zero and keeps its sign (R137). -/
def flushF32 (w : F32) : F32 :=
  if w.toNat % 2 ^ 31 < 2 ^ 23 then BitVec.ofNat 32 (b2n (bit w.toNat 31) * 2 ^ 31) else w

/-- The value of FP32 bits. -/
def ofF32 (w : F32) : Num := fmtF32.decode w.toNat

/-- Exact sum; +Inf added to -Inf is NaN (R138). -/
def Num.add (x y : Num) : Num :=
  match x, y with
  | .nan, _ => .nan
  | _, .nan => .nan
  | .inf a, .inf b => if a == b then .inf a else .nan
  | .inf a, _ => .inf a
  | _, .inf b => .inf b
  | .fin na ma ea, .fin nb mb eb =>
    let e := min ea eb
    let a : Int := (ma * 2 ^ (ea - e).toNat : Nat)
    let b : Int := (mb * 2 ^ (eb - e).toNat : Nat)
    let s := (if na then -a else a) + (if nb then -b else b)
    .fin (if s == 0 then na && nb else decide (s < 0)) s.natAbs e

/-- The sign turned. -/
def Num.neg (x : Num) : Num :=
  match x with
  | .nan => .nan
  | .inf a => .inf (!a)
  | .fin n m e => .fin (!n) m e

/-- Exact product; Inf times zero is NaN (R138). -/
def Num.mul (x y : Num) : Num :=
  match x, y with
  | .nan, _ => .nan
  | _, .nan => .nan
  | .inf a, .inf b => .inf (a != b)
  | .inf a, .fin n m _ => if m == 0 then .nan else .inf (a != n)
  | .fin n m _, .inf a => if m == 0 then .nan else .inf (a != n)
  | .fin na ma ea, .fin nb mb eb => .fin (na != nb) (ma * mb) (ea + eb)

/-- Quotient to at least 64 significant bits with a sticky bit below them, so that its FP32 rounding is exact. -/
def Num.div (x y : Num) : Num :=
  match x, y with
  | .nan, _ => .nan
  | _, .nan => .nan
  | .inf _, .inf _ => .nan
  | .inf a, .fin n _ _ => .inf (a != n)
  | .fin n _ _, .inf a => .fin (a != n) 0 0
  | .fin na ma ea, .fin nb mb eb =>
    if mb == 0 then (if ma == 0 then .nan else .inf (na != nb))
    else
      let k := 64 + Nat.log2 mb + 1
      let n := ma * 2 ^ k
      let q := n / mb
      let sticky := if n % mb == 0 then 0 else 1
      .fin (na != nb) (2 * q + sticky) (ea - eb - k - 1)

/-- x < y, false for NaN. -/
def Num.lt (x y : Num) : Bool :=
  match x, y with
  | .nan, _ => false
  | _, .nan => false
  | .inf a, .inf b => a && !b
  | .inf a, .fin _ _ _ => a
  | .fin _ _ _, .inf b => !b
  | .fin _ _ _, .fin _ _ _ =>
    match Num.add x (Num.neg y) with
    | .fin n m _ => n && m != 0
    | _ => false

def f32Add (a b : F32) : F32 := toF32 ((ofF32 a).add (ofF32 b))
def f32Sub (a b : F32) : F32 := toF32 ((ofF32 a).add (ofF32 b).neg)
def f32Mul (a b : F32) : F32 := toF32 ((ofF32 a).mul (ofF32 b))
def f32Div (a b : F32) : F32 := toF32 ((ofF32 a).div (ofF32 b))
def f32Lt (a b : F32) : Bool := (ofF32 a).lt (ofF32 b)
def f32IsNan (a : F32) : Bool := ofF32 a == .nan
def f32NegInf : F32 := 0xFF800000#32
def f32One : F32 := 0x3F800000#32

/-- True for the bits of zero or a positive value, NaN left out. -/
def f32NonNeg (a : F32) : Bool := !f32IsNan a && !f32Lt a 0#32

/-- FP16 bits of an FP32 value, nearest even; values below -65,504 become -Inf (R239). -/
def f32ToF16 (a : F32) : Nat :=
  match ofF32 a with
  | .nan => 0x7E00
  | .inf neg => fmtF16.signed neg 0x7C00
  | .fin neg m e =>
    let c := fmtF16.roundMag m e
    fmtF16.signed neg (if c > fmtF16.maxCode then 0x7C00 else c)

/-- Output conversion of one value: the code, and whether it counts as an overflow or as a NaN. -/
structure Conv where
  code : Nat
  sat : Bool
  nan : Bool
deriving DecidableEq, Repr

/-- Conversion to a scalar floating format (Table 04-9, R141). The NaN codes are those of Table 04-6. -/
def convFloat (f : FloatFmt) (nanCode : Nat) (outSat : Bool) (w : F32) : Conv :=
  match ofF32 w with
  | .nan => ⟨f.signed (bit w.toNat 31) nanCode, false, true⟩
  | .inf neg =>
    if outSat then ⟨f.signed neg f.maxCode, false, false⟩
    else if f.top == .ieee then ⟨f.signed neg (f.maxCode + 1), false, false⟩
    else ⟨f.signed neg nanCode, false, false⟩
  | .fin neg m e =>
    let c := f.roundMag m e
    if c > f.maxCode then
      (if outSat then ⟨f.signed neg f.maxCode, true, false⟩
       else if f.top == .ieee then ⟨f.signed neg (f.maxCode + 1), true, false⟩
       else ⟨f.signed neg nanCode, true, false⟩)
    else ⟨f.signed neg c, false, false⟩

/-- Requantisation to a two's-complement integer of some bits: nearest even, clamped (Table 04-9, R143). -/
def convInt (bits : Nat) (w : F32) : Conv :=
  let hi : Int := 2 ^ (bits - 1) - 1
  let lo : Int := -(2 ^ (bits - 1))
  let enc (v : Int) : Nat := (v % 2 ^ bits).toNat
  match ofF32 w with
  | .nan => ⟨0, false, true⟩
  | .inf neg => ⟨enc (if neg then lo else hi), false, false⟩
  | .fin neg m e =>
    let v : Int := roundShift m e
    let s := if neg then -v else v
    if s > hi then ⟨enc hi, true, false⟩ else if s < lo then ⟨enc lo, true, false⟩ else ⟨enc s, false, false⟩

/-- A converted MX block: its E8M0 scale, its elements, and its overflow and NaN counts. -/
structure MxBlock where
  scale : Nat
  elems : List Nat
  sats : Nat
  nans : Nat
deriving DecidableEq, Repr

/-- The magnitude of a value for the block maximum; Inf is taken as the largest finite FP32 value (R142). -/
def magF32 (w : F32) : Nat × Int :=
  match ofF32 w with
  | .fin _ m e => (m, e)
  | .inf _ => (2 ^ 24 - 1, 104)
  | .nan => (0, 0)

/-- floor(log2) of the largest magnitude of a block, none when all are zero. -/
def blockExp (vs : List F32) : Option Int :=
  vs.foldl (fun acc w =>
    let p := magF32 w
    if p.1 == 0 then acc
    else
      let l : Int := (Nat.log2 p.1 : Int) + p.2
      match acc with
      | none => some l
      | some k => some (max k l)) none

/-- One element of an MX block after the shift by the block exponent, always saturating (R142). -/
def mxElem (f : Option FloatFmt) (x : Int) (w : F32) : Conv :=
  let p := magF32 w
  let neg := bit w.toNat 31
  match f with
  | some g =>
    let c := g.roundMag p.1 (p.2 - x)
    if c > g.maxCode then ⟨g.signed neg g.maxCode, true, false⟩ else ⟨g.signed neg c, false, false⟩
  | none =>
    let v := roundShift p.1 (p.2 - x + 2)
    let c := if v > 7 then 7 else v
    ⟨if neg then (16 - c) % 16 else c, decide (v > 7), false⟩

/-- One 32-element block into an MX format (R142); `none` is MXINT4. -/
def mxBlock (f : Option FloatFmt) (emax : Int) (vs : List F32) : MxBlock :=
  if vs.any f32IsNan then ⟨0xFF, vs.map (fun _ => 0), 0, (vs.filter f32IsNan).length⟩
  else
    let x0 : Int := match blockExp vs with
      | none => -127
      | some l => l - emax
    let x := max (-127) (min 127 x0)
    let es := vs.map (mxElem f x)
    ⟨(x + 127).toNat, es.map Conv.code, (es.filter Conv.sat).length, 0⟩

/-- Element bits of a format code (Table 04-5); 0 for a reserved code. -/
def fmtBits (code : Nat) : Nat :=
  match code with
  | 0x0 => 16 | 0x1 => 8 | 0x2 => 8 | 0x3 => 8 | 0x4 => 8 | 0x5 => 6 | 0x6 => 6 | 0x7 => 4 | 0x8 => 4
  | 0x9 => 8 | 0xA => 4 | 0xB => 1 | 0xC => 32 | 0xD => 32 | _ => 0

/-- MX formats carry a block of 32 elements with one E8M0 scale (Table 04-5). -/
def fmtIsMx (code : Nat) : Bool := 3 ≤ code && code ≤ 8

/-- Codes that can be an operand (Table 04-5); FP32 and INT32 are output only. -/
def fmtIsOperand (code : Nat) : Bool := code ≤ 0xB

/-- The element encoding and the element exponent of an MX format (R142). -/
def mxParams (code : Nat) : Option FloatFmt × Int :=
  match code with
  | 0x3 => (some fmtE4m3, 8)
  | 0x4 => (some fmtE5m2, 15)
  | 0x5 => (some fmtE3m2, 4)
  | 0x6 => (some fmtE2m3, 2)
  | 0x7 => (some fmtE2m1, 2)
  | _ => (none, 0)

/-- The list cut into pieces of n, with at most `fuel` pieces. -/
def chunks {α : Type} (n : Nat) : Nat → List α → List (List α)
  | 0, _ => []
  | _ + 1, [] => []
  | k + 1, l => l.take n :: chunks n k (l.drop n)

/-- A converted row: codes, block scales, overflow and NaN counts (R141, R142). -/
structure ConvRow where
  codes : List Nat
  scales : List Nat
  sats : Nat
  nans : Nat
deriving DecidableEq, Repr

/-- Conversion of a row of edge-unit results to an output format (Table 04-9). -/
def convRow (code : Nat) (outSat : Bool) (vs : List F32) : ConvRow :=
  if fmtIsMx code then
    let p := mxParams code
    let bs := (chunks 32 (vs.length / 32 + 1) vs).map (mxBlock p.1 p.2)
    ⟨(bs.map MxBlock.elems).flatten, bs.map MxBlock.scale, (bs.map MxBlock.sats).sum, (bs.map MxBlock.nans).sum⟩
  else
    let one (w : F32) : Conv :=
      match code with
      | 0x0 => convFloat fmtBf16 0x7FC0 outSat w
      | 0x1 => convFloat fmtE4m3 0x7F outSat w
      | 0x2 => convFloat fmtE5m2 0x7E outSat w
      | 0x9 => convInt 8 w
      | 0xA => convInt 4 w
      | _ => ⟨w.toNat, false, f32IsNan w⟩
    let cs := vs.map one
    ⟨cs.map Conv.code, [], (cs.filter Conv.sat).length, (cs.filter Conv.nan).length⟩

/-- An element of a KV body as an exact multiple of 2^-260; NaN and Inf read as 0 (R202). A scale of 0xFF is NaN (R133). -/
def elemFixed (code : Nat) (scale elem : Nat) : Int :=
  let go (f : FloatFmt) (sh : Int) : Int :=
    match f.decode elem with
    | .fin neg m e => let v : Int := (m * 2 ^ (e + sh + 260).toNat : Nat); if neg then -v else v
    | _ => 0
  match code with
  | 0x0 => go fmtBf16 0
  | 0x1 => go fmtE4m3 0
  | 0x2 => go fmtE5m2 0
  | 0x7 => if scale == 0xFF then 0 else go fmtE2m1 ((scale : Int) - 127)
  | _ => 0

/-- The products of Table 04-8: a stationary and a streaming format that form an operand pair (R134). -/
def pairOk (s t : Nat) : Bool :=
  (s == 0 && t == 0) || (1 ≤ s && s ≤ 7 && 1 ≤ t && t ≤ 7) ||
  ((s == 7 || s == 8) && (t == 7 || t == 8)) || (s == 8 && 1 ≤ t && t ≤ 6) ||
  ((s == 9 || s == 0xA) && (t == 9 || t == 0xA)) || (s == 0xB && t == 0xB)

/-- Two 4-bit operands run two products per handshake with a 128-row tile (Table 04-8). -/
def pair4 (s t : Nat) : Bool :=
  ((s == 7 || s == 8) && (t == 7 || t == 8)) || (s == 0xA && t == 0xA)

/-- The tile's K of an operand pair (Table 04-8). -/
def tileK (s t : Nat) : Nat := if s == 0xB then 4096 else if pair4 s t then 128 else 64

/-- Weight tile bytes (Table 04-11). -/
def tileBytes (s t : Nat) : Nat :=
  match s with
  | 0x0 => 8192
  | 0x1 => 4096 | 0x2 => 4096 | 0x9 => 4096
  | 0x3 => 4224 | 0x4 => 4224
  | 0x5 => 3200 | 0x6 => 3200
  | 0x7 => if pair4 s t then 4352 else 2176
  | 0x8 => if pair4 s t then 4352 else 2176
  | 0xA => if pair4 s t then 4096 else 2048
  | 0xB => 32768
  | _ => 0

end Sys2Proof.Machine
end

