-- ==== Sys2Proof/Config.lean ====
section
/-! DEFINITION. What an implementation fixes and what the spec leaves open. Every constant here is opaque: a statement
about the machine holds whatever its value is. A free value takes a counter of the state, so that each use is fresh. -/

namespace Sys2Proof.Config

/-- A free number for the n-th open choice: a page, frame or directory entry to start looking from (log entry 5). -/
opaque hint : Nat → Nat

/-- A seed of a polder's DRBG: the derivation function's output on fresh entropy (R241, log entry 6). -/
opaque seed : Nat → BitVec 384

/-- A 256-bit random value of the secure element (R352, R364). -/
opaque random : Nat → BitVec 256

/-- The GEN an entry carries at its first use after a start without a seal (R391, log entry 7). -/
opaque firstGen : Nat → Nat → Nat

/-- The order in which the sampler unit adds the exponentials of a row (R239, log entry 8). -/
opaque sumOrder : Nat → List Nat

/-- What a NaN logit, or one made NaN by infinities, is taken as (R239 states no order for NaN, log entry 9). -/
opaque nanLogit : Nat → Nat → BitVec 32

/-- What an edge unit or sampler unit gives for a function and an input before the bound of Table 04-2 is applied: a use, the
function's number, the input (R119, log entry 56). -/
opaque edgeValue : Nat → Nat → F32 → F32

/-- A code of an operand element that the spec does not state: a use and a position (log entry 10). -/
opaque openCode : Nat → Nat → Nat

/-- ROTARY on a row: its elements, its position, and the image from the angle table on (R158, log entry 58). -/
opaque rotary : List F32 → Nat → Nat → List F32

/-- The constant that RMSNORM and LAYERNORM add to the mean before the reciprocal root (log entry 58). -/
opaque normEps : F32

/-- A result value of a strip that the spec does not state (log entry 10). -/
opaque openF32 : Nat → BitVec 32

/-- A value the spec does not state (log entry 11). -/
opaque openNat : Nat → Nat

/-- The flash programs started but not complete at a power failure, by map unit and block (R81, log entry 78). -/
opaque inFlight : Nat → List (Nat × Nat)

/-- SHA3-256 of the secure ROM (Table 12-5). -/
opaque romDigest : Nat

/-- The ML-DSA-44 public key of a seed, a hedged signature by a seed over a message, and whether a public key accepts a signature
(R352, R359). -/
opaque mldsaPub : Nat → Nat
opaque mldsaSign : Nat → Nat → Nat → Nat
opaque mldsaVerify : Nat → Nat → Nat → Bool

/-- Ebermier's endorsement of a device identity key (R352). -/
opaque dikEndorse : Nat → Nat

/-- ML-KEM-768: the encapsulation key of a seed, the shared secret of a ciphertext, none where decapsulation fails, and an encapsulation
to a key: ciphertext and shared secret (R352, R374, R375). -/
opaque kemPub : Nat → Nat
opaque kemDecap : Nat → Nat → Option Nat
opaque kemEncap : Nat → Nat → Nat × Nat

/-- The management core pair that serves a mailbox from start-up on: 0 to 15 the polders', 16 the management mailbox (R388). -/
opaque pairOf : Nat → Nat

end Sys2Proof.Config
end

