-- ==== Sys2Proof/Machine/Hash.lean ====
section
/-! DEFINITION. The named functions whose standards fix every bit: Keccak-f[1600] with SHA3-256 and SHAKE128 (FIPS 202; R202, R286,
R352) and CRC-32C (Castagnoli; R204). A byte string is a list of bytes. -/

namespace Sys2Proof.Machine

/-- Rotation of a 64-bit lane to the left. -/
def rotl64 (x n : Nat) : Nat := (x <<< (n % 64)) % 2 ^ 64 ||| x >>> (64 - n % 64)

/-- The rotation of lane x + 5y (FIPS 202, step rho). -/
def keccakRho : List Nat :=
  [0, 1, 62, 28, 27, 36, 44, 6, 55, 20, 3, 10, 43, 25, 39, 41, 45, 15, 21, 8, 18, 2, 61, 56, 14]

/-- The round constants (FIPS 202, step iota). -/
def keccakRc : List Nat :=
  [0x0000000000000001, 0x0000000000008082, 0x800000000000808A, 0x8000000080008000, 0x000000000000808B, 0x0000000080000001,
   0x8000000080008081, 0x8000000000008009, 0x000000000000008A, 0x0000000000000088, 0x0000000080008009, 0x000000008000000A,
   0x000000008000808B, 0x800000000000008B, 0x8000000000008089, 0x8000000000008003, 0x8000000000008002, 0x8000000000000080,
   0x000000000000800A, 0x800000008000000A, 0x8000000080008081, 0x8000000000008080, 0x0000000080000001, 0x8000000080008008]

/-- A lane of the state: x + 5y. -/
def lane (s : List Nat) (x y : Nat) : Nat := (s[x % 5 + 5 * (y % 5)]?).getD 0

/-- One round of Keccak-f[1600]: theta, rho, pi, chi, iota. -/
def keccakRound (s : List Nat) (rc : Nat) : List Nat :=
  let col := (List.range 5).map (fun x => (List.range 5).foldl (fun a y => a ^^^ lane s x y) 0)
  let d := (List.range 5).map (fun x => (col[(x + 4) % 5]?).getD 0 ^^^ rotl64 ((col[(x + 1) % 5]?).getD 0) 1)
  let r := (List.range 25).map (fun i => rotl64 ((s[i]?).getD 0 ^^^ (d[i % 5]?).getD 0) ((keccakRho[i]?).getD 0))
  -- pi: lane (x, y) comes from (x + 3y, x)
  let b := (List.range 25).map (fun i => lane r (i % 5 + 3 * (i / 5)) (i % 5))
  (List.range 25).map (fun i =>
    let x := i % 5
    let y := i / 5
    let v := lane b x y ^^^ ((2 ^ 64 - 1 - lane b (x + 1) y) &&& lane b (x + 2) y)
    if i == 0 then v ^^^ rc else v)

/-- Keccak-f[1600]. -/
def keccakF (s : List Nat) : List Nat := keccakRc.foldl keccakRound s

/-- A little-endian number of a byte string. -/
def ofBytes : List Nat → Nat
  | [] => 0
  | b :: t => b % 256 + 256 * ofBytes t

/-- The first n bytes of a number, little-endian (R15). -/
def toBytes (v : Nat) : Nat → List Nat
  | 0 => []
  | n + 1 => v % 256 :: toBytes (v / 256) n

/-- A block of the rate XORed into the state. -/
def absorbBlock (s : List Nat) (blk : Nat) : List Nat := s.zipIdx.map (fun e => e.1 ^^^ (blk >>> (64 * e.2)) % 2 ^ 64)

/-- The padded message as blocks of the rate: the domain byte, zeros, and a final bit (FIPS 202, pad10*1). -/
def padBlocks (rate dom : Nat) (msg : List Nat) : List Nat :=
  let n := msg.length / rate + 1
  let v := ofBytes msg + dom * 256 ^ msg.length + 0x80 * 256 ^ (n * rate - 1)
  (List.range n).map (fun i => (v / 256 ^ (i * rate)) % 256 ^ rate)

/-- The state after a message was absorbed. -/
def sponge (rate dom : Nat) (msg : List Nat) : List Nat :=
  (padBlocks rate dom msg).foldl (fun s b => keccakF (absorbBlock s b)) (List.replicate 25 0)

/-- The state as a number: lane 0 lowest. -/
def stateNum (s : List Nat) : Nat := s.zipIdx.foldl (fun a e => a + e.1 * 2 ^ (64 * e.2)) 0

/-- Blocks of output squeezed from a state, the first lowest. -/
def squeeze (rate : Nat) : Nat → List Nat → Nat
  | 0, _ => 0
  | n + 1, s => stateNum s % 256 ^ rate + 256 ^ rate * squeeze rate n (keccakF s)

/-- SHA3-256 as a little-endian number of its 32 bytes. -/
def sha3Bytes (msg : List Nat) : Nat := stateNum (sponge 136 0x06 msg) % 2 ^ 256

/-- The first n bytes of SHAKE128, as a little-endian number. -/
def shake128 (msg : List Nat) (n : Nat) : Nat := squeeze 168 (n / 168 + 1) (sponge 168 0x1F msg) % 256 ^ n

/-- The bytes of an ASCII string. -/
def ascii (s : String) : List Nat := s.toList.map Char.toNat

/-- One byte of CRC-32C, reflected, polynomial 0x1EDC6F41. -/
def crcByte (c b : Nat) : Nat :=
  (List.range 8).foldl (fun c _ => if c % 2 == 1 then c / 2 ^^^ 0x82F63B78 else c / 2) (c ^^^ b % 256)

/-- CRC-32C (Castagnoli) of a byte string (R204). -/
def crc32c (msg : List Nat) : Nat := msg.foldl crcByte 0xFFFFFFFF ^^^ 0xFFFFFFFF

/-- CRC-32C of the first n bytes of a number. -/
def crcNum (v n : Nat) : Nat := crc32c (toBytes v n)

end Sys2Proof.Machine
end

