-- ==== Sys2Proof/Machine/Cipher.lean ====
section
/-! DEFINITION. AES-256 and its modes: XTS for data at rest (IEEE 1619; R362) and GCM for sealed messages, bounce buffers and the vault
(SP 800-38D; R367, R371, R471). A block is 16 bytes, a key a little-endian number. -/

namespace Sys2Proof.Machine

/-- The S-box, entry 0 lowest (FIPS 197). -/
def sboxTable : Nat :=
  0x16bb54b00f2d99416842e6bf0d89a18cdf2855cee9871e9b948ed9691198f8e19e1dc186b95735610ef6034866b53e708a8bbd4b1f74dde8c6b4a61c2e2578ba08ae7a65eaf4566ca94ed58d6d37c8e779e4959162acd3c25c2406490a3a32e0db0b5ede14b8ee4688902a22dc4f816073195d643d7ea7c41744975fec130ccdd2f3ff1021dab6bcf5389d928f40a351a89f3c507f02f94585334d43fbaaefd0cf584c4a39becb6a5bb1fc20ed00d153842fe329b3d63b52a05a6e1b1a2c830975b227ebe28012079a059618c323c7041531d871f1e5a534ccf73f362693fdb7c072a49cafa2d4adf04759fa7dc982ca76abd7fe2b670130c56f6bf27b777c63

def subByte (x : Nat) : Nat := (sboxTable >>> (8 * (x % 256))) % 256

/-- A byte times x in the field of AES. -/
def xtime (b : Nat) : Nat := 2 * b % 256 ^^^ (if 128 ≤ b then 0x1B else 0)

def xorBytes (a b : List Nat) : List Nat := List.zipWith (fun x y => x ^^^ y) a b

/-- Words 8 to 59 of the key schedule of AES-256, the newest first. -/
def keyWords : Nat → Nat → List (List Nat) → List (List Nat)
  | 0, _, ws => ws
  | n + 1, rc, ws =>
    let i := ws.length
    let t := (ws.head?).getD []
    let t' := if i % 8 == 0 then xorBytes ((t.drop 1 ++ t.take 1).map subByte) [rc, 0, 0, 0]
      else if i % 8 == 4 then t.map subByte else t
    keyWords n (if i % 8 == 0 then xtime rc else rc) (xorBytes t' ((ws[7]?).getD []) :: ws)

/-- A byte string in runs of n. -/
def runsOf (n : Nat) (l : List Nat) : List (List Nat) := (List.range (l.length / max 1 n)).map (fun i => (l.drop (n * i)).take n)

/-- The fifteen round keys of a 256-bit key. -/
def roundKeys (key : Nat) : List (List Nat) :=
  runsOf 16 ((keyWords 52 1 (runsOf 4 (toBytes key 32)).reverse).reverse.flatten)

/-- ShiftRows on a block held column by column. -/
def shiftRows (s : List Nat) : List Nat := (List.range 16).map (fun i => (s[(i + 4 * (i % 4)) % 16]?).getD 0)

/-- MixColumns on one column. -/
def mixColumn (col : List Nat) : List Nat :=
  (List.range 4).map (fun r =>
    let a (k : Nat) : Nat := (col[(r + k) % 4]?).getD 0
    xtime (a 0) ^^^ xtime (a 1) ^^^ a 1 ^^^ a 2 ^^^ a 3)

/-- AES-256 of a block under its round keys. -/
def aesBlock (ks : List (List Nat)) (blk : List Nat) : List Nat :=
  let k (i : Nat) : List Nat := (ks[i]?).getD []
  let mid := (List.range' 1 13).foldl (fun s i => xorBytes ((runsOf 4 (shiftRows (s.map subByte))).flatMap mixColumn) (k i)) (xorBytes blk (k 0))
  xorBytes (shiftRows (mid.map subByte)) (k 14)

/-- The tweak times x in XTS: little-endian, feedback 0x87. -/
def xtsDouble (t : Nat) : Nat := 2 * t % 2 ^ 128 ^^^ (if 2 ^ 127 ≤ t then 0x87 else 0)

/-- Blocks of a data unit under XTS, from a tweak on. -/
def xtsBlocks (ks : List (List Nat)) : Nat → Nat → Nat → Nat
  | 0, _, _ => 0
  | n + 1, t, v =>
    let c := ofBytes (aesBlock ks (toBytes (v % 2 ^ 128 ^^^ t) 16)) ^^^ t
    c + 2 ^ 128 * xtsBlocks ks n (xtsDouble t) (v / 2 ^ 128)

/-- AES-256-XTS of one data unit of so many 16-byte blocks; the key pair is one 512-bit number, the tweak a 128-bit one. -/
def xtsUnit (pair tweak blocks v : Nat) : Nat :=
  xtsBlocks (roundKeys (pair % 2 ^ 256)) blocks (ofBytes (aesBlock (roundKeys (pair / 2 ^ 256)) (toBytes tweak 16))) v

/-- A page of 64 KiB at rest at a session-space address: data units of so many bytes, each with its own address as the tweak (R362). -/
def xtsPage (pair ssa unit v : Nat) : Nat :=
  (List.range (65536 / unit)).foldl (fun a i =>
    a + xtsUnit pair (ssa + unit * i) (unit / 16) (v / 256 ^ (unit * i) % 256 ^ unit) * 256 ^ (unit * i)) 0

/-- A number as n bytes, big-endian. -/
def toBe (v n : Nat) : List Nat := (toBytes v n).reverse

/-- A big-endian number of a byte string. -/
def beBytes (l : List Nat) : Nat := l.foldl (fun a b => 256 * a + b) 0

/-- The product of two elements of GCM's field, the first bit of a block the highest of its number. -/
def ghashMul (x y : Nat) : Nat :=
  ((List.range 128).foldl (fun (a : Nat × Nat) i =>
    (if (x >>> (127 - i)) % 2 == 1 then a.1 ^^^ a.2 else a.1, a.2 / 2 ^^^ (if a.2 % 2 == 1 then 0xE1 * 2 ^ 120 else 0))) (0, y)).1

/-- A byte string filled up with zeros to whole blocks. -/
def padBlock (l : List Nat) : List Nat := l ++ List.replicate ((16 - l.length % 16) % 16) 0

/-- GHASH of whole blocks. -/
def ghash (h : Nat) (l : List Nat) : Nat := (runsOf 16 l).foldl (fun a b => ghashMul (a ^^^ beBytes b) h) 0

/-- The key stream of AES-256-GCM with a 96-bit IV over a message or a ciphertext, and the 16 B tag of a ciphertext (SP 800-38D). -/
def gcmPad (key : Nat) (iv : List Nat) (i : Nat) : List Nat := aesBlock (roundKeys key) (iv ++ toBe (i % 2 ^ 32) 4)
def gcmStream (key : Nat) (iv msg : List Nat) : List Nat :=
  xorBytes msg ((List.range (msg.length / 16 + 1)).flatMap (fun i => gcmPad key iv (i + 2)))
def gcmTag (key : Nat) (iv aad c : List Nat) : List Nat :=
  let h := beBytes (aesBlock (roundKeys key) (List.replicate 16 0))
  let s := ghash h (padBlock aad ++ padBlock c ++ toBe (8 * aad.length) 8 ++ toBe (8 * c.length) 8)
  xorBytes (toBe s 16) (gcmPad key iv 1)

/-- AES-256-GCM: ciphertext and tag of a message. -/
def gcmSeal (key : Nat) (iv aad msg : List Nat) : List Nat × List Nat :=
  let c := gcmStream key iv msg
  (c, gcmTag key iv aad c)

/-- AES-256-GCM: the message of a ciphertext, none where the tag is not its own. -/
def gcmOpen (key : Nat) (iv aad c tag : List Nat) : Option (List Nat) :=
  if gcmTag key iv aad c == tag then some (gcmStream key iv c) else none

/-- Blocks of CTR_DRBG's output from a key and a counter V on (SP 800-90A, 10.2.1). -/
def drbgBlocks (key v n : Nat) : List Nat :=
  let ks := roundKeys key
  (List.range n).flatMap (fun i => aesBlock ks (toBe ((v + 1 + i) % 2 ^ 128) 16))

/-- CTR_DRBG_Update: the next key and V, from 384 provided bits. -/
def drbgUpdate (key v provided : Nat) : Nat × Nat :=
  let t := xorBytes (drbgBlocks key v 3) (toBytes provided 48)
  (ofBytes (t.take 32), beBytes (t.drop 32))

/-- A generate request for so many words of 32 bits, without additional input: the words, little-endian (R15), and the next key and V. -/
def drbgGenerate (key v words : Nat) : List Nat × Nat × Nat :=
  ((runsOf 4 (drbgBlocks key v (words / 4))).map ofBytes, drbgUpdate key ((v + words / 4) % 2 ^ 128) 0)

end Sys2Proof.Machine
end

