-- ==== Sys2Proof/Machine/Arith.lean ====
section
/-! DEFINITION. The arithmetic of the arrays and the edge unit: operand elements (R127 to R133), products and block sums (R135),
accumulation (R136 to R139), the edge functions with their bounds (R119), and residues (R144). -/

namespace Sys2Proof.Machine

/-- A row of elements as an array or an edge unit reads it: its format code, element codes, and one E8M0 scale per 32 elements in
an MX format (R126, R132). -/
structure ERow where
  fmt : Nat
  codes : List Nat
  scales : List Nat
deriving DecidableEq, Repr

/-- A two's-complement value of some bits as an exact number (R129). -/
def intNum (bits code : Nat) : Num :=
  let v := code % 2 ^ bits
  if v < 2 ^ (bits - 1) then .fin false v 0 else .fin true (2 ^ bits - v) 0

/-- The value of an element code without its block scale (R127 to R129). -/
def elemVal (fmt code : Nat) : Num :=
  match fmt with
  | 0x0 => fmtBf16.decode code
  | 0x1 => fmtE4m3.decode code
  | 0x2 => fmtE5m2.decode code
  | 0x3 => fmtE4m3.decode code
  | 0x4 => fmtE5m2.decode code
  | 0x5 => fmtE3m2.decode code
  | 0x6 => fmtE2m3.decode code
  | 0x7 => fmtE2m1.decode code
  | 0x8 => (match intNum 4 code with
      | .fin n m _ => .fin n m (-2)
      | x => x)
  | 0x9 => intNum 8 code
  | 0xA => intNum 4 code
  | 0xB => .fin (code % 2 == 0) 1 0
  | 0xC => fmtF32.decode code
  | 0xD => intNum 32 code
  | _ => .nan

/-- A value times 2^e. -/
def Num.scale (x : Num) (e : Int) : Num :=
  match x with
  | .fin n m k => .fin n m (k + e)
  | y => y

/-- An E8M0 scale: 2^(s - 127), NaN at 0xFF (R133). -/
def scaleNum (s : Nat) : Num := if s == 0xFF then .nan else .fin false 1 ((s : Int) - 127)

/-- Element i of a row; an MX element carries its block's scale (R133). -/
def ERow.at (r : ERow) (i : Nat) : Num :=
  let v := elemVal r.fmt ((r.codes[i]?).getD 0)
  if fmtIsMx r.fmt then v.mul (scaleNum ((r.scales[i / 32]?).getD 0xFF)) else v

/-- The elements of a row as FP32 values of the edge unit. -/
def ERow.f32 (r : ERow) : List F32 := (List.range r.codes.length).map (fun i => toF32 (r.at i))

/-- A list rearranged: the positions named first, in the order named, then the others as they stand. -/
def arrange {α : Type} (order : List Nat) (l : List α) : List α :=
  let os := (order.filter (fun i => decide (i < l.length))).eraseDups
  os.filterMap (fun i => l[i]?) ++ (l.zipIdx.filter (fun e => !os.contains e.2)).map (·.1)

/-- An FP32 accumulator takes an exact term: one rounding to nearest even, subnormal results flushed (R136, R137); a NaN stays (R138). -/
def accAdd (acc : F32) (x : Num) : F32 := flushF32 (toF32 ((ofF32 acc).add x))

/-- FP32 results of the edge unit: correctly rounded, subnormals flushed (R119, R137). -/
def eAdd (a b : F32) : F32 := flushF32 (f32Add a b)
def eSub (a b : F32) : F32 := flushF32 (f32Sub a b)
def eMul (a b : F32) : F32 := flushF32 (f32Mul a b)
def eFma (a b c : F32) : F32 := flushF32 (toF32 (((ofF32 a).mul (ofF32 b)).add (ofF32 c)))
def eMax (a b : F32) : F32 := if f32IsNan a || f32IsNan b then toF32 .nan else if f32Lt a b then b else a
def eMin (a b : F32) : F32 := if f32IsNan a || f32IsNan b then toF32 .nan else if f32Lt b a then b else a

/-- The row sum of the edge unit, accumulated in FP32 in the order the values arrive, and the exact row maximum (Table 04-2). -/
def rowSum (order : List Nat) (l : List F32) : F32 := (arrange order l).foldl eAdd 0#32
def rowMax (l : List F32) : F32 := l.foldl eMax f32NegInf

/-- The exact products of two rows over K elements (R135). -/
def products (a b : ERow) (lo n : Nat) : List Num :=
  (List.range' lo n).map (fun i => (elemVal a.fmt ((a.codes[i]?).getD 0)).mul (elemVal b.fmt ((b.codes[i]?).getD 0)))

/-- The scale of block j of an operand; an operand that is not MX counts as scale 127 (R135). -/
def blockScale (r : ERow) (j : Nat) : Nat := if fmtIsMx r.fmt then (r.scales[j]?).getD 0xFF else 127

/-- One MX block pair: 32 products summed exactly, then multiplied by 2^(sa + sb - 254) and rounded once into FP32 (R135, R137); a
NaN scale makes 32 NaN elements (R133). -/
def blockSum (a b : ERow) (j n : Nat) : Num :=
  let sa := blockScale a j
  let sb := blockScale b j
  if sa == 0xFF || sb == 0xFF then .nan
  else
    let s := (products a b (32 * j) n).foldl Num.add (.fin false 0 0)
    ofF32 (flushF32 (toF32 (s.scale ((sa : Int) + sb - 254))))

/-- What enters the accumulator of a column for a reduction of length k: one term per MX block pair, or one exact product per
element (R135). -/
def terms (a b : ERow) (k : Nat) : List Num :=
  if fmtIsMx a.fmt || fmtIsMx b.fmt then (List.range (cdiv k 32)).map (fun j => blockSum a b j (min 32 (k - 32 * j)))
  else products a b 0 k

/-- A floating reduction: the terms enter the accumulator in the order in which they arrive (R136, R140). -/
def dotF32 (order : List Nat) (a b : ERow) (k : Nat) : F32 := (arrange order (terms a b k)).foldl accAdd 0#32

/-- The exact integer of an element (R129). -/
def elemInt (fmt code : Nat) : Int :=
  let b := fmtBits fmt
  let v := code % 2 ^ b
  if v < 2 ^ (b - 1) then v else (v : Int) - 2 ^ b

/-- An integer reduction modulo 2^32 (R139). -/
def dotInt (a b : ERow) (k : Nat) : Nat :=
  (((List.range k).map (fun i => elemInt a.fmt ((a.codes[i]?).getD 0) * elemInt b.fmt ((b.codes[i]?).getD 0))).sum % 2 ^ 32).toNat

/-- A BIN reduction: the count of bit pairs that match, which is the sum of the +1 products (R129, R139). -/
def dotBin (a b : ERow) (k : Nat) : Nat :=
  ((List.range k).filter (fun i => (a.codes[i]?).getD 0 % 2 == (b.codes[i]?).getD 0 % 2)).length % 2 ^ 32

/-- A column result: FP32, or the bits of an INT32 (Table 04-8). -/
inductive ColVal where
  | f (w : F32)
  | i (v : Nat)
deriving DecidableEq, Repr

/-- The reduction of an operand pair in its accumulator (R134, Table 04-8). -/
def dot (order : List Nat) (a b : ERow) (k : Nat) : ColVal :=
  if a.fmt == 0xB then .i (dotBin a b k)
  else if a.fmt == 0x9 || a.fmt == 0xA then .i (dotInt a b k)
  else .f (dotF32 order a b k)

/-- An INT32 result as FP32, nearest even (R143). -/
def i32ToF32 (v : Nat) : F32 := toF32 (intNum 32 v)

/-- The FP32 value the edge unit starts from (R143). -/
def ColVal.f32 (c : ColVal) : F32 :=
  match c with
  | .f w => w
  | .i v => i32ToF32 v

/-- The accumulator's 32 bits. -/
def ColVal.bits (c : ColVal) : Nat :=
  match c with
  | .f w => w.toNat
  | .i v => v % 2 ^ 32

/-! Exact values of the edge functions to 64 bits and more. -/

/-- ln 2 times 2^192. -/
def ln2Q : Nat := 0xB17217F7D1CF79ABC9E3B39803F2F6AF40F343267298B62D

/-- The fixed-point fraction bits used for the functions. -/
def fxBits : Nat := 192

/-- floor(m * 2^(e + 192)) with its sign. -/
def toFx (neg : Bool) (m : Nat) (e : Int) : Int :=
  let k := e + fxBits
  let v : Nat := match k with
    | .ofNat n => m * 2 ^ n
    | .negSucc n => m / 2 ^ (n + 1)
  if neg then -(v : Int) else v

/-- The exponential series of r in fixed point, terms n down to 1. -/
def expSeries (r : Nat) : Nat → Nat → Nat
  | 0, acc => acc
  | n + 1, acc => expSeries r n (2 ^ fxBits + r * acc / ((n + 1) * 2 ^ fxBits))

/-- e^x of a finite value, or a power of two far outside FP32 where |x| is 256 or more. -/
def expNum (x : Num) : Num :=
  match x with
  | .fin neg m e =>
    if m != 0 && decide (8 ≤ (Nat.log2 m : Int) + e) then .fin false 1 (if neg then -2000 else 2000)
    else
      let v := toFx neg m e
      let k := v / (ln2Q : Int)
      let r := (v - k * ln2Q).toNat
      .fin false (expSeries r 60 (2 ^ fxBits)) (k - fxBits)
  | .inf neg => if neg then .fin false 0 0 else .inf false
  | .nan => .nan

/-- 2 * atanh(z) in fixed point: z + z^3/3 + ..., terms from index i on. -/
def atanhSeries (z2 : Nat) : Nat → Nat → Nat → Nat → Nat
  | 0, _, _, acc => acc
  | n + 1, i, p, acc => atanhSeries z2 n (i + 1) (p * z2 / 2 ^ fxBits) (acc + 2 * p / (2 * i + 1))

/-- ln of a positive finite value. -/
def lnNum (x : Num) : Num :=
  match x with
  | .fin false m e =>
    if m == 0 then .inf true
    else
      let l := Nat.log2 m
      let z := (m - 2 ^ l) * 2 ^ fxBits / (m + 2 ^ l)
      let f := atanhSeries (z * z / 2 ^ fxBits) 70 0 z 0
      let v : Int := (f : Int) + ((l : Int) + e) * ln2Q
      .fin (decide (v < 0)) v.natAbs (-(fxBits : Int))
  | .fin true m _ => if m == 0 then .inf true else .nan
  | .inf neg => if neg then .nan else .inf false
  | .nan => .nan

/-- The integer square root, bit by bit from bit n - 1 down. -/
def isqrt (v : Nat) : Nat → Nat → Nat
  | 0, r => r
  | n + 1, r => let c := r + 2 ^ n; isqrt v n (if c * c ≤ v then c else r)

/-- The square root of a value that is not negative. -/
def sqrtNum (x : Num) : Num :=
  match x with
  | .fin neg m e =>
    if m == 0 then .fin neg 0 0
    else if neg then .nan
    else
      let k := 160 + (if e % 2 == 0 then 0 else 1)
      .fin false (isqrt (m * 2 ^ k) ((Nat.log2 m + k) / 2 + 1) 0) ((e - k) / 2)
  | .inf neg => if neg then .nan else .inf false
  | .nan => .nan

def numOne : Num := .fin false 1 0

/-- 1 / (1 + e^-x). -/
def sigmoidNum (x : Num) : Num :=
  match x with
  | .inf true => .fin false 0 0
  | _ => numOne.div (numOne.add (expNum x.neg))

/-- GELU in its tanh form: x * sigmoid(2 * sqrt(2/pi) * (x + 0.044715 * x^3)) (log entry 57). -/
def geluNum (x : Num) : Num :=
  match x with
  | .inf neg => if neg then .fin false 0 0 else .inf false
  | _ =>
    let c := Num.fin false 0xCC42299EA1B284687E59E2805D5C717F (-127)
    let d := Num.fin false 0xB727136A400FBA8826AA8EB463497B7 (-128)
    x.mul (sigmoidNum (c.mul (x.add (d.mul (x.mul (x.mul x))))))

/-- The functions of Table 04-2. -/
inductive Fn where
  | exp | exp2 | log | log2 | recip | sqrt | rsqrt | sigmoid | silu | gelu
deriving DecidableEq, Repr

/-- The number of a function, for its free values. -/
def Fn.code : Fn → Nat
  | .exp => 0 | .exp2 => 1 | .log => 2 | .log2 => 3 | .recip => 4 | .sqrt => 5 | .rsqrt => 6 | .sigmoid => 7 | .silu => 8 | .gelu => 9

/-- The mathematical value of a function of Table 04-2, NaN where there is none. -/
def Fn.exact (f : Fn) (x : Num) : Num :=
  let ln2 : Num := .fin false ln2Q (-(fxBits : Int))
  match f with
  | .exp => expNum x
  | .exp2 => expNum (x.mul ln2)
  | .log => lnNum x
  | .log2 => (lnNum x).div ln2
  | .recip => numOne.div x
  | .sqrt => sqrtNum x
  | .rsqrt => numOne.div (sqrtNum x)
  | .sigmoid => sigmoidNum x
  | .silu => (match x with
      | .inf true => .fin true 0 0
      | _ => x.mul (sigmoidNum x))
  | .gelu => geluNum x

/-- The magnitude of a value. -/
def Num.abs (x : Num) : Num :=
  match x with
  | .fin _ m e => .fin false m e
  | .inf _ => .inf false
  | .nan => .nan

/-- A candidate lies within a function's bound of the exact value: relative 2^-21, for GELU absolute 2^-20 (Table 04-2). -/
def Fn.within (f : Fn) (y c : Num) : Bool :=
  let bound : Num := if f == .gelu then .fin false 1 (-20) else y.abs.scale (-21)
  match c with
  | .fin _ _ _ => !bound.lt ((c.add y.neg).abs)
  | _ => false

/-- An edge function of Table 04-2: NaN for NaN, else a free value within its bound of the exact one (R119; `n` names the free
value, log entry 56). A result outside FP32 is an infinity, and a subnormal one is flushed (R137). -/
def Fn.run (f : Fn) (n : Nat) (w : F32) : F32 :=
  let x := ofF32 w
  let y := f.exact x
  match y with
  | .fin _ _ _ => let c := Config.edgeValue n f.code w; flushF32 (if f.within y (ofF32 c) then c else toF32 y)
  | z => toF32 z

/-- The elementwise functions a kernel can name (Table 05-3, FUNC); a number it does not list leaves a free value (log entry 56). -/
def runFunc (func n : Nat) (w : F32) : F32 :=
  match func with
  | 0 => w
  | 1 => Fn.silu.run n w
  | 2 => Fn.gelu.run n w
  | 3 => Fn.sigmoid.run n w
  | 4 => Fn.exp.run n w
  | 5 => Fn.recip.run n w
  | 6 => Fn.rsqrt.run n w
  | k => Config.edgeValue n (16 + k) w

/-- The residue of a number: the end-around-carry sum of its bytes, which is the number modulo 255 (R144). -/
def residue (v : Nat) : Nat := v % 255

end Sys2Proof.Machine
end

