-- ==== Sys2Proof/Machine/Layout.lean ====
section
/-! DEFINITION. Elements in memory: bit strings (R130), MX block groups (R131, R132), weight tiles (R147), row-major tables (R158)
and KV page bodies with their CHECK (R192, R204). -/

namespace Sys2Proof.Machine

/-- Fields laid one after the other from bit 0 up, little-endian (R14, R15): (width in bits, value). -/
def pack : List (Nat × Nat) → Nat
  | [] => 0
  | (w, v) :: t => v % 2 ^ w + 2 ^ w * pack t

/-- The width of a packed structure in bits. -/
def packBits (l : List (Nat × Nat)) : Nat := (l.map (·.1)).sum

/-- The bytes of a packed structure. -/
def packBytes (l : List (Nat × Nat)) : List Nat := toBytes (pack l) (packBits l / 8)

/-- w bits of a bit string from bit `off` on. -/
def bitsAt (img off w : Nat) : Nat := (img >>> off) % 2 ^ w

/-- Element codes packed little-endian by bit (R130). -/
def packCodes (bits : Nat) (cs : List Nat) : Nat := pack (cs.map (fun c => (bits, c)))

/-- n elements of a format from a byte offset on (R130). -/
def codesAt (img off fmt n : Nat) : List Nat :=
  (List.range n).map (fun i => bitsAt img (8 * off + fmtBits fmt * i) (fmtBits fmt))

/-- Element bytes of one MX block, and the bytes of a full group (Table 04-7). -/
def runBytes (fmt : Nat) : Nat := 32 * fmtBits fmt / 8
def groupBytes (fmt : Nat) : Nat := 16 + 16 * runBytes fmt

/-- Block b of an MX tensor at a byte offset: its scale byte and its 32 elements (R131). -/
def mxBlockAt (img off fmt b : Nat) : Nat × List Nat :=
  let g := off + b / 16 * groupBytes fmt
  (bitsAt img (8 * (g + b % 16)) 8, codesAt img (g + 16 + b % 16 * runBytes fmt) fmt 32)

/-- Consecutive blocks of an MX tensor as one row. -/
def mxRowAt (img off fmt b n : Nat) : ERow :=
  let bs := (List.range' b n).map (mxBlockAt img off fmt)
  ⟨fmt, bs.flatMap (·.2), bs.map (·.1)⟩

/-- Column n of the weight tile at a byte offset: K elements (R147). A tile of a format without blocks holds its columns one after
the other, as the blocks of an MX tile lie (log entry 59). -/
def tileColumn (img off fmt tk n : Nat) : ERow :=
  if fmtIsMx fmt then mxRowAt img off fmt (n * (tk / 32)) (tk / 32)
  else ⟨fmt, (List.range tk).map (fun i => bitsAt img (8 * off + fmtBits fmt * (n * tk + i)) (fmtBits fmt)), []⟩

/-- Rows one after the other. -/
def ERow.append (a b : ERow) : ERow := ⟨a.fmt, a.codes ++ b.codes, a.scales ++ b.scales⟩

/-- The tile of column block nb and K tile kt: tiles lie in the order in which the strips take them (R149, log entry 59). -/
def tileOff (k : Kernel) (nb kt : Nat) : Nat :=
  (nb * (k.k / max 1 (tileK k.fmtS k.fmtT)) + kt) * tileBytes k.fmtS k.fmtT

/-- Column n of a kernel's weights, from the byte offset of its first tile on. -/
def weightColumn (img off : Nat) (k : Kernel) (n : Nat) : ERow :=
  let tk := tileK k.fmtS k.fmtT
  (List.range (k.k / max 1 tk)).foldl (fun r kt =>
    r.append (tileColumn img (off + tileOff k (n / 64) kt) k.fmtS tk (n % 64))) ⟨k.fmtS, [], []⟩

/-- Row r of a row-major table of a width at a byte offset (R130 to R132, R158). -/
def tableRow (img off fmt width r : Nat) : ERow :=
  if fmtIsMx fmt then mxRowAt img off fmt (r * (width / 32)) (width / 32)
  else ⟨fmt, (List.range width).map (fun i => bitsAt img (8 * off + fmtBits fmt * (r * width + i)) (fmtBits fmt)), []⟩

/-- The bytes of a row-major table of some rows (R131). -/
def tableBytes (fmt width rows : Nat) : Nat :=
  if fmtIsMx fmt then cdiv (rows * (width / 32)) 16 * 16 + rows * (width / 32) * runBytes fmt
  else cdiv (rows * width * fmtBits fmt) 8

/-- FP32 value i of a vector at a byte offset. -/
def f32At (img off i : Nat) : F32 := BitVec.ofNat 32 (bitsAt img (8 * off + 32 * i) 32)

/-- The blocks of a row: scale and elements. -/
def ERow.blocks (r : ERow) : List (Nat × List Nat) := r.scales.zipIdx.map (fun e => (e.1, (r.codes.drop (32 * e.2)).take 32))

/-- Block groups in memory: 16 scale bytes, unused ones zero, then the elements of the blocks that exist (R131). -/
def groupFields (fmt : Nat) (bs : List (Nat × List Nat)) : List (Nat × Nat) :=
  (chunks 16 (bs.length / 16 + 1) bs).flatMap (fun g =>
    (List.range 16).map (fun i => (8, ((g[i]?).map (·.1)).getD 0)) ++ g.flatMap (fun b => b.2.map (fun c => (fmtBits fmt, c))))

/-- A tensor of rows in memory, row-major, blocks in order of K within a row (R130 to R132). -/
def tensorFields (fmt : Nat) (rows : List ERow) : List (Nat × Nat) :=
  if fmtIsMx fmt then groupFields fmt (rows.flatMap ERow.blocks) else rows.flatMap (fun r => r.codes.map (fun c => (fmtBits fmt, c)))

/-- The K row and the V row of a position. -/
def kRow (fmt : Nat) (r : KvRow) : ERow := ⟨fmt, r.k, r.ks⟩
def vRow (fmt : Nat) (r : KvRow) : ERow := ⟨fmt, r.v, r.vs⟩

/-- A KV page body: the K part, then the V part (Table 06-2). -/
def bodyFields (fmt : Nat) (rows : List KvRow) : List (Nat × Nat) :=
  tensorFields fmt (rows.map (kRow fmt)) ++ tensorFields fmt (rows.map (vRow fmt))

/-- CHECK: CRC-32C over the body's bytes (R204). -/
def bodyCheck (fmt : Nat) (rows : List KvRow) : Nat := crc32c (packBytes (bodyFields fmt rows))

/-- The sign bits of CS1600-KV-SKETCH: SHAKE128 of its 16 ASCII bytes, bit n of byte n div 8 (R202). -/
def sketchBits : Nat := shake128 (ascii "CS1600-KV-SKETCH") 32768

/-- r(j, c) is +1 where this bit is 1 (R202). -/
def sketchSign (n : Nat) : Bool := bit sketchBits n

end Sys2Proof.Machine
end

