-- ==== Sys2Proof/Machine/Ctr.lean ====
section
/-! DEFINITION. Where each 64-bit counter lies in the holding regions (R446, Tables 15-11 and 15-12): a counter is named by
the aperture offset of its slot, and the live counters are kept under the same numbers. -/

namespace Sys2Proof.Machine.Ctr

/-- The offset of slot i of a block. -/
def slot (base i : Nat) : Nat := base + 8 * i

-- Table 02-11, polder rows (0x1040); a tier pair is 0 Crest-Berm, 1 Berm-Toe, 2 Crest-Toe.
def migPromote (pair : Nat) : Nat := slot 0x1040 pair
def migDemote (pair : Nat) : Nat := slot 0x1040 (3 + pair)
def migAbandon : Nat := slot 0x1040 6
def migCancel : Nat := slot 0x1040 7
def promoteDenied : Nat := slot 0x1040 8
def captureStallNs : Nat := slot 0x1040 9
def quotaRefused (tier : Nat) : Nat := slot 0x1040 (10 + tier)
def cleanRecover : Nat := slot 0x1040 13
def pagesLost : Nat := slot 0x1040 14
-- Table 02-11, module rows (0x8040).
def reconReads (ch : Nat) : Nat := slot 0x8040 ch
def readRetry (ch : Nat) : Nat := slot 0x8040 (32 + ch)
def rdReloc (ch : Nat) : Nat := slot 0x8040 (64 + ch)
def retReloc (ch : Nat) : Nat := slot 0x8040 (96 + ch)
def grownBad (ch : Nat) : Nat := slot 0x8040 (128 + ch)
def shortRows : Nat := slot 0x8040 160
def reclaimWait (ch : Nat) : Nat := slot 0x8040 (161 + ch)
def wearEvents (ch : Nat) : Nat := slot 0x8040 (193 + ch)
def wearPct (ch : Nat) : Nat := slot 0x8040 (225 + ch)
-- Table 03-14, polder rows (0x10C0) and module rows (0x8880).
def sessOpened : Nat := slot 0x10C0 0
def sessRetired : Nat := slot 0x10C0 1
def descHit : Nat := slot 0x10C0 2
def descMiss : Nat := slot 0x10C0 3
def staleEpochCnt : Nat := slot 0x10C0 4
def handoffCommit : Nat := slot 0x10C0 5
def handoffLost : Nat := slot 0x10C0 6
def ownerRecovered : Nat := slot 0x10C0 7
def superseded : Nat := slot 0x10C0 8
def takeoverAdopted : Nat := slot 0x10C0 9
def adoptSkipped : Nat := slot 0x10C0 10
def epochTie : Nat := slot 0x8880 0
def journalRecords : Nat := slot 0x8880 1
def journalLagMaxUs : Nat := slot 0x8880 2
def buddyDownMs : Nat := slot 0x8880 3
def dirRefetch : Nat := slot 0x8880 4
-- Table 04-13: array rows (0x88C0), polder rows (0x1140).
def arrHs (a : Nat) : Nat := slot 0x88C0 a
def paceKhz (a : Nat) : Nat := slot 0x88C0 (256 + a)
def resFault (a : Nat) : Nat := slot 0x88C0 (512 + a)
def resRetryOk (a : Nat) : Nat := slot 0x88C0 (768 + a)
def hsStall (a : Nat) : Nat := slot 0x88C0 (1024 + a)
def polPaceKhz : Nat := slot 0x1140 0
def outSatCnt : Nat := slot 0x1140 1
def outNan : Nat := slot 0x1140 2
def pumpBytes : Nat := slot 0x1140 3
def pumpWaitNs : Nat := slot 0x1140 4
def actSpillBytes : Nat := slot 0x1140 5
-- Table 05-10 (0x1180).
def passes (s : Nat) : Nat := slot 0x1180 s
def passRows (s : Nat) : Nat := slot 0x1180 (32 + s)
def jobPasses : Nat := slot 0x1180 64
def krnItems : Nat := slot 0x1180 65
def lcStrips : Nat := slot 0x1180 66
def beStrips : Nat := slot 0x1180 67
def beWithdrawn : Nat := slot 0x1180 68
def lcWaitNs : Nat := slot 0x1180 69
def actDefer : Nat := slot 0x1180 70
def recomputeStrips : Nat := slot 0x1180 71
def modelCacheHit (s : Nat) : Nat := slot 0x1180 (72 + s)
def modelCacheDrop : Nat := slot 0x1180 104
-- Table 06-8 (0x1500).
def kvPagesOpened : Nat := slot 0x1500 0
def kvPagesFull : Nat := slot 0x1500 1
def kvQuota : Nat := slot 0x1500 2
def kvCtxLimit : Nat := slot 0x1500 3
def sketches : Nat := slot 0x1500 4
def recallSelect : Nat := slot 0x1500 5
def recallLate : Nat := slot 0x1500 6
def recallQuota : Nat := slot 0x1500 7
def recallShortSteps : Nat := slot 0x1500 8
def recallCold : Nat := slot 0x1500 9
def kvBodyBytes : Nat := slot 0x1500 10
def kvCheckFail : Nat := slot 0x1500 11
-- Table 07-12, polder rows (0x1580), module row (0xB0C0).
def genRequests : Nat := slot 0x1580 0
def tokensOut : Nat := slot 0x1580 1
def samplerRows : Nat := slot 0x1580 2
def specSteps : Nat := slot 0x1580 3
def specDrafted : Nat := slot 0x1580 4
def specAccepted : Nat := slot 0x1580 5
def forcedPasses : Nat := slot 0x1580 6
def stopMatches : Nat := slot 0x1580 7
def tokringWait : Nat := slot 0x1580 8
def maskWait : Nat := slot 0x1580 9
def ringIrq : Nat := slot 0x1580 10
def drbgReseed : Nat := slot 0x1580 11
def importPages : Nat := slot 0x1580 12
def importBytes : Nat := slot 0x1580 13
def importReject : Nat := slot 0x1580 14
def entropyFail : Nat := slot 0xB0C0 0
-- Table 08-12: polder rows (0x1600), module rows (0xB100).
def vecQueries : Nat := slot 0x1600 0
def vecPartial : Nat := slot 0x1600 1
def vecExhausted : Nat := slot 0x1600 2
def vecDeadline : Nat := slot 0x1600 3
def visits : Nat := slot 0x1600 4
def visitQueries : Nat := slot 0x1600 5
def scanRecords : Nat := slot 0x1600 6
def filterPass : Nat := slot 0x1600 7
def rerankVectors : Nat := slot 0x1600 8
def vecInserted : Nat := slot 0x1600 9
def vecDeleted : Nat := slot 0x1600 10
def deleteMiss : Nat := slot 0x1600 11
def segSealed : Nat := slot 0x1600 12
def sealQuota : Nat := slot 0x1600 13
def compactions : Nat := slot 0x1600 14
def compactBytes : Nat := slot 0x1600 15
def scanBytes (ch : Nat) : Nat := slot 0xB100 ch
def itemsLive : Nat := slot 0xB100 32
-- Table 09-11 (0x1680).
def ckptCommitted : Nat := slot 0x1680 0
def ckptAbandoned : Nat := slot 0x1680 1
def ckptBases : Nat := slot 0x1680 2
def ckptReadBytes : Nat := slot 0x1680 3
def ckptChunkBytes : Nat := slot 0x1680 4
def ckptDedupBytes : Nat := slot 0x1680 5
def ckptCaptures : Nat := slot 0x1680 6
def replCommitted : Nat := slot 0x1680 7
def replFailed : Nat := slot 0x1680 8
def replShippedBytes : Nat := slot 0x1680 9
def ckptRestores : Nat := slot 0x1680 10
def ckptLost : Nat := slot 0x1680 11
def storeBytes : Nat := slot 0x1680 12
-- Table 10-8: polder rows (0x1700, pc = 2 * POINT + CLASS), port rows (0xB240).
def polGreen (pc : Nat) : Nat := slot 0x1700 pc
def polYellow (pc : Nat) : Nat := slot 0x1700 (6 + pc)
def polRed (pc : Nat) : Nat := slot 0x1700 (12 + pc)
def polHoldNs (pc : Nat) : Nat := slot 0x1700 (18 + pc)
def polRefused : Nat := slot 0x1700 24
def egrDrop (port : Nat) : Nat := slot 0x1700 (25 + port)
def ingDrop (port : Nat) : Nat := slot 0x1700 (29 + port)
def wfqServed (arb : Nat) : Nat := slot 0x1700 (33 + arb)
def guardHold (port tc : Nat) : Nat := slot 0xB240 (8 * port + tc)
def sluChanges (port : Nat) : Nat := slot 0xB240 (32 + port)
def sluReplaced (port : Nat) : Nat := slot 0xB240 (36 + port)
def sluRestart (port : Nat) : Nat := slot 0xB240 (40 + port)
def discardFence (port : Nat) : Nat := slot 0xB240 (44 + port)
-- Table 11-13: polder and ring rows (0x1880), module rows (0xB3C0), exact energy block (0xC800).
def energyNj : Nat := slot 0x1880 0
def energyBgNj : Nat := slot 0x1880 1
def ringEnergyNj (sq : Nat) : Nat := slot 0x1880 (2 + sq)
def pwrGateNs : Nat := slot 0x1880 18
def memHoldNs (tier : Nat) : Nat := slot 0x1880 (19 + tier)
def linkHoldNs (port : Nat) : Nat := slot 0x1880 (22 + port)
def vcoreMv : Nat := slot 0x1880 27
def energyUnattribNj : Nat := slot 0xB3C0 0
def pwrFallbackN : Nat := slot 0xB3C0 1
def pwrFallbackMs : Nat := slot 0xB3C0 2
def pwrClampMs : Nat := slot 0xB3C0 3
def pwrOverCapMs : Nat := slot 0xB3C0 4
def thermSoftMs : Nat := slot 0xB3C0 5
def thermBerm (d : Nat) : Nat := slot 0xB3C0 (6 + d)
def pwrLentMs : Nat := slot 0xB3C0 22
def pwrBorrowedMs : Nat := slot 0xB3C0 23
def tjMaxC : Nat := slot 0xB3C0 24
def exactEnergy (p i : Nat) : Nat := slot 0xC800 (18 * p + i)
-- Table 12-10: polder rows (0x1980), module rows (0xB4C0).
def keyRotations : Nat := slot 0x1980 0
def keyRetired : Nat := slot 0x1980 1
def sweepPages : Nat := slot 0x1980 2
def sweepRetry : Nat := slot 0x1980 3
def bbSetup : Nat := slot 0x1980 4
def bbSetupFail : Nat := slot 0x1980 5
def bbAuthFail : Nat := slot 0x1980 6
def tkEstablished : Nat := slot 0x1980 7
def tkRefused : Nat := slot 0x1980 8
def quotes : Nat := slot 0xB4C0 0
def notAttestableCnt : Nat := slot 0xB4C0 1
def pvRefused : Nat := slot 0xB4C0 2
def bootSlotFail : Nat := slot 0xB4C0 3
-- Table 13-13: module rows (0xB500), POLDER_FENCES (0x1A00); an ECC unit is 0 Crest, 1 Berm, 2 Toe, 3 + a store a.
def faultRecords : Nat := slot 0xB500 0
def logOverwritten : Nat := slot 0xB500 1
def eccCorr (u : Nat) : Nat := slot 0xB500 (2 + u)
def eccUncorr (u : Nat) : Nat := slot 0xB500 (261 + u)
def crestScrubPasses : Nat := slot 0xB500 520
def lockstepMismatch (pair : Nat) : Nat := slot 0xB500 (521 + pair)
def dupMismatch (ty : Nat) : Nat := slot 0xB500 (525 + ty)
def trCorrected : Nat := slot 0xB500 557
def phaseFaults : Nat := slot 0xB500 558
def unitsFenced (ty : Nat) : Nat := slot 0xB500 (559 + ty)
def seals : Nat := slot 0xB500 591
def warmResets : Nat := slot 0xB500 592
def wedgedMs : Nat := slot 0xB500 593
def polderFences : Nat := slot 0x1A00 0
-- Table 14-16 (0x1A40), management mailbox (0xC7C0).
def cmdTaken (sq : Nat) : Nat := slot 0x1A40 sq
def cmdDone (cq : Nat) : Nat := slot 0x1A40 (16 + cq)
def cmdStatus (st : Nat) : Nat := slot 0x1A40 (32 + st)
def tagDup : Nat := slot 0x1A40 49
def shareWaitNs : Nat := slot 0x1A40 50
def cqWaitNs : Nat := slot 0x1A40 51
def dblErr : Nat := slot 0x1A40 52
def ringConfDrop : Nat := slot 0x1A40 53
def events : Nat := slot 0x1A40 54
def eventLost : Nat := slot 0x1A40 55
def cqIrq (cq : Nat) : Nat := slot 0x1A40 (56 + cq)
def polMbxCmds : Nat := slot 0x1A40 72
def mbxCmds : Nat := slot 0xC7C0 0

end Sys2Proof.Machine.Ctr
end

