-- ==== Sys2Proof/Machine/PolTypes.lean ====
section
/-! DEFINITION. The parts of a polder's state: pages and dikes (chapter 02), sessions (03), model slots, strips and passes
(05), KV maps (06), requests and sampler (07), rings, mailboxes and their commands in flight (14). -/

namespace Sys2Proof.Machine

/-- Page states (Table 02-4); UNMAPPED is the absence of an entry. -/
inductive PState where
  | zero | resident | promoting | demoting | lost
deriving DecidableEq, Repr

/-- What a session page holds (R193 to R197, R226). -/
inductive SessRole where
  | root | sampler | feature | kvMap | coarse | sketch
  /-- A body page of a layer-group: the bodies of pages base * BPP onwards (R196). -/
  | body (lg base : Nat)
deriving DecidableEq, Repr

/-- The object a page was taken for; only `mapped` pages answer to the memory commands (R196, R422). -/
inductive Owner where
  /-- Mapped by MEM_MAP. -/
  | mapped
  /-- A session's page, by its directory INDEX. -/
  | sess (idx : Nat) (role : SessRole)
  /-- A model slot's Berm image. -/
  | weights (slot : Nat)
  /-- A model slot's Crest image. -/
  | crestImage (slot : Nat)
  /-- A vector index object: a sealed segment, table or log of an index. -/
  | index (id obj : Nat)
  /-- A rerank slab of a vector index in Berm. -/
  | rerank (id : Nat)
  /-- A checkpoint store's chunk or record. -/
  | store (obj : Nat)
deriving DecidableEq, Repr

/-- A page entry (Table 02-3) with the object it belongs to, its contents as a number, the WGEN sampled, the blocks
copied and the pre-images captured by a copy in progress (R53, R54), the page whose promotion waits for this page's copy down (R47), and
the key epochs of its image and of its clean copy in full (R44, R363). -/
structure Page where
  tier : Tier
  frame : Nat
  st : PState
  pin : Bool
  pinTier : Tier
  home : Bool
  keyEpoch : Nat
  oEpoch : Nat
  heat : Nat
  cls : Cls
  dirty : Bool
  oTier : Tier
  other : Nat
  cool : Nat
  wgen : Nat
  owner : Owner
  body : Nat
  sample : Nat
  copied : Nat
  pre : SMap Nat
  forPage : Option Nat
deriving DecidableEq, Repr

/-- A dike record (Table 02-6). -/
structure Dike where
  ceil : Nat
  lcReserve : Nat
  pinMax : Nat
  heatPromote : Nat
  coolEn : Bool
  direct : Bool
  coolMs : Nat
deriving DecidableEq, Repr

/-- The geometry of a session's KV pages (Tables 06-1 to 06-3). -/
structure Geo where
  layers : Nat
  groups : Nat
  fmt : Nat
  w : Nat
  bpp : Nat
  bodyBytes : Nat
deriving DecidableEq, Repr

/-- A KV page descriptor (Table 06-4) with the rows of its body, written rows beyond FILL included (R198). -/
structure KvPage where
  body : Nat
  firstPos : Nat
  fill : Nat
  family : Bool
  sketched : Bool
  fmt : Nat
  layer : Nat
  group : Nat
  check : Nat
  commitStep : Nat
  rows : SMap KvRow
deriving DecidableEq, Repr

/-- A settings change that waits for the step boundary (R228, R236). -/
inductive Setting where
  | spec (mode : Nat) (greedy : Bool) (len nodes : Nat) (parents : List Nat)
  | samp (pr : SampParams) (bulk : Option Bulk)
deriving DecidableEq, Repr

/-- The contents of a session behind its state root (R193, R226) and what the module keeps of its work. -/
structure Sess where
  geo : Geo
  rootPg : Nat
  sampPg : Nat
  featPg : Nat
  featN : Nat
  sketchPg : Nat
  sketchN : Nat
  coarsePg : Nat
  coarseN : Nat
  mapPgs : SMap Nat
  tablePgs : SMap Nat
  kv : SMap KvPage
  sketch : SMap Nat
  blockSk : SMap Nat
  querySk : SMap Nat
  qsValid : Bool
  blocks : Nat
  gen : Gen
  samp : SampPage
  settings : List Setting
  reviving : Bool
  revPaused : Bool
  replay : List (Nat × List Nat)
deriving DecidableEq, Repr

/-- A provisional import (R103, R107): the offer it came from, its pages, the commands bound to it, and the session-space
pages that hold it. -/
structure Import where
  sid : Nat
  h : Nat
  srcMod : Nat
  srcPol : Nat
  arrived : Nat
  leaseMs : Nat
  guardMs : Nat
  expected : Nat
  slot : Nat
  cls : Cls
  sparse : Bool
  ctxMax : Nat
  bound : Option Nat
  prefill : Option Nat
  preTok : Nat
  preSeq : Nat
  preHist : List Nat
  hadPrior : Bool
  prior : Desc
  idx : Nat
  pages : List PageMsg
  rootSeen : Bool
  expectedCmd : Nat
  last : Option Nat
  committing : Bool
deriving DecidableEq, Repr

/-- Why a session command waits for the session's step boundary (R31, R116). -/
inductive Boundary where
  | park | retire | fork | move | handoff | stop | ckpt | restore
deriving DecidableEq, Repr

/-- A session command that takes effect at the next step boundary: its tag and session. -/
structure Wait where
  tag : Nat
  idx : Nat
  what : Boundary
deriving DecidableEq, Repr

/-- A model slot (R155, R161 to R164): its manifest, the bytes of its weights image as a little-endian number, WEIGHT_AHEAD, and
its Crest image: pinned, the start of the slot's last pass, the MODEL_EVICT that waits to drop it, marked to drop at the step boundary,
and `closing` once that boundary is behind it and passes formed before still stage from it (R166). -/
structure Slot where
  man : Manifest
  img : Nat
  ahead : Nat
  crest : Bool
  pinned : Bool
  lastPass : Nat
  evictCrest : Option Nat
  dropAtBoundary : Bool
  closing : Bool
deriving DecidableEq, Repr

/-- A MODEL_LOAD or MODEL_PIN that waits until another slot's Crest image is dropped at its step boundary (R163, R187). -/
structure ModelWait where
  tag : Nat
  slot : Nat
  pin : Bool
  load : Bool
deriving DecidableEq, Repr

/-- One strip: the pass or job pass it belongs to, the level (draft depth levels, then the target), the kernel instance in
program order, and its index within the kernel (Table 05-6). A selection strip has its own kind (R212). -/
structure StripKey where
  pass : Nat
  level : Nat
  inst : Nat
  idx : Nat
  select : Bool
deriving DecidableEq, Repr

/-- Part of a row of an activation tensor, as one strip wrote it (R151): the level and kernel instance that wrote it, its node (a row of
a job), its column block, the array whose activation store holds it, none for Crest (R152, R177), the elements in the format written,
and the residue that travels with them (R144). -/
structure Act where
  level : Nat
  inst : Nat
  node : Nat
  blk : Nat
  arr : Option Nat
  fmt : Nat
  codes : List Nat
  scales : List Nat
  res : Nat
deriving DecidableEq, Repr

/-- A sequence of a pass: its rows (node 0 holds the pending token, `parents` gives the parents of the others), the layer
it enters at, its draft tokens and their distributions, the LOGITS values by level, node and column block, its activations,
the pages chosen for recall by layer-group with those left out, and how it left the pass. -/
structure PassSeq where
  sess : Nat
  req : Nat
  parents : List Nat
  entry : Nat
  held : Option Nat
  toks : List (Option Nat)
  qdist : List (Nat × List (Nat × F32))
  logits : List (Nat × Nat × Nat × List F32)
  acts : List Act
  sel : SMap (List Nat)
  late : List (Nat × Nat)
  mask : Option Nat
  short : Bool
  cold : Bool
  ended : Option Nat
deriving DecidableEq, Repr

/-- The strips of a pass of vector queries: the TAGs served, for a coarse ranking the index, handshakes a strip, and their number (R275,
R282). -/
structure VecPass where
  tags : List Nat
  index : Option Nat
  hs : Nat
  n : Nat
deriving DecidableEq, Repr

/-- A pass of a slot (R178), or a job pass (R186): its formation instant, class, job identifier, sequences or items, the
draft levels before the target and the level in hand, the strips finished with the array that ran each, the strips placed,
when each waiting strip was first ready, its activation claim: bytes in activation regions and Crest frames (R181), the
activations of a job's rows, and for the strips of a vector query its TAG, the handshakes of one strip and their number (R275, R282). -/
structure Pass where
  id : Nat
  slot : Nat
  start : Nat
  lc : Bool
  jobId : Nat
  job : Option Nat
  first : Nat
  items : Nat
  seqs : List PassSeq
  level : Nat
  levels : Nat
  done : List (StripKey × Nat)
  placed : List StripKey
  since : List (StripKey × Nat)
  region : Nat
  claim : Nat
  fromCrest : Bool
  acts : List Act
  deadlineDone : Bool
  vec : Option VecPass
deriving DecidableEq, Repr

/-- A sampler unit's CTR_DRBG (R241): its key and V, the words left of the last generate request, and requests since the last reseed. -/
structure Drbg where
  key : Nat
  v : Nat
  words : List Nat
  reqs : Nat
deriving DecidableEq, Repr

/-- Not instantiated, a reseed due. -/
def Drbg.blank : Drbg := { key := 0, v := 0, words := [], reqs := 2 ^ 20 }

/-- The resources of an array (Table 04-1): its two strip slots (R172), the pass in which it last stalled (R146), the weight tiles staged
in its activation store with the strip each belongs to and its number among the strip's tiles (R148, R149), the tile in its weight
registers, its column accumulators and its edge lanes as the last row left them, as bits. -/
structure ArrSlots where
  run : Option StripKey
  nxt : Option StripKey
  stalled : Option Nat
  staged : List (StripKey × Nat)
  wreg : Nat
  acc : List Nat
  edge : List Nat
deriving DecidableEq, Repr

/-- An array with nothing in its slots. -/
def ArrSlots.blank : ArrSlots := { run := none, nxt := none, stalled := none, staged := [], wreg := 0, acc := [], edge := [] }

/-- A token-ring entry decided by a step (Table 07-8). -/
structure TokEntry where
  tok : Nat
  seq : Nat
  lpValid : Bool
  draft : Bool
  eos : Bool
  stop : Bool
  last : Bool
  short : Bool
  first : Bool
  phase : Bool
  logprob : Nat
  step : Nat
deriving DecidableEq, Repr

/-- A decode request: one GEN_STEP (R222 to R224, R243 to R245). -/
structure Req where
  tag : Nat
  idx : Nat
  maxTok : Nat
  ring : Nat
  order : Nat
  maskStep : Bool
  noSpec : Bool
  modCount : Nat
  modUs : Nat
  vector : Nat
  maskHost : Nat
  running : Bool
  inPass : Bool
  heldLayer : Option Nat
  heldImport : Bool
  emitted : Nat
  accepted : Nat
  toks : List Nat
  prod : Nat
  unsig : Nat
  oldest : Nat
  short : Bool
  ending : Option (Nat × Nat × Nat)
deriving DecidableEq, Repr

/-- A step whose tokens wait for the STEP record's acknowledgement (R111, R243). -/
structure Release where
  jseq : Nat
  req : Nat
  entries : List TokEntry
deriving DecidableEq, Repr

/-- A KRN_SUBMIT job (R184 to R186). -/
structure Job where
  tag : Nat
  slot : Nat
  lc : Bool
  draft : Bool
  items : Nat
  itemTokens : Nat
  done : Nat
  outSsa : Nat
  rowBytes : Nat
  stopping : Bool
  stopTags : List Nat
  out : List (Nat × List Nat)
deriving DecidableEq, Repr

/-- A submission ring (Table 14-9), the COUNTER of its last accepted sealed slot (R372), and what its head entry waits for: the
engine share, a completion slot, or the CMD policer with the refill of its last test, that policer's number and whether it was coloured red. -/
structure Sq where
  base : Nat
  order : Nat
  cq : Nat
  en : Bool
  tail : Nat
  head : Nat
  lastCtr : Nat
  shareSince : Option Nat
  cqSince : Option Nat
  held : Option Nat
  heldAt : Nat
  heldIdx : Nat
  red : Bool
deriving DecidableEq, Repr

/-- A completion ring (Table 14-9), its posted count and the entries not yet signalled (R426). -/
structure Cq where
  base : Nat
  order : Nat
  vector : Nat
  modCount : Nat
  modUs : Nat
  en : Bool
  head : Nat
  posted : Nat
  inflight : Nat
  unsig : Nat
  oldest : Nat
deriving DecidableEq, Repr

/-- A command taken from a ring and not yet completed. `started` is set when its own row has applied it (R419). `ctr` is the COUNTER of its sealed
slot and `ctrBefore` that of the slot before it on its ring, both 0 in a polder that is not sealed (R372). -/
structure Taken where
  tag : Nat
  job : Nat
  sq : Nat
  cq : Nat
  opcode : Nat
  entry : Block
  engine : Bool
  after : Bool
  started : Bool
  sess : Option Nat
  ctr : Nat := 0
  ctrBefore : Nat := 0
deriving DecidableEq, Repr

/-- An event that waits for a free slot of completion ring 0 (R423). -/
structure Event where
  code : Nat
  handle : Nat
  sid : Nat
  epoch : Nat
  life : Nat
  other : Nat
deriving DecidableEq, Repr

/-- A mailbox (Tables 14-1, 14-2): CMD and ARG registers, the command accepted at GO and its result. -/
structure Mbx where
  cmd : Nat
  arg : Block
  busy : Bool
  done : Bool
  status : Nat
  tag : Nat
  dropped : Nat
  res : Block
  runCmd : Nat
  runArg : Block
  runPriv : Priv
  started : Bool
deriving DecidableEq, Repr

def Mbx.blank : Mbx :=
  { cmd := 0, arg := 0, busy := false, done := false, status := 0, tag := 0, dropped := 0, res := 0, runCmd := 0,
    runArg := 0, runPriv := .user, started := false }

/-- An item of a vector list (Table 08-4). -/
structure VItem where
  serial : Nat
  rslot : Option Nat
  r : VRec
deriving DecidableEq, Repr

/-- A segment (R258): the page that holds it and its records in serial order. -/
structure VSeg where
  page : Nat
  recs : List VItem
  segVer : Nat
deriving DecidableEq, Repr

/-- A tombstone range (R263). -/
structure VTomb where
  first : Nat
  count : Nat
  ver : Nat
deriving DecidableEq, Repr

/-- What an update of a list does (R261). -/
inductive VKind where
  | ins | del | build | drop | compact
deriving DecidableEq, Repr

/-- An update of a list that has not committed (R261): the Toe units it waits for, its serials, and a build's segments. -/
structure VUpd where
  tag : Option Nat
  kind : VKind
  units : List Nat
  first : Nat
  count : Nat
  segs : List VSeg
deriving DecidableEq, Repr

/-- A compaction in progress (R266): its snapshot, the first serial it leaves out, its segments and the Toe units it waits
for, the rerank slots of the items it drops, and whether a command asked for it. -/
structure VCompact where
  tag : Option Nat
  ver : Nat
  bound : Nat
  segs : List VSeg
  units : List Nat
  slots : List Nat
  removed : Nat
deriving DecidableEq, Repr

/-- A seal in progress (R265): the tail segment's page, the sealed segment's page and its Toe unit. -/
structure VSeal where
  tail : Nat
  page : Nat
  unit : Nat
deriving DecidableEq, Repr

/-- A list (R256, R261): LIST_VER, NEXT_SERIAL, sealed and tail segments, the tail's committed count, tombstones with their
page, updates in arrival order, and the compaction and seals in progress. -/
structure VList where
  ver : Nat
  next : Nat
  sealed : List VSeg
  tail : List VSeg
  committed : Nat
  tombs : List VTomb
  tombPage : Option Nat
  upds : List VUpd
  compact : Option VCompact
  seals : List VSeal
deriving DecidableEq, Repr

def VList.empty : VList :=
  { ver := 0, next := 0, sealed := [], tail := [], committed := 0, tombs := [], tombPage := none, upds := [], compact := none,
    seals := [] }

/-- An entry of the index log (Table 08-3): its list, the serials of an insert, the version it raised, and its bytes. -/
structure VLog where
  list : Nat
  insert : Bool
  last : Nat
  ver : Nat
  bytes : Nat
deriving DecidableEq, Repr

/-- Pages and rerank slots a commit replaced, with the visits in flight whose snapshot references them (R268). -/
structure VOld where
  pages : List Nat
  slots : List Nat
  visits : List Nat
deriving DecidableEq, Repr

/-- A VEC_COMPACT command: the lists it still waits for, segments and items so far (R260, R266). -/
structure VAll where
  tag : Nat
  lists : List Nat
  one : Bool
  segs : Nat
  removed : Nat
deriving DecidableEq, Repr

/-- A vector index (R252 to R256): definition, centroids, lists, rerank slots taken with their vectors, first pages of the
centroid table, the list table and the rerank region, the index log, what waits for visits, and a DROP_INDEX. -/
structure VIndex where
  d : VDef
  cents : List Nat
  lists : SMap VList
  rr : SMap (List Nat)
  centPg : Nat
  listPg : Nat
  rrPg : Nat
  log : List VLog
  old : List VOld
  alls : List VAll
  dropping : Option Nat
  rebuilt : Bool
deriving DecidableEq, Repr

/-- A candidate or result of a query (R278, Table 08-10). -/
structure VHit where
  dist : Nat
  list : Nat
  serial : Nat
  id : Nat
  rslot : Option Nat
deriving DecidableEq, Repr

/-- Where a query stands (Table 08-9). -/
inductive VPhase where
  | coarse | visiting | rerank
deriving DecidableEq, Repr

/-- A VEC_QUERY in progress (R270 to R283): its fields, its ranking, the lists of the round it is queued on or that visit
it, those of the round that were visited, and its heap, count and flags. -/
structure VQuery where
  tag : Nat
  index : Nat
  lc : Bool
  filter : Option VFilter
  rerank : Bool
  topK : Nat
  nprobe : Nat
  maxProbe : Nat
  maxDist : Nat
  rerankN : Nat
  t0 : Nat
  deadline : Option Nat
  rbuf : Nat
  blk : VBlock
  phase : VPhase
  rank : List Nat
  probed : Nat
  queued : List Nat
  inVisit : List Nat
  started : Bool
  heap : List VHit
  found : Nat
  exhausted : Bool
  late : Bool
  unvisited : Bool
  skip : Bool
  scores : List (Nat × F32)
deriving DecidableEq, Repr

/-- A visit in flight with its snapshot (R264, R276). -/
structure VVisit where
  id : Nat
  index : Nat
  list : Nat
  lc : Bool
  queries : List Nat
  ver : Nat
  segs : List VSeg
  tail : List VSeg
  committed : Nat
  tombs : List VTomb
deriving DecidableEq, Repr

/-- A polder's vector search: its indexes, queries, list queues by index * 2^22 + list with the instant each query joined, and
visits in flight. -/
structure Vec where
  idx : SMap VIndex
  queries : List VQuery
  queues : SMap (List (Nat × Nat))
  visits : List VVisit
  next : Nat
deriving DecidableEq, Repr

def Vec.empty : Vec := { idx := [], queries := [], queues := [], visits := [], next := 0 }

/-- A copy of the key sweep in progress (R366): the page, its new frame in the same tier, and the WGEN sampled. -/
structure SweepCopy where
  page : Nat
  frame : Nat
  tier : Tier
  sample : Nat
deriving DecidableEq, Repr

/-- A polder's keys (R363 to R368, R374): SEC_KEYSEL ([0] physical slot of CURRENT, [1] PREVIOUS occupied, [2] PREV_LIVE), the two
at-rest keys by physical slot, the sweep's copies, and for a sealed polder the KEM key, the bounce keys, BB_EPOCH, the bounce
window and the number of the last M2H record. -/
structure PolSec where
  keysel : Tri Nat
  key0 : Nat
  key1 : Nat
  sweep : List SweepCopy
  kem : Nat
  h2m : Nat
  m2h : Nat
  bbEpoch : Nat
  bbBase : Nat
  bbLen : Nat
  m2hCtr : Nat
  locked : Bool
deriving DecidableEq, Repr

def PolSec.blank : PolSec :=
  { keysel := Tri.mk1 0, key0 := 0, key1 := 0, sweep := [], kem := 0, h2m := 0, m2h := 0, bbEpoch := 0, bbBase := 0, bbLen := 0,
    m2hCtr := 0, locked := false }

/-- A memory command that waits for page copies (R61, R62). -/
structure MemWait where
  tag : Nat
  pinTo : Option Tier
  toTier : Tier
  start : Nat
  n : Nat
deriving DecidableEq, Repr

/-- A blank submission and completion ring. -/
def Sq.blank : Sq :=
  { base := 0, order := 0, cq := 0, en := false, tail := 0, head := 0, lastCtr := 0, shareSince := none, cqSince := none, held := none,
    heldAt := 0, heldIdx := 0, red := false }
def Cq.blank : Cq :=
  { base := 0, order := 0, vector := 0, modCount := 0, modUs := 0, en := false, head := 0, posted := 0, inflight := 0, unsig := 0,
    oldest := 0 }

end Sys2Proof.Machine
end

