-- ==== Sys2Proof/Machine/SysTypes.lean ====
section
/-! DEFINITION. The state of the units that serve the whole module: fuses, firmware images and the vault (chapter 12), power and energy (11), the
warden (13), counters and their references (16), discovery, start-up and the records kept across starts (17). -/

namespace Sys2Proof.Machine

/-- The security fuses (Table 12-2). FW_SVN_MIN is a thermometer code. -/
structure Fuses where
  uds : Nat
  keyHash : Vector Nat 4
  revoke : Nat
  svnMin : Nat
  debugLock : Bool
  serial : Nat
deriving DecidableEq, Repr

/-- The minimum security version: the number of blown bits of the thermometer code. -/
def Fuses.minSvn (f : Fuses) : Nat := popcount f.svnMin 64

/-- The fuse request of an activation as the Toe module reserve records it (R503): the staged header, the SVN to raise to, and the
key slots to revoke. -/
structure FuseReq where
  header : Nat
  raise : Option Nat
  revoke : Nat
deriving DecidableEq, Repr

/-- An activation in its window (Table 17-11): its request and the last step done. -/
structure Activation where
  req : FuseReq
  step : Nat
deriving DecidableEq, Repr

/-- A polder's vault entry (R367): whether it is sealed, the measurements its wrapping key was derived from, and the wrapped slots. -/
structure VaultEntry where
  sealed : Bool
  polDigest : Nat
  modDigest : Nat
  keysel : Nat
  key0 : Nat
  key1 : Nat
  epoch : Nat
deriving DecidableEq, Repr

/-- Firmware and the secure element (R354 to R367, R501 to R503): slots A and B, the staged and the running image, an
activation in its window, the recorded fuse request, and the vault by polder. -/
structure FwState where
  slotA : Option FwImage
  slotB : Option FwImage
  staged : Option FwImage
  running : Option FwImage
  act : Option Activation
  req : Option FuseReq
  vault : SMap VaultEntry
deriving DecidableEq, Repr

/-- A polder's power settings (Table 11-5). -/
structure PolPwrConf where
  policy : Nat
  weight : Nat
  vLo : Nat
  vHi : Nat
  vSet : Nat
  acctMs : Nat
deriving DecidableEq, Repr

/-- A polder's pace and energy (R124, R336, R343 to R347): VCORE in force, what R338 has taken off V_HI, PACE_KHZ with the HVL instant of its update, when a strip
last started, since when it has run below V_HI, the exact nJ of each job, the published nJ of jobs and of counters, and the last close. -/
structure PolPwr where
  conf : PolPwrConf
  vcore : Nat
  vhiCut : Nat
  pace : Nat
  paceAt : Nat
  stripAt : Option Nat
  lowSince : Option Nat
  jobs : SMap Nat
  pubJobs : SMap Nat
  pub : SMap Nat
  closeAt : Nat
deriving DecidableEq, Repr

/-- Watts lent until an instant, or borrowed and given back by an instant (Table 11-7). -/
structure Loan where
  watts : Nat
  at_ : Nat
deriving DecidableEq, Repr

/-- The module's power settings besides its caps (Table 11-5). -/
structure PwrConf where
  fracC : Nat
  fracM : Nat
  fracL : Nat
  tjSoft : Nat
  vLo : Nat
  vHi : Nat
  group : Nat
  shiftMax : Nat
  offerMs : Nat
  crit : List Nat
deriving DecidableEq, Repr

/-- The power controller (chapter 11). MODE: 0 FRACTION, 1 FALLBACK, 2 CLAMPED. CAPS is PWR_CAPS: CAP_W, then FLOOR_W from bit 16. `cmds`
are POWER_BUDGET commands that apply at the next control interval; `later` holds changes made in CLAMPED with their polder (16: module); `wdGate` is
the warden's gating of strip issue (R340). -/
structure Pwr where
  mode : Nat
  caps : Tri Nat
  conf : PwrConf
  cmds : List (Box × Block)
  later : List (Nat × Block × Bool)
  lent : List Loan
  borrowed : List Loan
  capAt : List (Nat × Nat)
  overN : Nat
  calm : Nat
  msAt : Nat
  cutAt : Nat
  inMw : Nat
  compMw : Nat
  memMw : Nat
  linkMw : Nat
  fixedMw : Nat
  bComp : Nat
  bMem : Nat
  bLink : Nat
  beGate : Bool
  gate : Bool
  wdGate : Bool
  spare : List (Nat × Nat)
  static : SMap Nat
  tj : Int
  tjMax : Int
  tjAt : Nat
  vin : Nat
  iin : Nat
  lastReq : Option Nat
  nonce : Nat
deriving DecidableEq, Repr

/-- A fault record (Table 13-10). -/
structure FaultRec where
  seq : Nat
  time : Nat
  unit : Nat
  index : Nat
  pol : Nat
  fault : Nat
  action : Nat
  src : Bool
  env : Bool
  count : Nat
  detail : Block
deriving DecidableEq, Repr

/-- A seal image (Table 13-4): its order among the images, the directory entries, the modules each restore in progress asserted to (R391), the
journal records not yet acknowledged with their entries, and the fault log. `valid` is its header. What the FTL seal record names (the
last map-log record, the open blocks) is the FTL's own state, which Toe keeps. -/
structure SealImage where
  num : Nat
  dir : SMap Desc
  asked : List (Nat × List Nat)
  recs : List (Nat × JRec)
  log : List FaultRec
  valid : Bool
deriving DecidableEq, Repr

/-- The 16 KiB result buffer of the warden mailbox (R395). -/
inductive WBuf where
  | empty
  | faults (l : List FaultRec)
  | quote (q : Quote)
deriving DecidableEq, Repr

/-- The warden mailbox (Table 13-5). -/
structure Wmb where
  cmd : Nat
  arg : Block
  busy : Bool
  done : Bool
  status : Nat
  tag : Nat
  src : Bool
  dropped : Nat
  res : Block
  dwin : Nat
  runCmd : Nat
  runArg : Block
  started : Bool
deriving DecidableEq, Repr

/-- An armed test perturbation (R451): its kind 0 residue, 1 ECC, 2 stall, 3 lockstep; its target kind, whether two bits, and its unit. -/
structure Arm where
  kind : Nat
  target : Nat
  double : Bool
  unit : Nat
deriving DecidableEq, Repr

/-- The warden and what the fault units keep (chapter 13): its mailbox and configuration, the log newest first with the copy in the Toe
reserve, level states, its oscillator, recent error instants by unit, a seal in progress by the last step done, both seal areas,
the silent core pairs, and the test perturbations armed. -/
structure Warden where
  mbx : Wmb
  conf : Tri Nat
  buf : WBuf
  log : List FaultRec
  nextSeq : Nat
  copied : List FaultRec
  copyAt : Nat
  vinGood : Bool
  coresWedged : Bool
  fabWedged : Bool
  bootFail : Bool
  sealed : Bool
  thermHigh : Bool
  thermTrip : Bool
  wedgedAt : Nat
  hotSince : Option Nat
  ticks : Nat
  tickPs : Nat
  oscBad : Bool
  oscAt : Nat
  recent : SMap (List Nat)
  sealing : Option Nat
  sealA : Option SealImage
  sealB : Option SealImage
  toeDirty : Bool
  silent : Nat
  pairs : SMap Nat
  arms : List Arm
  tstIgnored : Nat
  tstInjected : Nat
  sensorReg : Nat
  sensorOff : SMap Int
  scrubAt : Nat
  trainAt : Nat
  trAt : Nat
deriving DecidableEq, Repr

/-- A counter's discipline (R461, R462): locked, holdover, measurements in a row within 50 ns, the instant of the last one on the HVL
counter, and the last offset. -/
structure Sync where
  locked : Bool
  holdover : Bool
  good : Nat
  at_ : Nat
  offset : Int
deriving DecidableEq, Repr

def Sync.free : Sync := { locked := false, holdover := false, good := 0, at_ := 0, offset := 0 }

/-- Time parameters in force and counters' disciplines: key 0 HVL, 1 + k port k, 5 + p polder p (R410, R460). -/
structure TimeState where
  conf : Nat
  stepNs : Nat
  lastSeq : Option Nat
  sync : SMap Sync
deriving DecidableEq, Repr

/-- Discovery (R496, R497): the table, the instant of the module's first link-up, its announce's backoff, the anchor it went to and when, as an anchor the
entries to send, its last tick and relays that have not acknowledged (cell, entries, instant), and as a relay the entries to forward with their instants. -/
structure Disc where
  table : List Announce
  up : Option Nat
  due : Option Nat
  anchor : Nat
  asked : Option Nat
  tries : Nat
  fresh : List Nat
  tickAt : Nat
  relays : List (Nat × List Nat × Nat)
  forward : List (Nat × Announce)
  fixed : Bool
deriving DecidableEq, Repr

/-- The identity block of the board EEPROM (Table 17-5), which the module writes. -/
structure Ident where
  domain : Nat
  id : Nat
  valid : Bool
  serial : Nat
deriving DecidableEq, Repr

/-- Checkpoint parameters (Table 09-5). -/
structure CkConf where
  enable : Bool
  onPark : Bool
  every : Nat
  chainMax : Nat
  retain : Nat
  share : Nat
  inflight : Nat
  repl : List (Nat × Nat)
deriving DecidableEq, Repr

/-- Ownership parameters (Table 03-8); BUDDY is in `Journal`. -/
structure OwnParams where
  leaseMs : Nat
  guardMs : Nat
  peerDeadMs : Nat
  degradeMs : Nat
  adopt : List Nat
deriving DecidableEq, Repr

/-- A saved polder (Table 17-7): its POLDER_COMPOSE argument, TENANT_DIGEST, dikes with the heat epoch, checkpoint schedule and power
settings. -/
structure SavedPol where
  arg : Block
  tenant : Nat
  crest : Dike
  berm : Dike
  toe : Dike
  heatMs : Nat
  ck : CkConf
  pw : PolPwrConf
deriving DecidableEq, Repr

/-- The records kept across starts in the Toe module reserve (R491). -/
structure Saved where
  profile : Nat
  own : OwnParams
  buddy : Option Nat
  timeConf : Nat
  stepNs : Nat
  caps : Nat
  pw : PwrConf
  polic : SMap (List PolSet)
  wts : SMap (SMap Nat)
  sluices : List (Option Sluice)
  pols : SMap SavedPol
deriving DecidableEq, Repr

/-- Power, pins and links at the module's boundary (R453, R479, R508 to R514): a power failure in progress, VIN switched off after it, MRST_L
and HVL_RST_L held low, the address straps, WP_n released by channel, the selected test instruction, the HVL generation, Berm rates in MT/s by
device, and the sideband's aperture offset. -/
structure Pins where
  failing : Bool
  off : Bool
  mrst : Bool
  hvlRst : Bool
  smbAddr : Nat
  wp : Nat
  test : Nat
  hvlGen : Nat
  bermRate : SMap Nat
  smbOff : Nat
  tripLow : Bool
deriving DecidableEq, Repr

/-- What start-up keeps (R481 to R489): the provisioning block read, the identity block as the module last wrote it (zero: never), the stored format nonce, whether Toe holds FTL
metadata, whether Crest failed, the saved records, and the mirrors of cross-domain registers (R434). -/
structure BootState where
  prov : Option Prov
  ident : Block
  fmtNonce : Nat
  formatted : Bool
  crestFail : Bool
  saved : Option Saved
  mirror : SMap Nat
deriving DecidableEq, Repr

/-- The units that serve the whole module. -/
structure Sys where
  fw : FwState
  pw : Pwr
  wd : Warden
  time : TimeState
  disc : Disc
  pins : Pins
  boot : BootState
deriving DecidableEq, Repr

end Sys2Proof.Machine
end

