-- ==== Sys2Proof/Machine/Mod.lean ====
section
/-! DEFINITION. The module's state as plain data: its sixteen polders, the session directory, the journal and its peers,
the register blocks, and everything the module has sent out. -/

namespace Sys2Proof.Machine

/-- A completion entry (Table 14-10b). -/
structure CqEntry where
  tag : Nat
  job : Nat
  status : Nat
  opcode : Nat
  sq : Nat
  event : Bool
  recallShort : Bool
  phase : Bool
  sqHead : Nat
  resv : Nat
  detail : Nat
  result : Block
deriving DecidableEq, Repr

/-- Culvert messages (Table 16-6). -/
inductive Msg where
  | own (ty : OwnMsg) (b : OwnBody)
  | page (b : PageMsg)
  | pageAck (sid h pseq : Nat)
  | journal (recs : List JRec)
  | journalAck (jseq : Nat)
  | keepalive
  | replDigests (sid epoch seq : Nat) (ds : List Nat)
  | replLacks (bits : List Bool)
  | replChunk (digest bytes : Nat) (p : CkPay)
  | replRecords (sid epoch seq : Nat) (rs : List CkRec)
  | replCommit (c : Ck)
  | replAck (sid epoch seq : Nat) (failed : Bool)
  | tkHello (q : Quote) (ct : Nat)
  | power (x : PowerMsg)
  | announce (x : Announce)
deriving DecidableEq, Repr

/-- What leaves the module, in the order it was sent. -/
inductive Out where
  /-- The bytes of a completion entry written at index idx of completion ring c of polder p (R417). -/
  | cq (p c idx : Nat) (e : Block)
  /-- The bytes of a polder's token-ring entry k written at an address (R243). -/
  | token (p addr k : Nat) (e : Block)
  /-- PROD of a token ring (R243). -/
  | prod (ring v : Nat)
  /-- A message-signalled interrupt (R425). -/
  | irq (msg : Nat)
  /-- A write of so many bytes to companion memory. -/
  | host (addr len : Nat) (b : Block)
  /-- A culvert message handed to its lane, to a module and polder from a polder; KEYGEN where it is sealed (R468, R471). -/
  | culvert (dst pol src : Nat) (keygen : Option Nat) (m : Msg)
  /-- A culvert DATA frame put on the wire of a port: its lane and PSN, its culvert header and its payload (R465, R466). -/
  | frame (port lane psn : Nat) (head payload : Block)
  /-- A culvert ACK frame of a lane: its culvert header and its 8 B bitmap (R466). -/
  | ack (lane : Nat) (head bitmap : Block)
  /-- An answer to an ARP or neighbour discovery request: port, address and MAC (R458). -/
  | neighbour (port addr mac : Nat)
  /-- A NOTICE frame of the warden to the buddy on a port: its culvert header and its 16 B payload (R472). -/
  | notice (port dst : Nat) (head payload : Block)
  /-- The value a register or sideband read returns. -/
  | reg (v : Nat)
deriving DecidableEq, Repr

/-- A polder's slice masks (R409). -/
structure Masks where
  arr : Nat
  crest : Nat
  berm : Nat
  toe : Nat
deriving DecidableEq, Repr

/-- Recall parameters (Table 06-5). -/
structure Recall where
  sink : Nat
  probe : Nat
  window : Nat
  pages : Nat
  deadlineUs : Nat
deriving DecidableEq, Repr

/-- A transfer this module is the source of: its command, whether it is a SESS_MOVE, and pages shipped and acknowledged. -/
structure Xfer where
  idx : Nat
  tag : Nat
  move : Bool
  shipped : Nat
  acked : List Nat
deriving DecidableEq, Repr

/-- A SESS_HANDOFF_IN or GEN_PREFILL_ACCEPT that waits for its import (R107, R249): when its expected window closes. -/
structure InWait where
  tag : Nat
  sid : Nat
  h : Nat
  deadline : Nat
  prefill : Bool
  hist : List Nat
deriving DecidableEq, Repr

/-- Where a replica target of a checkpoint stands (R297). -/
inductive ReplState where
  | waiting | offered | shipping | committing | done | failed
deriving DecidableEq, Repr

/-- A replica target of a checkpoint in progress (R297): the peer polder, where it stands, and the digest batches it has answered. -/
structure ReplJob where
  mod : Nat
  pol : Nat
  st : ReplState
  batch : Nat
deriving DecidableEq, Repr

/-- A checkpoint in progress (Table 09-6): the snapshot it was fixed at, the commands it answers, and its progress: the copied-bitmap of each
page of its copy set, whether its BEGIN record is acknowledged and its chunks and records are in the store, the Toe units that these await, the
tier that refused it a frame, and whether a page of the set is LOST. -/
structure CkJob where
  idx : Nat
  ck : Ck
  begin : Option Nat
  auto : Bool
  engine : Bool
  commit : Option Nat
  host : Option (Nat × Nat)
  beginAcked : Bool
  written : Bool
  copied : Bool
  localDone : Bool
  newBytes : Nat
  readBytes : Nat
  repl : List ReplJob
  copying : SMap Nat
  units : List Nat
  refused : Option Nat
  lost : Bool
deriving DecidableEq, Repr

/-- A chunk of a store (R286): its payload, its size, and the records that name it. -/
structure Chunk where
  digest : Nat
  pay : CkPay
  bytes : Nat
  refs : Nat
deriving DecidableEq, Repr

/-- A checkpoint store (R286): chunks, committed checkpoints in commit order, BEGIN records (SESSION_ID, SEQ, EPOCH), and whether
it has been rebuilt since the start (R300). -/
structure CkStore where
  chunks : List Chunk
  cks : List Ck
  begins : List (Nat × Nat × Nat)
  rebuilt : Bool
deriving DecidableEq, Repr

/-- A replica checkpoint that has not committed (R299): the last batch of digests it was offered, the chunks it counts on, when its last record arrived, refused chunks (R297), and its commit record while
that is not acknowledged. -/
structure ReplIn where
  src : Nat
  sid : Nat
  epoch : Nat
  seq : Nat
  digests : List Nat
  held : List Nat
  recs : List CkRec
  last : Nat
  retries : List (Nat × Nat)
  failed : Bool
  commit : Option Ck
deriving DecidableEq, Repr

/-- A restore in progress (Table 09-7), or what a takeover has still to load of an adopted session: the module and polder it was adopted from, and
its journaled tokens (Table 03-12). -/
structure Restore where
  tag : Nat
  idx : Nat
  created : Bool
  prior : Desc
  ck : Ck
  recs : List CkRec
  parked : Bool
  slot : Nat
  asked : List Nat
  owned : Bool
  loaded : Bool
  left : List CkRec
  adopted : Option (Nat × Nat)
  replay : List (Nat × List Nat)
deriving DecidableEq, Repr

/-- A polder's checkpoint state: its local store, replica stores by source (module * 16 + polder), its
parameters, checkpoints in progress, replicas arriving, restores, streams of restores that wait for a step boundary, sessions due for a checkpoint. -/
structure CkState where
  store : CkStore
  repl : SMap CkStore
  conf : CkConf
  jobs : List CkJob
  ins : List ReplIn
  restores : List Restore
  streams : List (Nat × Block)
  due : List Nat
deriving DecidableEq, Repr

/-- A POLDER_RESET under way (Table 17-10): its mailbox, the last step done and the commands it aborted. -/
structure RstRun where
  box : Box
  step : Nat
  aborted : Nat
deriving DecidableEq, Repr

/-- A polder (R36, R409). `tables` gives the Berm frame of each page-table page (R43); `toeRr` is its turn among the channels of its
slice (R41). -/
structure Polder where
  composed : Bool
  sealed : Bool
  fenced : Bool
  tenant : Nat
  ethPorts : Nat
  masks : Tri Masks
  lcArrays : Nat
  beStripHs : Nat
  recallCfg : Recall
  clk : Nat
  heatMs : Nat
  nextHeat : Nat
  dCrest : Dike
  dBerm : Dike
  dToe : Dike
  pages : SMap Page
  sess : SMap Sess
  imports : List Import
  waits : List Wait
  memWaits : List MemWait
  slots : SMap Slot
  arrays : SMap ArrSlots
  passes : List Pass
  nextPass : Nat
  lastJob : Nat
  front : List StripKey
  heldSeqs : List PassSeq
  modelWaits : List ModelWait
  drbg : Drbg
  jobs : List Job
  reqs : List Req
  releases : List Release
  sqs : Vector Sq 16
  cqs : Vector Cq 16
  rrNext : Nat
  ops : Nat
  taken : List Taken
  events : List Event
  mbx : Mbx
  pintEn : Nat
  ctr : Ctrs
  hold : Ctrs
  short : Nat
  keyEpoch : Nat
  cache : List (Nat × Bool)
  inWaits : List InWait
  xfers : List Xfer
  claims : List (Nat × Nat)
  ck : CkState
  vec : Vec
  sec : PolSec
  resetting : Bool
  rst : Option RstRun
  diss : Option Box
  pw : PolPwr
  polic : Vector Policer 6
  refill : Nat
  wts : SMap Nat
  tables : SMap Nat
  toeRr : Nat
  tks : SMap Tk
deriving DecidableEq, Repr

/-- What waits for a journal record's acknowledgement ("journal first", R103, R111). -/
inductive JAct where
  /-- Send OFFER for a session in PENDING_OUT. -/
  | offer (p idx tag : Nat) (move : Bool)
  /-- Commit an import and send CLAIM (R108). -/
  | claim (p sid : Nat)
  /-- Send ASSERT(H + 1) and complete the transfer command with NO_OWNER_RECOVERED. -/
  | reassert (p idx tag : Nat)
  /-- Load the state of a restore that owns at T. -/
  | restored (p idx tag : Nat)
  /-- An adoption at the buddy. -/
  | adopted (p idx src srcPol : Nat)
  /-- Release the tokens of a step (R243). -/
  | tokens (p : Nat)
  /-- Send ASSERT again for a restored descriptor that was RESTORING (R391). -/
  | asserts (p idx : Nat) (mods : List Nat)
deriving DecidableEq, Repr

/-- The action that sends a session's OFFER. -/
def JAct.isOffer (a : JAct) (p idx : Nat) : Bool :=
  match a with
  | .offer x y _ _ => x == p && y == idx
  | _ => false

/-- Whether what waits concerns a directory entry or its SESSION_ID. -/
def JAct.onEntry (a : JAct) (idx sid : Nat) : Bool :=
  match a with
  | .offer _ i _ _ => i == idx
  | .claim _ s => s == sid
  | .reassert _ i _ => i == idx
  | .restored _ i _ => i == idx
  | .adopted _ i _ _ => i == idx
  | .tokens _ => false
  | .asserts _ i _ => i == idx

/-- A journal record that is waiting or not yet acknowledged: the directory entry it concerns, and the instant of the change it carries. -/
structure JSent where
  idx : Nat
  r : JRec
  since : Nat
  sent : Bool
deriving DecidableEq, Repr

/-- The journal side of the session directory engine (R110 to R112); `resentTo` is the last of the records resent since acknowledgements
resumed. -/
structure Journal where
  buddy : Option Nat
  down : Bool
  resentTo : Option Nat
  downAt : Nat
  lastAck : Nat
  waitSince : Nat
  next : Nat
  block : Nat
  q : List JSent
  acts : List (Nat × JAct)
  lag : Nat
deriving DecidableEq, Repr

/-- A shadow image held for a peer that names this module as buddy, under its SESSION_ID and polder (R110): the newest descriptor image, and the journaled
tokens of its steps; `cur` is clear when it was journaled before the peer was last heard from again (R113). -/
structure Shadow where
  d : Desc
  steps : List (Nat × List Nat)
  cur : Bool
deriving DecidableEq, Repr

/-- What the module keeps of a peer module (R113). -/
structure Peer where
  lastFrame : Option Nat
  expectSince : Option Nat
  failed : Bool
  shadow : SMap Shadow
  heldJseq : Nat
  asserts : List (Nat × Nat × Nat)
  serial : Option Nat
  noticed : Bool
deriving DecidableEq, Repr

def Peer.blank : Peer :=
  { lastFrame := none, expectSince := none, failed := false, shadow := [], heldJseq := 0,
    asserts := [], serial := none, noticed := false }

/-- Fence masks (Table 15-7). -/
structure Fences where
  polder : Tri Nat
  array : Tri Nat
  berm : Tri Nat
  toe : Tri Nat
  link : Tri Nat
  units : Tri Nat
  vdom : Tri Nat
  phase : Tri Nat
  sensor : Tri Nat
deriving DecidableEq, Repr

/-- The management front end's registers (chapter 15). -/
structure Front where
  profile : Tri Nat
  stage : Nat
  ready : Bool
  mbxReady : Bool
  modId : Option Nat
  xdTimeout : Nat
  intEn : Nat
  snapNum : Nat
  hold : Ctrs
  cmpShadow : Nat
  cmpLatches : Nat
  privMap : Tri Nat
  mbx : Mbx
deriving DecidableEq, Repr

/-- Where a map unit lies: channel, block and stripe row (R71). -/
structure UnitAt where
  ch : Nat
  blk : Nat
  row : Nat
deriving DecidableEq, Repr

/-- A map unit of Toe: the channel and block that hold it, the stripe row it entered, its owner, whether its write has
been acknowledged, and, while a rewrite is not, where its old contents lie (R71, R72, R82, R518). -/
structure ToeUnit where
  ch : Nat
  blk : Nat
  row : Nat
  pol : Nat
  acked : Bool
  old : Option UnitAt
deriving DecidableEq, Repr

/-- A stripe row (R71): the instant its first unit entered, its data units, and once it has closed the channel of its parity unit and,
once that is programmed, its contents. -/
structure StripeRow where
  id : Nat
  start : Nat
  units : List Nat
  parity : Option Nat
  par : Option Nat
  closed : Bool
deriving DecidableEq, Repr

/-- A flash block (R74 to R79): reads since its last erase, program/erase cycles, the instant its data was programmed and the powered time
that data had before the last cold start, whether it holds programmed data, and its marks. -/
structure FlashBlk where
  reads : Nat
  pe : Nat
  since : Nat
  age : Nat
  used : Bool
  marked : Bool
  suspect : Bool
  retired : Bool
deriving DecidableEq, Repr

/-- A Toe channel (R70, R76 to R78): exported map units, good and spare blocks, collection threshold, rated endurance, the blocks that
differ from a fresh one, wear crossings counted, and writes that wait for collection. -/
structure Chan where
  exported : Nat
  good : Nat
  spare : Nat
  thresh : Nat
  endurance : Nat
  blks : SMap FlashBlk
  crossed : Nat
  readOnly : Bool
  waiting : List Nat
  rebuilt : Bool
deriving DecidableEq, Repr

/-- The flash translation layer (R69 to R83). `rr` is the turn of the parity channel (R71). -/
structure Ftl where
  chans : SMap Chan
  units : SMap ToeUnit
  rows : List StripeRow
  nextRow : Nat
  rr : Nat
  rdLimit : Nat
  retentionDays : Nat
  op : Nat
  clean : Bool
deriving DecidableEq, Repr

/-- A message that waits for a transfer key (R376). -/
structure HeldMsg where
  dst : Nat
  pol : Nat
  src : Nat
  msg : Msg
deriving DecidableEq, Repr

/-- Ports, culvert lanes by module * 2 + lane, arbiters (8 * port + traffic class; 28 + ARB for ARB 4 to 8), the board
record, the next port in turn (R467), messages that wait for a transfer key, and received frames accepted by a port (R459). -/
structure Net where
  board : Option Board
  ports : Vector Port 4
  rr : Nat
  lanes : SMap Lane
  arbs : SMap Arb
  held : List HeldMsg
  rx : List (Nat × Wire)
deriving DecidableEq, Repr

/-- The whole module but its fuses. -/
structure Mod where
  working : Bool
  hvl : Nat
  front : Front
  fence : Fences
  dir : SMap Desc
  sidNext : Nat
  jr : Journal
  own : OwnParams
  peers : SMap Peer
  ftl : Ftl
  net : Net
  entropyOk : Bool
  pol : Vector Polder 16
  ctr : Ctrs
  refetch : List Nat
  dirGone : List Nat
  out : List Out
  free : Nat
  sys : Sys
deriving DecidableEq, Repr

end Sys2Proof.Machine
end

