-- ==== Sys2Proof/Machine/Image.lean ====
section
/-! DEFINITION. What the module's structures are in memory and on the wire, byte for byte and little-endian (R15): descriptors (Table 03-2),
journal records (Table 03-11), state roots and sampler pages (Tables 06-3, 07-3, 07-6), checkpoint records and streams (chapter 09), ring entries
(Tables 07-8, 14-10b), query results (Table 08-10) and culvert messages (chapter 16). -/

namespace Sys2Proof.Machine

/-- One bit field of a flag. -/
def flag (b : Bool) : Nat × Nat := (1, b2n b)

/-- A structure whose last bytes may be left out, as a number. -/
def image (l : List (Nat × Nat)) : Block := pack l

/-- A session descriptor (Table 03-2). -/
def descFields (d : Desc) : List (Nat × Nat) :=
  [(32, d.gen), (4, d.life.code), (4, d.own.code), (1, d.cls.code), flag d.sparse, flag d.sealed, (1, 0), (4, d.pol), (8, d.slot), flag d.jdirty, (7, 0),
   (64, d.sid), (32, d.epoch), (32, d.pend), (32, d.lease), (12, d.peerMod), (4, d.peerPol), (16, 0), (32, d.tokens), (32, d.ctxMax), (64, d.root),
   (32, d.step), (16, d.job), (16, d.famRefs), (24, d.fam), (8, 0), (32, d.ckptRef)]
def descBytes (d : Desc) : Block := image (descFields d)

/-- BODY of a journal record. -/
def jbodyFields (r : JRec) : List (Nat × Nat) :=
  match r.kind with
  | 1 => descFields r.desc
  | 3 => descFields r.desc
  | 2 => [(64, r.sid), (32, r.epoch)]
  | 4 => [(64, r.sid), (32, r.epoch), (32, r.step), (8, r.toks.length), (24, 0)] ++ (r.toks.take 9).map (fun t => (32, t))
  | _ => []

/-- A journal record of 80 B with its CHECK (Table 03-11). -/
def jrecBytes (r : JRec) : Block :=
  let head := pack [(64, r.jseq), (12, r.src), (4, r.pol), (8, r.kind), (8, 0)]
  let body := pack (jbodyFields r)
  head + at8 12 (crc32c (toBytes head 12 ++ toBytes body 64)) + at8 16 body

/-- Generation state from byte 64 of a state root on (Table 07-3). -/
def genFields (x : RootImg) : List (Nat × Nat) :=
  let g := x.gen
  [(32, 1), (32, g.pendTok), flag g.pendValid, flag g.featValid, (2, g.specMode), flag g.greedy, (3, 0), (4, g.draftLen), (4, 0), (8, g.treeNodes), (8, 0),
   (32, g.nextSeq), (64, x.samplerSsa), (64, x.featureSsa), (16, x.histCount), (16, x.histHead), (32, g.stepAtShip), (192, 0)] ++
  (List.range 32).map (fun i => (8, (g.treeParent[i]?).getD 0))

/-- A state root of 64 KiB (Table 06-3); VERSION and GVERSION are 1. -/
def rootBytes (x : RootImg) : Block :=
  pack ([(32, 1), (16, x.layers), (8, x.groups), (4, x.fmt), flag x.qsValid, (3, 0), (16, x.w), (16, x.bpp), (32, x.bodyBytes), (64, x.sketchSsa),
    (64, x.coarseSsa), (32, x.blocks), (224, 0)] ++ genFields x) +
  (x.dmap.map (fun e => at8 (4096 + 8 * e.1) (e.2 % 2 ^ 64))).sum

/-- The parameters of a sampler page: bytes 28 to 55 of SAMPLER_CONF (Table 07-5). -/
def paramFields (s : SampParams) : List (Nat × Nat) :=
  [s.temp, s.topP, s.minP, s.repPen, s.presPen, s.freqPen].map (fun (x : F32) => (32, x.toNat)) ++ [(11, s.topK), (5, 0), (13, s.window), (3, 0)]

/-- A stop sequence: its length and its tokens (Table 07-6). -/
def stopFields (l : List Nat) : List (Nat × Nat) := (8, l.length) :: (56, 0) :: (List.range 32).map (fun i => (32, (l[i]?).getD 0))

/-- A sampler page of 64 KiB (Table 07-6). The history ring's newest token lies before HIST_HEAD. -/
def sampBytes (s : SampPage) : Block :=
  pack ([(16, s.bias.length), (4, s.stops.length), (4, 0), flag s.logprob, flag s.maskStatic, (6, 0), (32, s.eos)] ++ paramFields s.pr ++ [(224, 0)] ++
    (List.range 1024).flatMap (fun i => match s.bias[i]? with
      | some b => [(32, b.1), (32, b.2.toNat)]
      | none => [(64, 0)]) ++
    (List.range 8).flatMap (fun i => match s.stops[i]? with
      | some l => stopFields l
      | none => [(1088, 0)])) +
  (s.hist.reverse.zipIdx.map (fun e => at8 (16384 + 4 * ((s.head + 4095 - e.2) % 4096)) (e.1 % 2 ^ 32))).sum + at8 32768 (s.mask % 2 ^ 262144)

/-- A feature row in its format: elements, then block scales as the row is held (R226). -/
def featRowOf (fmt : Nat) (row : List Nat) : ERow :=
  let n := if fmtIsMx fmt then row.length * 32 / 33 else row.length
  ⟨fmt, row.take n, row.drop n⟩

/-- A KV body with its rows beyond FILL zero (Table 09-1). -/
def fullRows (rows : List KvRow) : List KvRow :=
  let z (l : List Nat) : List Nat := l.map (fun _ => 0)
  match rows.head? with
  | none => []
  | some r => rows ++ List.replicate (16 - rows.length) ⟨z r.k, z r.ks, z r.v, z r.vs⟩

/-- The payload of a checkpoint record: its length and its bytes (Table 09-1). -/
def payBytes : CkPay → Nat × Block
  | .desc d => (64, descBytes d)
  | .root x => (65536, rootBytes x)
  | .sampler s => (65536, sampBytes s)
  | .feature fmt n row => (65536 * n, pack (tensorFields fmt [featRowOf fmt row]))
  | .body fmt n rows => (n, pack (bodyFields fmt (fullRows rows)))
  | .sketch slots => (8192, pack (slots.map (fun s => (256, s))))
  | .qsketch q => (32 * q.length, pack (q.map (fun s => (256, s))))

/-- SHA3-256 of a payload (R286). -/
def payDigest (p : CkPay) : Nat := sha3Bytes (toBytes (payBytes p).2 (payBytes p).1)

/-- A checkpoint record of 64 B (Table 09-2). -/
def ckRecBytes (sid epoch seq : Nat) (r : CkRec) : Block :=
  image [(8, r.kind), (4, r.fmt), (4, 0), (5, r.fill), (3, 0), (8, 0), (32, seq), (64, sid), (32, epoch), (24, r.lg), (8, 0), (32, r.ix), (32, r.check),
    (256, r.digest)]

/-- RECORDS_DIGEST: SHA3-256 over the records in the order written (Table 09-3). -/
def recsDigest (sid epoch seq : Nat) (rs : List CkRec) : Nat := sha3Bytes (rs.flatMap (fun r => toBytes (ckRecBytes sid epoch seq r) 64))

/-- A commit record of 128 B with its CHECK (Table 09-3). -/
def commitBytes (c : Ck) : Block :=
  let lo := pack [(8, 15), flag c.base, flag c.hosted, (6, 0), (16, 0), (32, c.seq), (64, c.sid), (32, c.epoch), (32, c.parentSeq), (32, c.parentEpoch),
    (32, c.step), (32, c.tokens), (32, c.recs.length), (12, c.ownerMod), (4, c.ownerPol), (1, c.cls.code), flag c.sparse, flag c.sealed, (5, 0),
    (4, c.fmt), (4, 0), (16, c.layers), (8, c.groups), (8, c.headDim), (16, c.w), (16, 0)]
  let hi := pack [(32, c.ctxMax), (32, 0), (256, c.modelDigest), (256, c.recsDigest)]
  lo + at8 52 (crc32c (toBytes lo 52 ++ toBytes hi 72)) + at8 56 hi

/-- What follows a stream's header: each record with its payload padded to 64 B, then the commit record (R306). -/
def streamBody (c : Ck) : List Nat :=
  c.recs.flatMap (fun r => toBytes (ckRecBytes c.sid c.epoch c.seq r) 64 ++ toBytes (payBytes r.pay).2 (64 * cdiv r.bytes 64)) ++ toBytes (commitBytes c) 128

/-- A stream with its header of 64 B (Table 09-8). -/
def streamImage (srcMod srcPol : Nat) (c : Ck) : List Nat :=
  let body := streamBody c
  let lo := pack [(32, 1), (32, c.recs.length), (64, body.length), (64, c.sid), (12, srcMod), (4, srcPol), (16, 0)]
  let dig := toBytes (sha3Bytes body) 32
  toBytes lo 28 ++ toBytes (crc32c (toBytes lo 28 ++ dig)) 4 ++ dig ++ body

-- Reading structures back.

/-- A LIFE state by its number (Table 03-3). -/
def lifeOf (n : Nat) : Life :=
  match n with
  | 1 => .active | 2 => .parked | 3 => .retiring | 4 => .husk | _ => .free

/-- An OWN state by its number (Table 03-3). -/
def ownOf (n : Nat) : Own :=
  match n with
  | 1 => .owned | 2 => .pendingOut | 3 => .importing | 4 => .relinquished | 5 => .restoring | 6 => .shadow | _ => .none

def clsOf (b : Bool) : Cls := if b then .be else .lc

/-- A session descriptor (Table 03-2). -/
def descOf (b : Block) : Desc :=
  { gen := fld b 0 0 32, life := lifeOf (fld b 4 0 4), own := ownOf (fld b 4 4 4), cls := clsOf (flg b 5 0), sparse := flg b 5 1, sealed := flg b 5 2
    pol := fld b 5 4 4, slot := fld b 6 0 8, jdirty := flg b 7 0, sid := fld b 8 0 64, epoch := fld b 16 0 32, pend := fld b 20 0 32
    lease := fld b 24 0 32, peerMod := fld b 28 0 12, peerPol := fld b 28 12 4, tokens := fld b 32 0 32, ctxMax := fld b 36 0 32
    root := fld b 40 0 64, step := fld b 48 0 32, job := fld b 52 0 16, famRefs := fld b 54 0 16, fam := fld b 56 0 24, ckptRef := fld b 60 0 32 }

/-- A state root without its map addresses, which a reader ignores (Tables 06-3 and 07-3, R304). -/
def rootOf (b : Block) : RootImg :=
  { layers := fld b 4 0 16, groups := fld b 6 0 8, fmt := fld b 7 0 4, qsValid := flg b 7 4, w := fld b 8 0 16, bpp := fld b 10 0 16
    bodyBytes := fld b 12 0 32, sketchSsa := fld b 16 0 64, coarseSsa := fld b 24 0 64, blocks := fld b 32 0 32
    gen := { pendTok := fld b 68 0 32, pendValid := flg b 72 0, featValid := flg b 72 1, specMode := fld b 72 2 2, greedy := flg b 72 4
             draftLen := fld b 73 0 4, treeNodes := fld b 74 0 8, treeParent := (List.range (min 32 (fld b 74 0 8))).map (fun i => fld b (128 + i) 0 8)
             nextSeq := fld b 76 0 32, stepAtShip := fld b 100 0 32, feature := [] }
    samplerSsa := fld b 80 0 64, featureSsa := fld b 88 0 64, histCount := fld b 96 0 16, histHead := fld b 98 0 16, dmap := [] }

/-- Sampler parameters at a byte offset (Table 07-5). -/
def paramsAt (b : Block) (o : Nat) : SampParams :=
  let f (i : Nat) : F32 := BitVec.ofNat 32 (fld b (o + i) 0 32)
  { temp := f 0, topP := f 4, minP := f 8, repPen := f 12, presPen := f 16, freqPen := f 20, topK := fld b (o + 24) 0 11, window := fld b (o + 26) 0 13 }

/-- One stop-sequence entry of 136 B: its length and its token ids; a length above 32 keeps its excess, so that it is refused (R237). -/
def stopOf (e : Block) : List Nat := (List.range (fld e 0 0 8)).map (fun i => if i < 32 then fld e (8 + 4 * i) 0 32 else 0)

/-- A sampler page or bulk buffer but for parameters and history (Table 07-6). -/
def bulkOf (b : Block) : Bulk :=
  { biasN := fld b 0 0 16, stopN := fld b 2 0 4, logprob := flg b 3 0, maskStatic := flg b 3 1, eos := fld b 4 0 32
    bias := (List.range (min 1024 (fld b 0 0 16))).map (fun i => (fld b (64 + 8 * i) 0 32, BitVec.ofNat 32 (fld b (68 + 8 * i) 0 32)))
    stops := (List.range (min 8 (fld b 2 0 4))).map (fun i => stopOf (fld b (8256 + 136 * i) 0 1088))
    mask := fld b 32768 0 262144 }

/-- A sampler page with n tokens of history before HIST_HEAD (Table 07-6). -/
def sampPageOf (b : Block) (n head : Nat) : SampPage :=
  let x := bulkOf b
  { pr := paramsAt b 8, logprob := x.logprob, maskStatic := x.maskStatic, eos := x.eos, bias := x.bias, stops := x.stops, mask := x.mask
    hist := (List.range (min 4096 n)).map (fun i => fld b (16384 + 4 * ((head + 4096 - min 4096 n + i) % 4096)) 0 32), head := head % 4096 }

/-- The first rows of a KV body (Table 06-2). -/
def bodyOf (fmt w fill : Nat) (b : Block) : List KvRow :=
  (List.range fill).map (fun t =>
    let k := tableRow b 0 fmt w t
    let v := tableRow b (tableBytes fmt w 16) fmt w t
    ⟨k.codes, k.scales, v.codes, v.scales⟩)

/-- The commit record of a stream, if its CHECK holds; its records are read apart (Table 09-3). -/
def commitOf (b : Block) : Option Ck :=
  if fld b 0 0 8 != 15 || fld b 52 0 32 != crc32c (toBytes b 52 ++ toBytes (b >>> 448) 72) then none
  else some {
    sid := fld b 8 0 64, epoch := fld b 16 0 32, seq := fld b 4 0 32, base := flg b 1 0, hosted := true, parentSeq := fld b 20 0 32
    parentEpoch := fld b 24 0 32, step := fld b 28 0 32, tokens := fld b 32 0 32, ownerMod := fld b 40 0 12, ownerPol := fld b 40 12 4
    cls := clsOf (flg b 42 0), sparse := flg b 42 1, sealed := flg b 42 2, fmt := fld b 43 0 4, layers := fld b 44 0 16, groups := fld b 46 0 8
    headDim := fld b 47 0 8, w := fld b 48 0 16, ctxMax := fld b 56 0 32, modelDigest := fld b 64 0 256, recsDigest := fld b 96 0 256, recs := [] }

/-- The payload length of a record kind (Table 09-1). -/
def recLen (g : Prog) (c : Ck) (kind : Nat) : Nat :=
  match kind with
  | 1 => 64
  | 2 => 65536
  | 3 => 65536
  | 4 => 65536 * cdiv (((g.tensors[1]?).map (fun t => tableBytes t.fmt t.width 1)).getD 0) 65536
  | 5 => 2 * tableBytes c.fmt c.w 16
  | 6 => 8192
  | _ => 32 * (c.layers * c.groups)

/-- The records of a stream with their payloads, each checked against its digest; none where one fails (R306). -/
def streamRecs (g : Prog) (c : Ck) (body : Block) (lim : Nat) : Nat → Nat → Option (List (Block × Block))
  | 0, off => if off == lim then some [] else none
  | n + 1, off =>
    let r := fld body off 0 512
    let len := recLen g c (fld r 0 0 8)
    let pay := fld body (off + 64) 0 (8 * len)
    let next := off + 64 + 64 * cdiv len 64
    if fld r 0 0 8 == 0 || 7 < fld r 0 0 8 || lim < next || sha3Bytes (toBytes pay len) != fld r 32 0 256 then none
    else (streamRecs g c body lim n next).map (fun l => (r, pay) :: l)

/-- A payload read back (Table 09-1); `root` tells the history of the sampler page. -/
def payOf (g : Prog) (c : Ck) (root : Option RootImg) (r pay : Block) : CkPay :=
  match fld r 0 0 8 with
  | 1 => .desc (descOf pay)
  | 2 => .root (rootOf pay)
  | 3 => .sampler (sampPageOf pay ((root.map RootImg.histCount).getD 0) ((root.map RootImg.histHead).getD 0))
  | 4 => match g.tensors[1]? with
    | some t => let x := tableRow pay 0 t.fmt t.width 0; .feature t.fmt (recLen g c 4 / 65536) (x.codes ++ x.scales)
    | none => .feature 0 0 []
  | 5 => .body c.fmt (recLen g c 5) (bodyOf c.fmt c.w (fld r 2 0 5) pay)
  | 6 => .sketch ((List.range 256).map (fun i => bitsAt pay (256 * i) 256))
  | _ => .qsketch ((List.range (c.layers * c.groups)).map (fun i => bitsAt pay (256 * i) 256))

/-- The checkpoint of a stream, if every check of R306 holds: CHECK, STREAM_DIGEST, the commit record's CHECK and RECORDS_DIGEST, and every
payload digest. -/
def streamCk (g : Prog) (b : Block) : Option Ck :=
  let n := fld b 4 0 32
  let len := fld b 8 0 64
  let body := fld b 64 0 (8 * len)
  if fld b 0 0 32 != 1 || len < 128 || fld b 28 0 32 != crc32c (toBytes b 28 ++ toBytes (b >>> 256) 32) ||
     sha3Bytes (toBytes body len) != fld b 32 0 256 then none
  else match commitOf (body >>> (8 * (len - 128))) with
    | none => none
    | some c => match streamRecs g c body (len - 128) n 0 with
      | none => none
      | some l =>
        if sha3Bytes (l.flatMap (fun e => toBytes e.1 64)) != c.recsDigest || fld (body >>> (8 * (len - 128))) 36 0 32 != n || fld b 16 0 64 != c.sid then none
        else
          let root := (l.find? (fun e => fld e.1 0 0 8 == 2)).map (fun e => rootOf e.2)
          some { c with recs := l.map (fun e =>
            { kind := fld e.1 0 0 8, fmt := fld e.1 1 0 4, fill := fld e.1 2 0 5, lg := fld e.1 20 0 24, ix := fld e.1 24 0 32, check := fld e.1 28 0 32
              digest := fld e.1 32 0 256, bytes := recLen g c (fld e.1 0 0 8), pay := payOf g c root e.1 e.2 }) }

-- Checkpoint stores (R286).

/-- Byte strings one after the other: their length and their bytes. -/
def packSized (l : List (Nat × Block)) : Nat × Block := ((l.map (·.1)).sum, pack (l.map (fun e => (8 * e.1, e.2))))

/-- The areas of a polder's stores in Toe: the chunks of each store, then the record log of each (log entry 62). -/
def storeAreas (k : CkState) : List (Nat × Block) :=
  let all := k.store :: k.repl.map (·.2)
  let ckBytes (c : Ck) : List (Nat × Block) := c.recs.map (fun r => (64, ckRecBytes c.sid c.epoch c.seq r)) ++ [(128, commitBytes c)]
  let begun (b : Nat × Nat × Nat) : Nat × Block := (64, pack [(8, 14), (24, 0), (32, b.2.1), (64, b.1), (32, b.2.2)])
  all.map (fun st => packSized (st.chunks.map (fun c => (c.bytes, (payBytes c.pay).2)))) ++
    all.map (fun st => packSized (st.begins.map begun ++ st.cks.flatMap ckBytes))

/-- Page i of those areas, each of whole pages. -/
def storePage (k : CkState) (i : Nat) : Block :=
  ((storeAreas k).foldl (fun (a : Nat × Block) x => (a.1 + cdiv x.1 65536,
    if a.1 ≤ i && i < a.1 + cdiv x.1 65536 then (x.2 >>> (524288 * (i - a.1))) % 2 ^ 524288 else a.2)) (0, 0)).2

/-- A completion entry of 32 B (Table 14-10b). -/
def cqBytes (e : CqEntry) : Block :=
  image [(16, e.tag), (16, e.job), (8, e.status), (8, e.opcode), (4, e.sq), (4, 0), flag e.event, flag e.recallShort, (5, 0), flag e.phase,
    (16, e.sqHead), (16, e.resv), (32, e.detail), (128, e.result)]

/-- A token ring entry of 16 B (Table 07-8). -/
def tokBytes (e : TokEntry) : Block :=
  image [(32, e.tok), (32, e.seq), flag e.lpValid, flag e.draft, flag e.eos, flag e.stop, flag e.last, flag e.short, flag e.first, (8, 0), flag e.phase,
    (16, e.logprob), (32, e.step)]

/-- A query's results, 32 B each (Table 08-10). -/
def resultFields (rs : List (VHit × F32)) : List (Nat × Nat) :=
  rs.flatMap (fun r => [(64, r.1.id), (24, r.1.list), (8, 0), (32, r.1.serial), (16, r.1.dist), (16, 0), (32, r.2.toNat), (64, 0)])

/-- ENERGY_REPORT entries of 16 B: identifier and mJ (R347). -/
def energyFields (l : List (Nat × Nat)) : List (Nat × Nat) := l.flatMap (fun e => [(16, e.1), (48, 0), (64, e.2)])

/-- A fault record as its 64 B (Table 13-10). -/
def faultBytes (r : FaultRec) : Block :=
  r.seq % 2 ^ 64 + at8 8 (r.time % 2 ^ 64) + at8 16 (r.unit % 256) + at8 18 (r.index % 65536) + at8 20 (r.pol % 256) + at8 21 (r.fault % 256) +
  at8 22 (r.action % 256) + at8 23 (b2n r.src + 2 * b2n r.env) + at8 24 (r.count % 2 ^ 32) + at8 32 (r.detail % 2 ^ 256)

/-- A byte string of 64 B records in order. -/
def recsBytes : List FaultRec → Block
  | [] => 0
  | r :: t => faultBytes r + at8 64 (recsBytes t)

/-- A quote as its 7,688 B (Table 12-6). -/
def quoteBytes (q : Quote) : Block :=
  let d (at_ v : Nat) : Block := at8 at_ (v % 2 ^ 256)
  let body : Block :=
    1 + at8 4 q.kind + at8 5 (b2n q.pending + 2 * b2n q.debugOpen + 4 * b2n q.sealed + 8 * b2n q.kem) + at8 6 q.polder + at8 7 q.profile +
    d 8 q.nonce + d 40 q.deviceId + at8 72 (q.moduleId % 4096 + 4096 * b2n q.idValid) + at8 76 (q.fwSvn % 2 ^ 32) + at8 80 (q.time % 2 ^ 64) +
    d 88 q.romDigest + d 120 q.fwDigest + d 152 q.pendingDigest + d 184 q.configDigest + d 216 q.polderDigest + d 248 q.modelDigest +
    d 280 q.kemDigest + at8 312 (q.keyEpoch % 2 ^ 32) + at8 316 (q.bbEpoch % 2 ^ 32) + d 320 q.tenant
  body + at8 352 (q.signature % 2 ^ 19360) + at8 2772 (q.kemKey % 2 ^ 9472) + at8 3956 (q.endorsedKey % 2 ^ 10496) + at8 5268 (q.endorsement % 2 ^ 19360)

/-- The result buffer as a byte string (R395). -/
def bufBytes (b : WBuf) : Block :=
  match b with
  | .empty => 0
  | .faults l => recsBytes l
  | .quote q => quoteBytes q

-- Culvert messages (R465 to R473).

/-- An ownership body of 32 B (R469). -/
def ownBytes (ty : OwnMsg) (b : OwnBody) : Block :=
  b.sid % 2 ^ 64 + at8 8 (b.epoch % 2 ^ 32) + (match ty with
    | .offer => at8 12 (b.leaseMs % 65536) + at8 14 (b.guardMs % 65536) + at8 16 (b.pages % 2 ^ 32) + at8 21 (b.cls.code + 2 * b2n b.sparse) +
        at8 22 (b.slot % 256) + at8 24 (b.ctxMax % 2 ^ 32)
    | .abort => at8 20 (b.status % 256)
    | .claim => at8 24 (b.handle % 2 ^ 64)
    | .assertReply => at8 28 (b.holder % 4096 + 2 ^ 15 * b2n b.ownerValid)
    | _ => 0)

/-- A PAGE message: its header of 32 B (Table 07-9), then its data. -/
def pageBytes (b : PageMsg) : Block :=
  pack [(64, b.sid), (32, b.h), (32, b.pseq), (8, b.kind), (4, b.fmt), (4, 0), (5, b.fill), (3, 0), (8, 0), (32, b.lg), (32, b.ix), (32, b.len)] +
  at8 32 (match b.kind with
    | 1 => pack (bodyFields b.fmt (fullRows b.rows))
    | 2 => (b.root.map rootBytes).getD 0
    | 3 => (b.samp.map sampBytes).getD 0
    | _ => pack (tensorFields b.featFmt [featRowOf b.featFmt b.feat]))

/-- A power message of 24 B (Table 11-6). -/
def powerBytes (x : PowerMsg) : Block :=
  image [(8, x.kind), (8, 0), (16, x.group), (16, x.watts), (16, x.offerMs), (32, x.nonce), (12, x.src), (20, 0), (64, x.sendNs)]

/-- An ANNOUNCE body of 64 B (R473). -/
def announceBytes (x : Announce) : Block :=
  x.domain % 65536 + at8 2 (x.id % 4096 + 2 ^ 15 * b2n x.valid) + at8 8 (x.serial % 2 ^ 64) + at8 16 (x.v6 % 2 ^ 128) + at8 32 (x.v4 % 2 ^ 32) +
  at8 36 (x.mac % 2 ^ 48) + at8 42 (x.ports % 256) + at8 43 (x.level % 256)

/-- The body of a message (Table 16-6). -/
def msgBytes : Msg → Block
  | .own ty b => ownBytes ty b
  | .page b => pageBytes b
  | .pageAck sid h pseq => pack [(64, sid), (32, h), (32, pseq)]
  | .journal rs => pack (rs.map (fun r => (640, jrecBytes r)))
  | .journalAck n => n % 2 ^ 64
  | .keepalive => 0
  | .replDigests _ _ _ ds => pack (ds.map (fun d => (256, d)))
  | .replLacks bs => pack (bs.map flag)
  | .replChunk d n p => pack [(256, d), (8 * n, (payBytes p).2)]
  | .replRecords sid epoch seq rs => pack (rs.map (fun r => (512, ckRecBytes sid epoch seq r)))
  | .replCommit c => commitBytes c
  | .replAck sid epoch seq failed => pack [(64, sid), (32, epoch), (32, seq), (8, b2n failed)]
  | .tkHello q ct => quoteBytes q + at8 7688 ct
  | .power x => powerBytes x
  | .announce x => announceBytes x

/-- A culvert header of 32 B with its CHECK, before a payload (Table 16-5). -/
def headBytes (h : CulHead) (last ece : Bool) (seg psn msg ackPsn len : Nat) (payload : Block) : Block :=
  let lo := pack [(4, 1), (4, h.ftype), (1, h.lane), flag h.keygen.isSome, flag last, flag ece, (1, h.keygen.getD 0), (3, 0), (12, h.src), (4, h.srcPol),
    (12, h.dst), (4, h.dstPol), (8, h.ty), (8, seg), (32, psn), (32, msg), (16, len), (16, 0), (32, ackPsn)]
  lo + at8 24 (crc32c (toBytes lo 24 ++ toBytes 0 4 ++ toBytes payload len))

-- Vector indexes (chapter 08).

-- The objects of Table 08-3 as the OBJ of an index page.
def objCent : Nat := 0
def objList : Nat := 1
def objSegTab : Nat := 2
def objTomb : Nat := 3
def objLog : Nat := 4
def objTail : Nat := 5
def objSealed : Nat := 6

/-- RS, the bytes of a record (R257). -/
def recBytes (d : VDef) : Nat := 16 + d.codeBits / 8 + d.afBytes + (if d.tags then 32 else 0)

/-- RV_BYTES (R254). -/
def rvBytes (d : VDef) : Nat := if d.rvFmt == 0 then 2 * d.rvDim else d.rvDim

/-- A rerank or query vector from a byte offset on. -/
def vecAt (d : VDef) (b : Block) (o : Nat) : List Nat := (List.range d.rvDim).map (fun i => fld b (o + fmtBits d.rvFmt / 8 * i) 0 (fmtBits d.rvFmt))

/-- Input record k: ITEM_ID, CODE, FIELDS, TAGS, and with rerank slots the vector after it (R257, Table 08-4). -/
def recAt (d : VDef) (b : Block) (k : Nat) : VRec :=
  let o := k * (recBytes d + (if d.rrSlots == 0 then 0 else rvBytes d))
  let cb := d.codeBits / 8
  { id := fld b o 0 64, code := fld b (o + 16) 0 d.codeBits, fields := fld b (o + 16 + cb) 0 (8 * d.afBytes)
    tags := if d.tags then fld b (o + 16 + cb + d.afBytes) 0 256 else 0
    vec := if d.rrSlots == 0 then [] else vecAt d b (o + recBytes d) }

/-- An index definition block (Table 08-2). -/
def defOf (b : Block) : VDef :=
  { version := fld b 0 0 32, codeBits := fld b 4 0 16, afBytes := fld b 6 0 8, tags := flg b 7 0, lists := fld b 8 0 32, rvFmt := fld b 12 0 4
    nfields := fld b 13 0 8, rvDim := fld b 14 0 16, rrSlots := fld b 16 0 32, batchUs := fld b 20 0 16
    fields := (List.range 8).map (fun i => ⟨fld b (24 + i) 0 2, flg b (24 + i) 2, fld b (24 + i) 3 5⟩) }

/-- A filter block at a byte offset (Table 08-8). -/
def filterAt (b : Block) (o : Nat) : VFilter :=
  { nclause := fld b o 0 4, allEn := flg b (o + 1) 0, anyEn := flg b (o + 1) 1, noneEn := flg b (o + 1) 2
    clauses := (List.range 8).map (fun i => let c := o + 8 + 16 * i; ⟨fld b c 0 3, fld b (c + 1) 0 2, fld b (c + 8) 0 32, fld b (c + 12) 0 32⟩)
    tagAll := fld b (o + 136) 0 256, tagAny := fld b (o + 168) 0 256, tagNone := fld b (o + 200) 0 256 }

/-- A query block: code, filter block and query vector (R271). -/
def qblockOf (d : VDef) (b : Block) : VBlock := { code := fld b 0 0 d.codeBits, filter := filterAt b 512, vec := vecAt d b 1024 }

/-- A record of a segment (Table 08-4). -/
def itemFields (d : VDef) (it : VItem) : List (Nat × Nat) :=
  [(64, it.r.id), (32, it.serial), (32, it.rslot.getD 0xFFFFFFFF), (d.codeBits, it.r.code), (8 * d.afBytes, it.r.fields)] ++
  (if d.tags then [(256, it.r.tags)] else [])

/-- A segment: its header, whose CHECK is CRC-32C over the records, then the records (R258, Table 08-5). -/
def vsegBytes (d : VDef) (i l ver : Nat) (rs : List VItem) : Block :=
  let body := pack (rs.flatMap (itemFields d))
  pack [(32, l), (3, i), (13, 0), (16, rs.length), (32, (rs.head?.map VItem.serial).getD 0), (32, (rs.getLast?.map VItem.serial).getD 0), (64, ver),
    (32, crcNum body (rs.length * recBytes d))] + at8 64 body

/-- A tombstone table: 16 B per range, the first SERIAL, COUNT and DEL_VER (R263, log entry 71). -/
def tombBytes (ts : List VTomb) : Block := pack (ts.flatMap (fun t => [(32, t.first), (32, t.count), (64, t.ver)]))

/-- What page n of an index object holds: centroids and rerank vectors in order, tombstones, tails and sealed segments; a segment that is being
sealed lies in its new page too (Table 08-3). -/
def indexPage (x : VIndex) (i n : Nat) (pg : Page) : Block :=
  let segs := x.lists.flatMap (fun e => (e.2.sealed ++ e.2.tail ++ (e.2.upds.flatMap VUpd.segs) ++ (e.2.compact.elim [] VCompact.segs)).map (fun s => (e.1, s.page, s.segVer, s.recs)) ++
    e.2.seals.flatMap (fun z => (e.2.tail.filter (fun s => s.page == z.tail)).map (fun s => (e.1, z.page, e.2.ver, s.recs))))
  let tombs := x.lists.find? (fun e => e.2.tombPage == some n)
  match pg.owner with
  | .rerank _ => ((x.rr.map (fun e => at8 (rvBytes x.d * e.1) (packCodes (fmtBits x.d.rvFmt) e.2))).sum >>> (524288 * (n - x.rrPg))) % 2 ^ 524288
  | .index _ obj =>
    if obj == objCent then (pack (x.cents.map (fun c => (x.d.codeBits, c))) >>> (524288 * (n - x.centPg))) % 2 ^ 524288
    else if obj == objTomb then (tombs.map (fun e => tombBytes e.2.tombs)).getD 0
    else match segs.find? (fun e => e.2.1 == n) with
      | some (l, _, ver, rs) => vsegBytes x.d i l ver rs
      | none => pg.body
  | _ => pg.body

/-- Layer-groups of a model (chapter 06, Geometry). -/
def Geo.lgs (g : Geo) : Nat := g.layers * g.groups

/-- KV pages of a layer-group. -/
def kvIdx (g : Geo) (i lg : Nat) : Nat := i * g.lgs + lg

-- Pages of session space as they lie in memory.

/-- An address of session space: polder, page, byte 0 (Table 02-1). -/
def ssaOf (p : Fin 16) (n : Nat) : Nat := p.val * 2 ^ 46 + n * 65536

/-- The state root of a session of a polder (Tables 06-3 and 07-3). -/
def rootImg (p : Fin 16) (s : Sess) : RootImg :=
  { layers := s.geo.layers, groups := s.geo.groups, fmt := s.geo.fmt, qsValid := s.qsValid, w := s.geo.w, bpp := s.geo.bpp, bodyBytes := s.geo.bodyBytes
    sketchSsa := if s.sketchN == 0 then 0 else ssaOf p s.sketchPg, coarseSsa := if s.coarseN == 0 then 0 else ssaOf p s.coarsePg
    blocks := s.blocks, gen := s.gen, samplerSsa := ssaOf p s.sampPg, featureSsa := ssaOf p s.featPg, histCount := s.samp.hist.length
    histHead := s.samp.head, dmap := s.mapPgs.map (fun e => (e.1, ssaOf p e.2)) }

/-- The format of the feature row: that of the target's tensor 1 (R226). -/
def featFmt (q : Polder) (slot : Nat) : Nat := (((q.slots.get slot).bind (fun x => x.man.main.tensors[1]?)).map Tensor.fmt).getD 0

/-- A KV page descriptor of 32 B (Table 06-4). -/
def kvBytes (k : KvPage) : Block :=
  image [(64, k.body), (32, k.firstPos), (5, k.fill), flag k.family, flag k.sketched, (1, 0), (4, k.fmt), (4, 0), (16, k.layer), (8, k.group), (24, 0),
    (32, k.check), (32, k.commitStep), (32, 0)]

/-- The rows of a KV body as they lie in it; a row that nothing has written is zero. -/
def bodyRows (k : KvPage) : List KvRow :=
  let z (l : List Nat) : List Nat := l.map (fun _ => 0)
  match k.rows.head? with
  | none => []
  | some r => (List.range 16).map (fun t => (k.rows.get t).getD ⟨z r.2.k, z r.2.ks, z r.2.v, z r.2.vs⟩)

/-- A map page points at table pages, a table page holds descriptors (R194). -/
def kvMapBytes (p : Fin 16) (s : Sess) (n : Nat) : Block :=
  match s.tablePgs.find? (fun e => e.2 == n) with
  | some e => ((s.kv.filter (fun k => k.1 / 2048 == e.1)).map (fun k => at8 (32 * (k.1 % 2048)) (kvBytes k.2))).sum
  | none => match s.mapPgs.find? (fun e => e.2 == n) with
    | some e => ((s.tablePgs.filter (fun t => t.1 / 8192 == e.1)).map (fun t => at8 (8 * (t.1 % 8192)) (ssaOf p t.2))).sum
    | none => 0

/-- Sketch j of a session's sketch region, and of its coarse region: query sketches first, then the block sketches (R197). -/
def sketchAt (s : Sess) (j : Nat) : Nat :=
  let l := max 1 s.geo.lgs
  (s.sketch.get (kvIdx s.geo (j / 256 / l * 256 + j % 256) (j / 256 % l))).getD 0
def coarseAt (s : Sess) (j : Nat) : Nat :=
  let l := max 1 s.geo.lgs
  ((if j < l then s.querySk.get j else s.blockSk.get (kvIdx s.geo (j / l - 1) (j % l)))).getD 0

/-- What a page of session space holds, as its 65,536 bytes (R192 to R197, R226). Pages that the memory commands map, and those of indexes and
stores, hold what was written to them; pages of a model image hold its bytes in order (R162). -/
def pageContents (m : Mod) (p : Fin 16) (n : Nat) (pg : Page) : Block :=
  let q := m.pol[p]
  match pg.owner with
  | .sess idx role => match q.sess.get idx with
    | none => pg.body
    | some s => (match role with
      | .root => rootBytes (rootImg p s)
      | .sampler => sampBytes s.samp
      | .feature =>
        let f := featFmt q (((m.dir.get idx).map Desc.slot).getD 0)
        pack (tensorFields f [featRowOf f s.gen.feature]) >>> (524288 * (n - s.featPg))
      | .kvMap => kvMapBytes p s n
      | .sketch => pack ((List.range 2048).map (fun i => (256, sketchAt s (2048 * (n - s.sketchPg) + i))))
      | .coarse => pack ((List.range 2048).map (fun i => (256, coarseAt s (2048 * (n - s.coarsePg) + i))))
      | .body _ _ => ((s.kv.filter (fun e => e.2.body / 65536 % 2 ^ 30 == n)).map (fun e =>
          at8 (e.2.body % 65536) (pack (bodyFields s.geo.fmt (bodyRows e.2))))).sum) % 2 ^ 524288
  | .weights slot => imageAt q slot (q.pages.filter (fun e => e.2.owner == pg.owner && decide (e.1 < n))).length
  | .crestImage slot => imageAt q slot (q.pages.filter (fun e => e.2.owner == pg.owner && decide (e.1 < n))).length
  | .index i _ => ((q.vec.idx.get i).map (fun x => indexPage x i n pg)).getD pg.body
  | .rerank i => ((q.vec.idx.get i).map (fun x => indexPage x i n pg)).getD pg.body
  | .store _ => if pg.tier == .toe then storePage q.ck (q.pages.filter (fun e => e.2.tier == .toe && decide (e.1 < n) && (match e.2.owner with
      | .store _ => true
      | _ => false))).length else pg.body
  | _ => pg.body
where
  /-- Page i of a slot's weights image. -/
  imageAt (q : Polder) (slot i : Nat) : Block := (((q.slots.get slot).map Slot.img).getD 0 >>> (524288 * i)) % 2 ^ 524288

-- The board EEPROM: what the integrator wrote and what the module writes (R478, R486, R487), and HVL time messages (R463).

/-- n bytes of a block from an offset on. -/
def octets (b : Block) (o n : Nat) : Block := fld b o 0 (8 * n)

/-- A port's entry in the board record, from its offset (Table 16-8). -/
def portEntry (e : Block) (o : Nat) : PortBoard :=
  { mac := octets e o 6, vid := fld e (o + 6) 0 12, mode := fld e (o + 8) 0 2, macsec := flg e (o + 8) 2, prefix6 := octets e (o + 9) 1,
    pcpCtrl := octets e (o + 10) 1, pcpBulkLc := fld e (o + 11) 0 4, pcpBulkBe := fld e (o + 11) 4 4, prioMap := octets e (o + 12) 4,
    lcPcp := octets e (o + 16) 1, ipv4 := octets e (o + 20) 4, gw4 := octets e (o + 24) 4, ipv6 := octets e (o + 28) 16, gw6 := octets e (o + 44) 16,
    ckn := octets e (o + 60) 16, cak := octets e (o + 76) 32 }

/-- The board record at the EEPROM's offset 0; none where MAGIC or CHECK is wrong (R478, Table 16-8). -/
def boardOf (e : Block) : Option Board :=
  if octets e 0 4 != 0x52425343 || octets e 12 4 != crcNum (octets e 16 544) 544 then none
  else some { domain := octets e 6 2, culvertPorts := fld e 8 0 4, endurance := octets e 16 4, rdLimit := octets e 20 4, retentionDays := octets e 24 2
              ports := (List.range 4).map (fun k => portEntry e (48 + 128 * k)) }

/-- The provisioning block at offset 0x0400; none where MAGIC or CHECK is wrong (R486, Table 17-4). An anchor is its IPv6 and its IPv4 address. -/
def provOf (eeprom : Block) : Option Prov :=
  let e := octets eeprom 0x400 368
  if octets e 0 4 != 0x56525050 || octets e 8 4 != crcNum (octets e 16 352) 352 then none
  else some { op := fld e 7 0 2, fmtSerial := octets e 16 8, fmtNonce := octets e 24 4
              anchors := (List.range (min (fld e 6 0 5) 16)).map (fun k => (octets e (32 + 20 * k) 16, octets e (48 + 20 * k) 4)) }

/-- The identity block as the module writes it (R487, Table 17-5). -/
def identBytes (x : Ident) : Block :=
  let lo := pack [(32, 0x44494D43), (16, 1), (16, x.domain), (12, x.id), (3, 0), flag x.valid, (16, 0)]
  let hi := pack [(64, x.serial), (64, 0)]
  lo + at8 12 (crc32c (toBytes lo 12 ++ toBytes hi 16)) + at8 16 hi

/-- The identity block read; none where MAGIC or CHECK is wrong. -/
def identOf (e : Block) : Option Ident :=
  if octets e 0 4 != 0x44494D43 || octets e 12 4 != crc32c (toBytes e 12 ++ toBytes (octets e 16 16) 16) then none
  else some { domain := octets e 6 2, id := fld e 8 0 12, valid := flg e 9 7, serial := octets e 16 8 }

/-- The 16 B of a time message (R463). -/
def timeMsgOf (b : Block) : TimeMsg := { refNs := octets b 0 8, seq := octets b 8 4, refLocked := flg b 12 0 }

end Sys2Proof.Machine
end

