-- ==== Sys2Proof/Machine/Ops.lean ====
section
/-! DEFINITION. The named operations every command uses: polder and counter updates, interrupts (R425), completions and
events (R415 to R423), mailboxes (R404), the session directory (R85 to R90) and the journal's records (R110). -/

namespace Sys2Proof.Machine

-- Status codes (Table 14-12).
def stOk : Nat := 0x00
def stPartial : Nat := 0x01
def stRetry : Nat := 0x02
def stNoOwner : Nat := 0x03
def stStale : Nat := 0x04
def stTierLost : Nat := 0x05
def stQuota : Nat := 0x06
def stCtxLimit : Nat := 0x07
def stFenced : Nat := 0x08
def stNotAttestable : Nat := 0x09
def stKeyEpoch : Nat := 0x0A
def stPoliced : Nat := 0x0B
def stAborted : Nat := 0x0C
def stBadCmd : Nat := 0x0D
def stPhaseLost : Nat := 0x0E
def stBusy : Nat := 0x0F
def stRecallShort : Nat := 0x10

/-- A polder number from a natural number. -/
def pn (n : Nat) : Fin 16 := ⟨n % 16, Nat.mod_lt n (by decide)⟩

/-- The module with one polder changed. -/
def modPol (m : Mod) (p : Fin 16) (f : Polder → Polder) : Mod := { m with pol := m.pol.set p (f m.pol[p]) }

/-- A polder counter raised (R428). -/
def pinc (m : Mod) (p : Fin 16) (k n : Nat) : Mod := modPol m p (fun q => { q with ctr := q.ctr.inc k n })

/-- A polder counter raised by one when a condition holds. -/
def pincIf (m : Mod) (p : Fin 16) (c : Bool) (k : Nat) : Mod := if c then pinc m p k 1 else m

/-- A module counter raised. -/
def minc (m : Mod) (k n : Nat) : Mod := { m with ctr := m.ctr.inc k n }

/-- Something leaves the module. -/
def emit (m : Mod) (o : Out) : Mod := { m with out := m.out ++ [o] }

/-- The next free choice (log entry 5). -/
def takeHint (m : Mod) : Nat × Mod := (Config.hint m.free, { m with free := m.free + 1 })

/-- The polders of the profile in force: 16, 4, 2 or 1 (R90, R180, R414). -/
def profilePolders (m : Mod) : Nat :=
  match m.front.profile.read (fun a _ _ => a) with
  | 0 => 16 | 1 => 4 | 2 => 2 | _ => 1

/-- A polder's weight in an arbiter (R320). -/
def wfqWeight (m : Mod) (p : Fin 16) (arb : Nat) : Nat := max 1 ((m.pol[p].wts.get arb).getD 1)

/-- An arbiter's state, all zero before its first unit. -/
def arbOf (m : Mod) (key : Nat) : Arb := (m.net.arbs.get key).getD ⟨0, []⟩

/-- The finish time of a polder's next candidate (R318). -/
def wfqStamp (a : Arb) (p len w : Nat) : Nat := max a.v ((a.fin.get p).getD 0) + len * 65536 / w

/-- A unit stamped and served by an arbiter whose resource is free (R318); WFQ_SERVED counts it. -/
def wfqServe (m : Mod) (p : Fin 16) (arb len : Nat) : Mod :=
  let a := arbOf m (28 + arb)
  let f := wfqStamp a p.val len (wfqWeight m p arb)
  pinc { m with net := { m.net with arbs := m.net.arbs.put (28 + arb) ⟨f, a.fin.put p.val f⟩ } } p (Ctr.wfqServed arb) len

/-- A fence mask's bit (Table 15-7). -/
def fencedBit (t : Tri Nat) (i : Nat) : Bool := bit t.orRead i

/-- An array is inside a cofferdam of its own, or of its VCORE domain (Table 13-3). -/
def arrayFenced (m : Mod) (a : Nat) : Bool := fencedBit m.fence.array a || fencedBit m.fence.vdom (a / 16)

/-- A polder's pump is fenced (Table 13-3). -/
def pumpFenced (m : Mod) (p : Fin 16) : Bool := fencedBit m.fence.units (16 + p.val)

/-- A polder's slice masks as read. -/
def Polder.slice (q : Polder) : Masks := q.masks.read (fun a _ _ => a)

/-- The arrays of a polder in ascending global number; position is the rank (R172). -/
def Polder.arrayList (q : Polder) : List Nat :=
  ((List.range 16).filter (fun g => bit q.slice.arr g)).flatMap (fun g => (List.range 16).map (fun i => 16 * g + i))

/-- A polder vector's interrupt (R425): sent when it is below 32 and its PINT_EN bit is set. -/
def polIrqOn (m : Mod) (p : Fin 16) (v : Nat) : Bool := decide (v < 32) && bit m.pol[p].pintEn v

def polIrq (m : Mod) (p : Fin 16) (v : Nat) : Mod :=
  if polIrqOn m p v then emit m (.irq (32 * p.val + v)) else m

/-- A management vector's interrupt, message 512 + n (R425). -/
def mgmtIrq (m : Mod) (n : Nat) : Mod := if bit m.front.intEn n then emit m (.irq (512 + n)) else m

/-- A ring index advanced to a written 16-bit value (R413). -/
def advance16 (old v : Nat) : Nat := old + (v % 65536 + 65536 - old % 65536) % 65536

def Sq.depth (s : Sq) : Nat := 2 ^ s.order
def Cq.depth (c : Cq) : Nat := 2 ^ c.order

/-- The slots of a completion ring that are reserved or hold entries not yet consumed (R414). -/
def Cq.used (c : Cq) : Nat := c.inflight + (c.posted - c.head)

/-- PHASE of entry k (R417). -/
def phaseOf (k depth : Nat) : Bool := (k / depth) % 2 == 0

/-- M2H records of a sealed polder are numbered from 1 in write order, one counter per polder (R372). -/
def m2h (m : Mod) (p : Fin 16) (n : Nat) : Mod :=
  modPol m p (fun q => if q.sealed then { q with sec := { q.sec with m2hCtr := q.sec.m2hCtr + n } } else q)

/-- A sealed record (R371, R372): what stands before the ciphertext in the clear, ciphertext and tag. The IV is STREAM, with the polder and the
direction, then COUNTER; the clear bytes and the record's host address are authenticated with it. -/
def sealedRec (key stream ctr : Nat) (clear : List Nat) (addr : Nat) (msg : List Nat) : List Nat × List Nat :=
  gcmSeal key (toBytes stream 4 ++ toBytes ctr 8) (clear ++ toBytes addr 8) msg

/-- A sealed record opened (R372, R373): none where it is not authentic. -/
def openRec (key stream ctr : Nat) (clear : List Nat) (addr : Nat) (c tag : List Nat) : Option (List Nat) :=
  gcmOpen key (toBytes stream 4 ++ toBytes ctr 8) (clear ++ toBytes addr 8) c tag

/-- STREAM of the records a polder reads, H2M (R372). -/
def h2mStream (p : Nat) : Nat := p % 256

/-- Bytes of a block from an offset on. -/
def bytesAt (b : Block) (o n : Nat) : List Nat := toBytes (b >>> (8 * o)) n

/-- A submission slot as it is read: the entry of a plain polder, or in a sealed one the entry of an authentic slot, with its COUNTER
(Table 12-8). -/
def slotIn (q : Polder) (p addr : Nat) (slot : Block) : Nat × Option Block :=
  if !q.sealed then (0, some (slot % 2 ^ 512))
  else
    let ctr := fld slot 0 0 64
    (ctr, (openRec q.sec.h2m (h2mStream p) ctr (bytesAt slot 0 16) addr (bytesAt slot 16 64) (bytesAt slot 80 16)).map ofBytes)

/-- A buffer that a command reads: its bytes, or in a sealed polder those of an authentic bulk record whose COUNTER lies above that of the slot
before the command's and below the command's own (R371, R372). -/
def bulkIn (q : Polder) (p addr : Nat) (t : Taken) (b : Block) : Option Block :=
  if !q.sealed then some b
  else
    let ctr := fld b 0 0 64
    let len := fld b 8 0 32
    if decide (ctr ≤ t.ctrBefore) || decide (t.ctr ≤ ctr) then none
    else (openRec q.sec.h2m (h2mStream p) ctr (bytesAt b 0 32) addr (bytesAt b 32 len) (bytesAt b (32 + cdiv len 16 * 16) 16)).map ofBytes

/-- STREAM of the records a polder writes (R372). -/
def m2hStream (p : Nat) : Nat := p % 256 + 256

/-- A ring entry as it is written: in a sealed polder a sealed slot under K_M2H with the next COUNTER (Table 12-8). -/
def slotOut (q : Polder) (p addr bytes : Nat) (b : Block) : Block :=
  if !q.sealed then b
  else
    let ctr := q.sec.m2hCtr + 1
    let clear := toBytes ctr 16
    let r := sealedRec q.sec.m2h (m2hStream p) ctr clear addr (toBytes b bytes)
    ofBytes (clear ++ r.1 ++ r.2)

/-- A buffer as it is written: in a sealed polder a sealed bulk record, a 32 B header with COUNTER and LEN before it (R371). Its bytes and length. -/
def bulkOut (q : Polder) (p addr bytes : Nat) (b : Block) : Nat × Block :=
  if !q.sealed then (bytes, b)
  else
    let ctr := q.sec.m2hCtr + 1
    let clear := toBytes ctr 8 ++ toBytes bytes 4 ++ List.replicate 20 0
    let r := sealedRec q.sec.m2h (m2hStream p) ctr clear addr (toBytes b bytes)
    let out := clear ++ padBlock r.1 ++ r.2
    (out.length, ofBytes out)

/-- A polder's outbound write through arbiter 4: its payload bytes in writes of at most 4,096 (Table 10-4). -/
def hostServe (m : Mod) (p : Fin 16) (bytes : Nat) : Mod :=
  let m1 := (List.range (bytes / 4096)).foldl (fun m _ => wfqServe m p 4 4096) m
  if bytes % 4096 == 0 then m1 else wfqServe m1 p 4 (bytes % 4096)

/-- A polder's write of a buffer to companion memory. -/
def hostOut (m : Mod) (p : Fin 16) (addr bytes : Nat) (b : Block) : Mod :=
  let r := bulkOut m.pol[p] p.val addr bytes b
  emit (hostServe (m2h m p 1) p bytes) (.host addr r.1 r.2)

/-- The address of entry k of a completion ring (R417, Table 12-8). -/
def cqAddr (q : Polder) (r : Cq) (k : Nat) : Nat := r.base + (if q.sealed then 64 else 32) * (k % 2 ^ r.order)

/-- An entry posted to a completion ring, with the ring's interrupt moderation (R417, R426). -/
def postCq (m : Mod) (p c : Fin 16) (mk : Nat → Cq → CqEntry) : Mod :=
  let q := m.pol[p]
  let r := q.cqs[c]
  let e := slotOut q p.val (cqAddr q r r.posted) 32 (cqBytes (mk r.posted r))
  let n := r.unsig + 1
  let fire := decide (max 1 r.modCount ≤ n)
  let r' := { r with posted := r.posted + 1, unsig := if fire then 0 else n,
                     oldest := if r.unsig == 0 then q.clk else r.oldest }
  let m0 := m2h (modPol m p (fun q => { q with cqs := q.cqs.set c r', ctr := q.ctr.inc (Ctr.cmdDone c) 1 })) p 1
  let m1 := emit (wfqServe m0 p 4 32) (.cq p c r.posted e)
  if fire then
    let m2 := pincIf m1 p (polIrqOn m1 p r.vector) (Ctr.cqIrq c)
    polIrq m2 p r.vector
  else m1

/-- The record of a command in flight, by TAG. -/
def findTaken (q : Polder) (tag : Nat) : Option Taken := q.taken.find? (fun t => t.tag == tag)

/-- A command's result: status, RECALL_SHORT flag, DETAIL and RESULT bytes 16 to 31 (R417). -/
structure Res where
  status : Nat
  short : Bool
  detail : Nat
  result : Block
deriving DecidableEq, Repr

def rOk (result : Block) : Res := ⟨stOk, false, 0, result⟩
def rSt (status : Nat) : Res := ⟨status, false, 0, 0⟩
/-- BAD_CMD with the byte offset of the first field at fault (Table 14-10b). -/
def rBad (byte : Nat) : Res := ⟨stBadCmd, false, byte, 0⟩
/-- BAD_CMD with no field singled out. -/
def rBadNone : Res := ⟨stBadCmd, false, 0xFFFFFFFF, 0⟩
/-- QUOTA naming the tier refused: 0 Crest, 1 Berm, 2 Toe, 3 directory or another limit. -/
def rQuota (tier : Nat) : Res := ⟨stQuota, false, tier, 0⟩
/-- A handle, an epoch and a count at RESULT bytes 16, 24 and 28 (R95). -/
def rSess (handle epoch n : Nat) : Res := rOk (handle % 2 ^ 64 + at8 8 (epoch % 2 ^ 32) + at8 12 (n % 2 ^ 32))

/-- The completion of a command in flight: its slot is used, its engine operation given back, its entry posted
(R415, R419, R420). Without such a command nothing happens. -/
def complete (m : Mod) (p : Fin 16) (tag : Nat) (r : Res) : Mod :=
  match findTaken m.pol[p] tag with
  | none => m
  | some t =>
    let c := pn t.cq
    let m1 := modPol m p (fun q => { q with
      taken := q.taken.filter (fun x => x.tag != tag)
      ops := if t.engine then q.ops - 1 else q.ops
      cqs := q.cqs.set c { q.cqs[c] with inflight := q.cqs[c].inflight - 1 }
      ctr := q.ctr.inc (Ctr.cmdStatus r.status) 1 })
    let m2 := pincIf m1 p (r.status == stStale) Ctr.staleEpochCnt
    postCq m2 p c (fun k cq =>
      { tag := t.tag, job := t.job, status := r.status, opcode := t.opcode, sq := t.sq, event := false,
        recallShort := r.short, phase := phaseOf k cq.depth, sqHead := m2.pol[p].sqs[pn t.sq].head % 65536, resv := 0,
        detail := r.detail, result := r.result })

/-- An allocation or pin refused with QUOTA counts for its tier (Table 02-11). -/
def countRefused (m : Mod) (p : Fin 16) (tier : Nat) : Mod := if tier < 3 then pinc m p (Ctr.quotaRefused tier) 1 else m

/-- A list of commands completed with one result. -/
def completeAll (m : Mod) (p : Fin 16) (tags : List Nat) (r : Res) : Mod :=
  tags.foldl (fun m t => complete m p t r) m

/-- The commands taken before one (R419). -/
def takenBefore (q : Polder) (t : Taken) : List Taken := q.taken.takeWhile (fun (x : Taken) => x.tag != t.tag)

/-- A taken command still held by AFTER_PREV: an earlier command of its ring has not completed (R419). -/
def afterHeld (q : Polder) (t : Taken) : Bool := t.after && (takenBefore q t).any (fun (x : Taken) => x.sq == t.sq)

/-- A taken command that its session has seen: started, and not waiting for the step boundary that lets it change the session
(R419, Table 03-13). A session that SESS_RETIRE has moved to RETIRING has seen it. -/
def applied (q : Polder) (t : Taken) : Bool := t.started && q.waits.all (fun (w : Wait) => w.tag != t.tag || w.what == .retire)

/-- A command of one opcode that its row may now apply (R419): taken, not yet applied, its AFTER_PREV condition met, and
no earlier command of the same session left unapplied. SESS_QUERY changes no session and never waits for one; a command
that AFTER_PREV still holds in another ring holds no later one ("Other rings go on", DEDUCED, log 13). -/
def startable (q : Polder) (tag : Nat) (opcode : Nat) : Option Taken :=
  match findTaken q tag with
  | none => none
  | some t =>
    let sessFree := match t.sess with
      | none => true
      | some s => opcode == 0x18 || (takenBefore q t).all (fun (x : Taken) => x.sess != some s || applied q x || (x.sq != t.sq && afterHeld q x))
    if t.opcode == opcode && !t.started && !afterHeld q t && sessFree then some t else none

/-- A ring command's row: the command is applied, or nothing happens when it is not there to apply. -/
def ringRow (m : Mod) (p : Fin 16) (tag opcode : Nat) (f : Taken → Mod → Mod) : Mod :=
  match startable m.pol[p] tag opcode with
  | none => m
  | some t => f t (modPol m p (fun q => { q with
      taken := updWhere q.taken (fun x => x.tag == tag) (fun x => { x with started := true }) }))

/-- A ring command's row where one opcode has several rows: it applies only to an entry of its form. -/
def ringRowIf (m : Mod) (p : Fin 16) (tag opcode : Nat) (form : Block → Bool) (f : Taken → Mod → Mod) : Mod :=
  match findTaken m.pol[p] tag with
  | none => m
  | some t => if form t.entry then ringRow m p tag opcode f else m

/-- An event posted (R423, Table 14-14). -/
def postEvent (m : Mod) (p : Fin 16) (e : Event) : Mod :=
  let m1 := pinc m p Ctr.events 1
  postCq m1 p 0 (fun k cq =>
    { tag := 0, job := 0, status := stOk, opcode := e.code, sq := 0, event := true, recallShort := false,
      phase := phaseOf k cq.depth, sqHead := e.epoch % 65536, resv := e.epoch / 65536 % 65536,
      detail := e.life + e.other % 4096 * 65536, result := e.handle % 2 ^ 64 + at8 8 (e.sid % 2 ^ 64) })

/-- Waiting events in order: discarded while ring 0 is disabled, posted while it has a slot no command has reserved. -/
def flushEventsN (m : Mod) (p : Fin 16) : Nat → Mod
  | 0 => m
  | n + 1 =>
    match m.pol[p].events with
    | [] => m
    | e :: rest =>
      let r := m.pol[p].cqs[(0 : Fin 16)]
      let m1 := modPol m p (fun q => { q with events := rest })
      if !r.en then flushEventsN (pinc m1 p Ctr.eventLost 1) p n
      else if r.used < r.depth then flushEventsN (postEvent m1 p e) p n
      else m

def flushEvents (m : Mod) (p : Fin 16) : Mod := flushEventsN m p m.pol[p].events.length

/-- An unsolicited event of a polder (R423). -/
def raiseEvent (m : Mod) (p : Fin 16) (e : Event) : Mod :=
  flushEvents (modPol m p (fun q => { q with events := q.events ++ [e] })) p

/-- A mailbox read. -/
def getMbx (m : Mod) : Box → Mbx
  | .mgmt => m.front.mbx
  | .pol p => m.pol[p].mbx

/-- A mailbox changed. -/
def modMbx (m : Mod) (b : Box) (f : Mbx → Mbx) : Mod :=
  match b with
  | .mgmt => { m with front := { m.front with mbx := f m.front.mbx } }
  | .pol p => modPol m p (fun q => { q with mbx := f q.mbx })

/-- The end of a mailbox command: RES, then STATUS, then BUSY 0 and DONE 1, then the vector when IRQ is set (Table 14-3). -/
def mbxDone (m : Mod) (b : Box) (status : Nat) (res : Block) : Mod :=
  let x := getMbx m b
  let m1 := modMbx m b (fun x => { x with res := res, status := status, busy := false, done := true, started := false })
  match b with
  | .mgmt => let m2 := minc m1 Ctr.mbxCmds 1
             if bit x.runCmd 13 then mgmtIrq m2 0 else m2
  | .pol p => let m2 := pinc m1 p Ctr.polMbxCmds 1
              if bit x.runCmd 13 then polIrq m2 p 31 else m2

/-- A mailbox command's row: the accepted command of this opcode runs on the argument as it stood at GO (R404), once. Within an
activation window the commands of polder mailboxes wait, but for quotes (Table 17-11). -/
def mbxRow (m : Mod) (b : Box) (opcode : Nat) (f : Block → Mod → Mod) : Mod :=
  let x := getMbx m b
  if x.busy && !x.started && !m.sys.wd.coresWedged && !m.sys.wd.sealed && x.runCmd % 256 == opcode && (b == .mgmt || m.sys.fw.act.isNone || opcode == 0x86) then
    f x.runArg (modMbx m b (fun x => { x with started := true }))
  else m

/-- A mailbox command's row where one opcode has several rows: it applies only to an argument of its form. -/
def mbxRowIf (m : Mod) (b : Box) (opcode : Nat) (form : Block → Bool) (f : Block → Mod → Mod) : Mod :=
  if form (getMbx m b).runArg then mbxRow m b opcode f else m

/-- The session handle of a directory entry (Table 03-1). -/
def handleOf (idx pol gen : Nat) : Nat := idx + pol * 2 ^ 24 + gen * 2 ^ 32

/-- A directory entry's descriptor. -/
def desc? (m : Mod) (idx : Nat) : Option Desc := m.dir.get idx

def modDesc (m : Mod) (idx : Nat) (f : Desc → Desc) : Mod := { m with dir := m.dir.upd idx f }

/-- A polder's session contents. -/
def modSess (m : Mod) (p : Fin 16) (idx : Nat) (f : Sess → Sess) : Mod :=
  modPol m p (fun q => { q with sess := q.sess.upd idx f })

/-- Live entries of a polder: OWN other than NONE (R90). -/
def liveEntries (m : Mod) (p : Nat) : Nat := (m.dir.filter (fun e => e.2.pol == p && e.2.own != .none)).length

/-- The directory share of a polder (R90). -/
def dirShare (m : Mod) : Nat := 16777216 / profilePolders m

/-- A descriptor found by SESSION_ID among a polder's descriptors; a forwarding entry gives way to any other (R87). -/
def findSid (m : Mod) (p sid : Nat) : Option (Nat × Desc) :=
  match m.dir.find? (fun e => e.2.sid == sid && e.2.pol == p && e.2.own != .none && e.2.own != .relinquished) with
  | some e => some e
  | none => m.dir.find? (fun e => e.2.sid == sid && e.2.pol == p && e.2.own != .none)

/-- A descriptor found by SESSION_ID anywhere on the module; there is at most one but for a forwarding entry (R87). -/
def findSidAny (m : Mod) (sid : Nat) : Option (Nat × Desc) :=
  match m.dir.find? (fun e => e.2.sid == sid && e.2.own != .none && e.2.own != .relinquished) with
  | some e => some e
  | none => m.dir.find? (fun e => e.2.sid == sid && e.2.own != .none)

/-- A free directory entry taken for a descriptor: its INDEX is open (R90, log entry 5); the entry keeps its GEN. -/
def takeEntry (m : Mod) (mk : Nat → Desc) : Option (Nat × Mod) :=
  let (h, m1) := takeHint m
  match freeFrom h 16777216 (fun i => match m1.dir.get i with
      | none => true
      | some d => d.own == .none) with
  | none => none
  | some i =>
    let gen := match m1.dir.get i with
      | some d => d.gen
      | none => Config.firstGen i m.jr.block
    some (i, { m1 with dir := m1.dir.put i { mk i with gen := gen } })

/-- An entry freed: its GEN is raised (R86). -/
def freeEntry (m : Mod) (idx : Nat) : Mod := modDesc m idx (fun d => Desc.blank ((d.gen + 1) % 2 ^ 32))

/-- A descriptor that named a session freed, and counted (Table 03-14). -/
def freeDesc (m : Mod) (p : Fin 16) (idx : Nat) : Mod := pinc (freeEntry m idx) p Ctr.sessRetired 1

/-- The module's own discovery identifier (R438), 0 while none is assigned. -/
def selfId (m : Mod) : Nat := m.front.modId.getD 0

/-- The next JSEQ; a block of 2^24 is recorded in the Toe module reserve before its first number is used (R110). -/
def takeJseq (j : Journal) : Nat × Journal :=
  (j.next, { j with next := j.next + 1, block := max j.block ((j.next + 1) / 2 ^ 24) })

def recOf (kind pol : Nat) (d : Desc) : JRec :=
  { jseq := 0, src := 0, pol := pol, kind := kind, desc := d, sid := d.sid, epoch := d.epoch, step := d.step, toks := [] }

/-- A DESC or FREE record of a directory entry joins the records waiting to be sent, replacing an unsent one of the same descriptor (R111). -/
def queueRec (m : Mod) (idx : Nat) (r : JRec) : Mod :=
  if m.jr.buddy.isNone then m else
  let same (x : JSent) : Bool := !x.sent && decide (x.r.kind < 3) && x.idx == idx && x.r.sid == r.sid
  let since := match m.jr.q.find? same with
    | some x => x.since
    | none => m.hvl
  { m with jr := { m.jr with q := m.jr.q.filter (fun x => !same x) ++ [⟨idx, r, since, false⟩] } }

/-- A changed descriptor is journaled (R110) and marked JDIRTY. -/
def journalDesc (m : Mod) (idx : Nat) : Mod :=
  match desc? m idx with
  | none => m
  | some d => queueRec (modDesc m idx (fun d => { d with jdirty := m.jr.buddy.isSome })) idx (recOf 1 d.pol d)

/-- A freed session is journaled. -/
def journalFree (m : Mod) (idx : Nat) (d : Desc) : Mod := queueRec m idx (recOf 2 d.pol d)

/-- The descriptor changed and journaled. -/
def changeDesc (m : Mod) (idx : Nat) (f : Desc → Desc) : Mod := journalDesc (modDesc m idx f) idx

end Sys2Proof.Machine
end

