-- ==== Sys2Proof/Machine/Tiers.lean ====
section
/-! DEFINITION. Pages and dikes: occupancy, allocation, heat, promotion, demotion, clean copies and the spillway
(R37 to R61), over the page table of a polder. -/

namespace Sys2Proof.Machine

/-- Tier order: 0 Crest, 1 Berm, 2 Toe, 3 none (Table 02-3). -/
def tierNo : Tier → Nat
  | .crest => 0 | .berm => 1 | .toe => 2 | .none => 3

/-- The tier one step down. -/
def tierBelow : Tier → Tier
  | .crest => .berm | .berm => .toe | _ => .none

/-- The tier pair of a move: 0 Crest-Berm, 1 Berm-Toe, 2 Crest-Toe (R446). -/
def pairNo (a b : Tier) : Nat :=
  if a == .toe || b == .toe then (if a == .crest || b == .crest then 2 else 1) else 0

/-- The dike of a tier (R55). -/
def Polder.dike (q : Polder) : Tier → Dike
  | .crest => q.dCrest | .berm => q.dBerm | _ => q.dToe

/-- Pages whose FRAME or OTHER lies in a tier. -/
def framesOf (pg : Page) (t : Tier) : Nat :=
  (if pg.tier == t && (pg.st == .resident || pg.st == .promoting || pg.st == .demoting) then 1 else 0) +
  (if pg.oTier == t then 1 else 0)

/-- The page-table pages that the mapped pages need: one for each 4,096 page numbers with an entry (R43). -/
def tableKeys (ps : SMap Page) : List Nat := dedup (ps.map (fun e => e.1 / 4096))

/-- Crest frames claimed for the activations of passes in flight (R181). -/
def claimFrames (q : Polder) : Nat := (q.passes.map Pass.claim).sum

/-- A polder's occupancy of a tier (R57). -/
def occ (q : Polder) (t : Tier) : Nat :=
  (q.pages.map (fun e => framesOf e.2 t)).sum +
  (match t with
   | .crest => claimFrames q
   | .berm => q.tables.length
   | _ => 0)

/-- The occupancy by BE pages (R58). -/
def occBe (q : Polder) (t : Tier) : Nat :=
  ((q.pages.filter (fun e => e.2.cls == .be)).map (fun e => framesOf e.2 t)).sum +
  (match t with
   | .crest => ((q.passes.filter (fun x => !x.lc)).map Pass.claim).sum
   | _ => 0)

/-- Frames pinned in a tier (R59, R61). -/
def pinnedIn (q : Polder) (t : Tier) : Nat := (q.pages.filter (fun e => e.2.pin && e.2.pinTier == t)).length

/-- The channels of a Toe slice: pairs of the mask (Table 14-6). -/
def toeChans (q : Polder) : List Nat := (bitsOf q.slice.toe 16).flatMap (fun k => [2 * k, 2 * k + 1])

/-- The session-space frames of a slice's tier with what fences and read-only channels leave (R41, R80, R386). -/
def sliceFrames (m : Mod) (q : Polder) (t : Tier) : Nat :=
  match t with
  | .crest => 496 * popcount q.slice.crest 64
  | .berm => 1042432 * ((bitsOf q.slice.berm 16).filter (fun d => !fencedBit m.fence.berm d)).length
  | .toe => ((toeChans q).filter (fun c => !fencedBit m.fence.toe c)).foldl
      (fun acc c => acc + (match m.ftl.chans.get c with
        | some ch => ch.exported
        | none => 0)) 0
  | .none => 0

/-- A channel of the slice that can take a new unit (R78, R80). -/
def chanOpen (m : Mod) (c : Nat) : Bool :=
  !fencedBit m.fence.toe c && (match m.ftl.chans.get c with
    | some ch => !ch.readOnly
    | none => false)

/-- Units of a polder that lie on channels able to take writes (R80). -/
def toeOnOpen (m : Mod) (q : Polder) : Nat :=
  (m.ftl.units.filter (fun e => (toeChans q).contains e.2.ch && chanOpen m e.2.ch)).length

/-- One more frame of a class fits in a tier: below CEIL, within LC_RESERVE for BE, and on units that can take it
(R57, R58, R78, R80). -/
def fits (m : Mod) (q : Polder) (t : Tier) (c : Cls) : Bool :=
  let d := q.dike t
  decide (occ q t < d.ceil) && (c == .lc || decide (occBe q t + 1 ≤ d.ceil - d.lcReserve)) &&
  (match t with
   | .crest => decide (occ q t < sliceFrames m q .crest)
   | .berm => decide (occ q t < sliceFrames m q .berm)
   | .toe => decide (toeOnOpen m q < (((toeChans q).filter (chanOpen m)).map (fun c =>
        match m.ftl.chans.get c with
        | some ch => ch.exported
        | none => 0)).sum)
   | .none => false)

/-- The frame numbers a polder's pages and page tables hold in a tier. -/
def usedFrames (q : Polder) (t : Tier) : List Nat :=
  (q.pages.filter (fun e => e.2.tier == t && e.2.st != .zero && e.2.st != .lost)).map (fun e => e.2.frame) ++
  (q.pages.filter (fun e => e.2.oTier == t)).map (fun e => e.2.other) ++
  (q.sec.sweep.filter (fun c => c.tier == t)).map SweepCopy.frame ++ (if t == .berm then q.tables.map (·.2) else [])

/-- The unfenced Berm device of a slice with the fewest frames in use (R41). -/
def bermDevice (m : Mod) (q : Polder) : Option Nat :=
  let devs := (bitsOf q.slice.berm 16).filter (fun d => !fencedBit m.fence.berm d)
  let load (d : Nat) : Nat := ((usedFrames q .berm).filter (fun f => f / 1048576 == d)).length
  devs.foldl (fun best d => match best with
    | none => some d
    | some b => if load d < load b then some d else some b) none

/-- The next channel of a slice, round-robin by map unit (R41, R78). -/
def toeChannel (m : Mod) (q : Polder) : Option Nat :=
  let cs := (toeChans q).filter (chanOpen m)
  if cs.length == 0 then none else cs[q.toeRr % cs.length]?

/-- The channels of a row's data units. -/
def rowChans (f : Ftl) (r : StripeRow) : List Nat :=
  r.units.filterMap (fun u => (f.units.get u).bind (fun x => if x.row == r.id then some x.ch else none))

/-- The next channel in turn that can take a row's parity: one that is open and holds no data unit of it (R71). -/
def parityChan (m : Mod) (used : List Nat) : Option Nat :=
  ((List.range 32).map (fun i => (m.ftl.rr + i) % 32)).find? (fun c => chanOpen m c && !used.contains c)

/-- The row a new unit enters: an open row that holds no unit on the channel and keeps a channel for its parity (R71). -/
def openRow (m : Mod) (ch : Nat) : Option StripeRow :=
  m.ftl.rows.find? (fun r => !r.closed && !(rowChans m.ftl r).contains ch && (parityChan m (ch :: rowChans m.ftl r)).isSome)

/-- The page that a map unit holds: its polder, its number and its entry. -/
def unitPage (m : Mod) (u : Nat) : Option (Fin 16 × Nat × Page) :=
  (m.ftl.units.get u).bind (fun x => (m.pol[pn x.pol].pages.find? (fun e =>
    (e.2.tier == .toe && e.2.frame == u && e.2.st != .zero && e.2.st != .lost) || (e.2.oTier == .toe && e.2.other == u))).map (fun e => (pn x.pol, e.1, e.2)))

/-- A polder's at-rest key pair of an epoch: CURRENT for KEY_EPOCH, else PREVIOUS (R363). -/
def keyOf (q : Polder) (epoch : Nat) : Nat :=
  if bit (q.sec.keysel.read (fun a _ _ => a)) 0 == (epoch == q.keyEpoch) then q.sec.key1 else q.sec.key0

/-- A page's bytes in a tier: encrypted in units of 64 B in Berm and 4 KiB in Toe under the key of the epoch it was written in, each unit's
session-space address its tweak; plaintext in Crest (R362). -/
def pageImage (q : Polder) (p : Fin 16) (n : Nat) (t : Tier) (epoch body : Nat) : Nat :=
  match t with
  | .berm => xtsPage (keyOf q epoch) (ssaOf p n) 64 body
  | .toe => xtsPage (keyOf q epoch) (ssaOf p n) 4096 body
  | _ => body

/-- What is programmed for a map unit (R71). -/
def unitImage (m : Mod) (u : Nat) : Nat :=
  match unitPage m u with
  | some (p, n, pg) => pageImage m.pol[p] p n .toe (if pg.tier == .toe && pg.frame == u then pg.keyEpoch else pg.oEpoch) (pageContents m p n pg)
  | none => 0

/-- A row's parity: the byte-wise XOR of its data units (R71). -/
def rowParity (m : Mod) (r : StripeRow) : Nat := (r.units.map (unitImage m)).foldl (fun a b => a ^^^ b) 0

/-- A row closes: its parity unit goes to the next channel in turn; short rows count. A row for whose parity no channel is open stays
open (R71). -/
def closeRow (m : Mod) (r : StripeRow) : Mod :=
  match parityChan m (rowChans m.ftl r) with
  | none => m
  | some c =>
    let m1 := { m with ftl := { m.ftl with
      rr := c + 1, rows := updWhere m.ftl.rows (fun x => x.id == r.id) (fun x => { x with closed := true, parity := some c }) } }
    if r.units.length < 31 then minc m1 Ctr.shortRows 1 else m1

/-- Free blocks of a channel: good ones that hold no programmed data and are not retired (R77). -/
def freeBlocks (c : Chan) : Nat := c.good - (c.blks.filter (fun e => e.2.used || e.2.retired)).length

/-- A unit enters a stripe row on a channel to be programmed; a row closes when it holds 31 data units (R71). On a channel with no free
block the write waits for collection (R77). -/
def rowAdd (m : Mod) (u ch : Nat) (x : ToeUnit) : Mod :=
  let f := m.ftl
  let r := match openRow m ch with
    | some r => r
    | none => { id := f.nextRow, start := m.hvl, units := [], parity := none, par := none, closed := false }
  let r' := { r with units := r.units ++ [u] }
  let full := ((f.chans.get ch).map (fun c => freeBlocks c == 0)).getD false
  let m1 := modPol (if full then minc m (Ctr.reclaimWait ch) 1 else m) (pn x.pol) (fun q => { q with toeRr := q.toeRr + 1 })
  let m2 := { m1 with ftl := { f with
      rows := f.rows.filter (fun y => y.id != r.id) ++ [r'], nextRow := max f.nextRow (r.id + 1)
      chans := if full then f.chans.upd ch (fun c => { c with waiting := c.waiting ++ [u] }) else f.chans
      units := f.units.put u { x with ch := ch, blk := 0, row := r.id, acked := false } } }
  if 31 ≤ r'.units.length then closeRow m2 r' else m2

/-- A unit that is not programmed leaves the row it waits in. -/
def rowDrop (m : Mod) (u : Nat) : Mod :=
  { m with ftl := { m.ftl with
    rows := (m.ftl.rows.map (fun r => if r.closed then r else { r with units := r.units.filter (fun k => k != u) })).filter
      (fun r => r.closed || !r.units.isEmpty)
    chans := m.ftl.chans.mapKV (fun _ c => { c with waiting := c.waiting.filter (fun k => k != u) }) } }

/-- A map unit written anew, out of place: its acknowledged contents stay where they are until the new ones are acknowledged (R72, R82). Where
no channel of the polder can take it, nothing changes. -/
def rewriteUnit (m : Mod) (u : Nat) : Mod :=
  match m.ftl.units.get u with
  | none => m
  | some x => match toeChannel m m.pol[pn x.pol] with
    | none => m
    | some ch =>
      let m1 := if x.acked then m else rowDrop m u
      wfqServe (rowAdd m1 u ch { x with old := if x.acked then some ⟨x.ch, x.blk, x.row⟩ else x.old }) (pn x.pol) 6 16

/-- Units that wait to be programmed on a channel that takes no writes any more move to the polder's other channels (R78, R80). -/
def movePending (m : Mod) (ch : Nat) : Mod :=
  ((m.ftl.units.filter (fun e => e.2.ch == ch && !e.2.acked)).map (·.1)).foldl rewriteUnit m

/-- A frame taken in a tier, without any check of the dike. Which free frame it is, is open (log entry 5). -/
def takeFrame (m : Mod) (p : Fin 16) (t : Tier) : Option (Nat × Mod) :=
  let q := m.pol[p]
  let (h, m1) := takeHint m
  match t with
  | .crest =>
    (freeFrom h 32768 (fun f => bit q.slice.crest (f / 512) && decide (16 ≤ f % 512) &&
      !(usedFrames q .crest).contains f)).map (fun f => (f, m1))
  | .berm =>
    match bermDevice m q with
    | none => none
    | some d => (freeFrom h 1042432 (fun f => !(usedFrames q .berm).contains (d * 1048576 + f))).map
        (fun f => (d * 1048576 + f, m1))
  | .toe =>
    match toeChannel m q with
    | none => none
    | some ch => (freeFrom h (2 ^ 32) (fun u => !m.ftl.units.has u)).map (fun u =>
        (u, wfqServe (rowAdd m1 u ch { ch := ch, blk := 0, row := 0, pol := p.val, acked := false, old := none }) p 6 16))
  | .none => none

/-- A frame given back; a Toe unit leaves the map. -/
def dropFrame (m : Mod) (t : Tier) (f : Nat) : Mod :=
  if t == .toe then let m1 := rowDrop m f; { m1 with ftl := { m1.ftl with units := m1.ftl.units.del f } } else m

def getPage (m : Mod) (p : Fin 16) (n : Nat) : Option Page := m.pol[p].pages.get n
def setPage (m : Mod) (p : Fin 16) (n : Nat) (pg : Page) : Mod := modPol m p (fun q => { q with pages := q.pages.put n pg })
def modPage (m : Mod) (p : Fin 16) (n : Nat) (f : Page → Page) : Mod :=
  modPol m p (fun q => { q with pages := q.pages.upd n f })

/-- Page tables that no entry needs any more give their frames back (R43). -/
def trimTables (m : Mod) (p : Fin 16) : Mod :=
  modPol m p (fun q => { q with tables := let ks := tableKeys q.pages; q.tables.filter (fun e => ks.contains e.1) })

/-- Every frame of a page released and the entry removed (Table 02-5). -/
def unmapPage (m : Mod) (p : Fin 16) (n : Nat) : Mod :=
  match getPage m p n with
  | none => m
  | some pg =>
    let m1 := if pg.st == .zero || pg.st == .lost then m else dropFrame m pg.tier pg.frame
    let m2 := dropFrame m1 pg.oTier pg.other
    trimTables (modPol m2 p (fun q => { q with pages := q.pages.del n })) p

/-- The frames a page holds. -/
def pageFrames (pg : Page) : Nat := framesOf pg .crest + framesOf pg .berm + framesOf pg .toe

/-- The clean copy or copy destination of a page released (R44, R51). -/
def dropOther (m : Mod) (p : Fin 16) (n : Nat) : Mod :=
  match getPage m p n with
  | none => m
  | some pg => modPage (dropFrame m pg.oTier pg.other) p n (fun g => { g with oTier := .none, other := 0 })

/-- Coldest first; at equal heat BE before LC; at equal class the greater COOL first (R49). -/
def colder (a b : Nat × Page) : Bool :=
  if a.2.heat != b.2.heat then decide (a.2.heat < b.2.heat)
  else if a.2.cls != b.2.cls then a.2.cls == .be
  else decide (b.2.cool < a.2.cool)

/-- The groups of R49 for a tier, each coldest first. -/
def victims (q : Polder) (t : Tier) (g : Nat) : List (Nat × Page) :=
  sortBy colder (q.pages.filter (fun e =>
    let pg := e.2
    match g with
    | 1 => pg.oTier == t && pg.st == .resident && decide (tierNo pg.tier < tierNo t)
    | 2 => pg.tier == t && pg.st == .resident && !pg.pin && !pg.home && pg.oTier != .none &&
           decide (tierNo t < tierNo pg.oTier)
    | _ => pg.tier == t && pg.st == .resident && !pg.pin && !pg.home && pg.oTier == .none))

/-- FRAME swings to the clean copy below and the source is released (Table 02-5). -/
def swing (m : Mod) (p : Fin 16) (n : Nat) : Mod :=
  match getPage m p n with
  | none => m
  | some pg =>
    let m1 := dropFrame m pg.tier pg.frame
    let m2 := modPage m1 p n (fun g => { g with tier := g.oTier, frame := g.other, keyEpoch := g.oEpoch, oTier := .none,
                                                other := 0, dirty := false })
    pinc m2 p (Ctr.migDemote (pairNo pg.tier pg.oTier)) 1

/-- A copy begins into a tier: any clean copy is released first, a destination is taken, WGEN is sampled (R44, R53). -/
def startCopy (m : Mod) (p : Fin 16) (n : Nat) (dest : Tier) : Option Mod :=
  match getPage m p n with
  | none => none
  | some pg =>
    let m1 := dropOther m p n
    match takeFrame m1 p dest with
    | none => none
    | some (f, m2) => some (modPage m2 p n (fun g => { g with
        st := if tierNo dest < tierNo pg.tier then .promoting else .demoting, oTier := dest, other := f,
        sample := g.wgen, copied := 0, pre := [], forPage := none }))

/-- BE pages of a polder hold all that LC_RESERVE leaves them in a tier (R58). -/
def beFull (q : Polder) (t : Tier) : Bool := let d := q.dike t; decide (d.ceil - d.lcReserve < occBe q t + 1)

/-- Freeing a page's frame in a tier makes room there for a class: where the BE limit binds, only BE pages do (R58). -/
def makesRoom (q : Polder) (t : Tier) (c : Cls) (e : Nat × Page) : Bool := c == .lc || !beFull q t || e.2.cls == .be

/-- Frames of Berm freed at once, clean copies first, then swings to clean copies, until one frame of a class fits (R49, R60). -/
def freeClean (m : Mod) (p : Fin 16) (c : Cls) : Nat → Option Mod
  | 0 => none
  | n + 1 =>
    let q := m.pol[p]
    if fits m q .berm c then some m
    else match (victims q .berm 1).find? (makesRoom q .berm c) with
      | some (k, _) => freeClean (dropOther m p k) p c n
      | none => match (victims q .berm 2).find? (makesRoom q .berm c) with
        | some (k, _) => freeClean (swing m p k) p c n
        | none => none

/-- Pages on their way out of Berm whose frames make room for a class. -/
def roomComing (q : Polder) (c : Cls) : Bool :=
  q.pages.any (fun e => e.2.tier == .berm && e.2.st == .demoting && makesRoom q .berm c e)

/-- A Berm page that can be copied down to Toe to make room for a class (R49 group 3, R60). -/
def roomVictim (m : Mod) (p : Fin 16) (c : Cls) : Option (Nat × Page) :=
  (victims m.pol[p] .berm 3).find? (fun e => makesRoom m.pol[p] .berm c e && fits m m.pol[p] .toe e.2.cls)

/-- The error of an allocation that must wait for copies down to make room in Berm (R60, log entry 60). -/
def errWait : Nat := 4

/-- Why Berm has no room: it can be made by copies down, or not (R60). -/
def noRoom (m : Mod) (p : Fin 16) (c : Cls) : Nat :=
  if roomComing m.pol[p] c || (roomVictim m p c).isSome then errWait else 1

/-- The spillway works on room in Berm that an allocation waits for (R60, R49). -/
def beginRoom (m : Mod) (p : Fin 16) : Mod :=
  let c := if fits m m.pol[p] .berm .lc then Cls.be else Cls.lc
  if fits m m.pol[p] .berm c || roomComing m.pol[p] c then m
  else match roomVictim m p c with
    | some (n, _) => (startCopy m p n .toe).getD m
    | none => m

/-- The tiers an allocation may land in, highest first: those with DIRECT set (R60). -/
def allocTiers (q : Polder) (toe : Bool) : List Tier :=
  (if q.dCrest.direct then [Tier.crest] else []) ++ [Tier.berm] ++ (if toe then [Tier.toe] else [])

/-- A frame of Berm for a class, once the spillway has made room there (R60). The error is the tier refused, or errWait. -/
def takeBerm (m : Mod) (p : Fin 16) (c : Cls) : Except Nat (Nat × Mod) :=
  match freeClean m p c (2 * m.pol[p].pages.length + 1) with
  | none => .error (noRoom m p c)
  | some m1 => match takeFrame m1 p .berm with
    | some x => .ok x
    | none => .error 1

/-- The allocation rule (R60): the highest tier with DIRECT and room, else Berm after the spillway made room. -/
def alloc (m : Mod) (p : Fin 16) (c : Cls) (toe : Bool) : Except Nat (Tier × Nat × Mod) :=
  let q := m.pol[p]
  match (allocTiers q toe).find? (fun t => fits m q t c) with
  | some t =>
    match takeFrame m p t with
    | some (f, m1) => .ok (t, f, m1)
    | none => .error (tierNo t)
  | none => (takeBerm m p c).map (fun x => (Tier.berm, x.1, x.2))

/-- The allocation rule limited to Berm, for home objects there (R60, R162). -/
def allocBerm (m : Mod) (p : Fin 16) (c : Cls) : Except Nat (Nat × Mod) := takeBerm m p c

/-- n more Crest frames of a class fit (R57, R58). -/
def crestFits (m : Mod) (q : Polder) (lc : Bool) (n : Nat) : Bool :=
  let d := q.dCrest
  decide (n == 0) || (decide (occ q .crest + n ≤ d.ceil) && decide (occ q .crest + n ≤ sliceFrames m q .crest) &&
    (lc || decide (occBe q .crest + n ≤ d.ceil - d.lcReserve)))

/-- A new page entry in state ZERO (Table 02-5). -/
def zeroPage (c : Cls) (o : Owner) : Page :=
  { tier := .none, frame := 0, st := .zero, pin := false, pinTier := .crest, home := false, keyEpoch := 0, oEpoch := 0,
    heat := 0, cls := c, dirty := false, oTier := .none, other := 0, cool := 0, wgen := 0, owner := o, body := 0,
    sample := 0, copied := 0, pre := [], forPage := none }

/-- A page mapped ZERO. -/
def mapZero (m : Mod) (p : Fin 16) (n : Nat) (c : Cls) (o : Owner) : Mod := setPage m p n (zeroPage c o)

/-- The page becomes RESIDENT at a frame. -/
def settleAt (m : Mod) (p : Fin 16) (n : Nat) (t : Tier) (f : Nat) : Mod :=
  modPage m p n (fun g => { g with
    st := .resident, tier := t, frame := f
    keyEpoch := if t == .crest then 0 else m.pol[p].keyEpoch })

/-- The frame of a page's first write (R60); a page that already has a frame keeps it. -/
def ensureFrame (m : Mod) (p : Fin 16) (n : Nat) : Except Nat Mod :=
  match getPage m p n with
  | none => .ok m
  | some pg =>
    if pg.st == .zero then
      match alloc m p pg.cls true with
      | .error t => .error t
      | .ok (t, f, m1) => .ok (settleAt m1 p n t f)
    else .ok m

/-- An access to a page (R45). -/
def touch (m : Mod) (p : Fin 16) (n : Nat) : Mod :=
  modPage m p n (fun g => { g with heat := min (g.heat + 1) 255, cool := 0 })

/-- A Crest victim at most half as hot as a candidate, in the order of R49: one whose frame is released at once, or one to be copied down
(R47). -/
def crestVictim (q : Polder) (heat : Nat) (now : Bool) : Option (Nat × Page) :=
  (victims q .crest (if now then 2 else 3)).find? (fun e => decide (2 * e.2.heat ≤ heat))

/-- A Berm page that reached HEAT_PROMOTE is promoted when Crest has a free frame within its class limit or a victim at
most half as hot; a victim with no clean copy is copied down first, and the promotion begins at the commit of that copy (R47). A BE page stays
while BE pages hold all they may in Crest (Table 02-8). -/
def tryPromote (m : Mod) (p : Fin 16) (n : Nat) : Mod :=
  match getPage m p n with
  | none => m
  | some pg =>
    let q := m.pol[p]
    let denied := pinc m p Ctr.promoteDenied 1
    if !(pg.tier == .berm && pg.st == .resident && !pg.pin && !pg.home && decide (q.dCrest.heatPromote ≤ pg.heat)) ||
       q.pages.any (fun e => e.2.forPage == some n) then m
    else if pg.cls == .be && beFull q .crest then denied
    else if fits m q .crest pg.cls then (startCopy m p n .crest).getD m
    else match crestVictim q pg.heat true, crestVictim q pg.heat false with
      | some (v, _), _ =>
        let m1 := swing m p v
        if fits m1 m1.pol[p] .crest pg.cls then (startCopy m1 p n .crest).getD m1 else pinc m1 p Ctr.promoteDenied 1
      | none, some (v, w) =>
        if fits m q .berm w.cls then
          match startCopy m p v .berm with
          | some m1 => modPage m1 p v (fun g => { g with forPage := some n })
          | none => denied
        else denied
      | none, none => denied

/-- An access with the promotion it can trigger (R45, R47). -/
def accessPage (m : Mod) (p : Fin 16) (n : Nat) : Mod := tryPromote (touch m p n) p n

/-- The blocks of 4 KiB that a copy has not moved yet, of those written: their pre-images go into the copy stream first, and the write
stalls within the bound of its tier. Which blocks the copy has moved by now, and the stall, are open (R54, log entry 61). -/
def capture (m : Mod) (p : Fin 16) (n mask : Nat) (g : Page) : Mod :=
  let got := g.copied ||| Config.openNat m.free % 65536
  let bs := (List.range 16).filter (fun b => bit mask b && !bit got b)
  let bound := if g.tier == .crest then 3001 else 15001
  let m1 := modPage { m with free := m.free + 2 } p n (fun g => { g with
    copied := got ||| mask % 65536
    pre := bs.foldl (fun (s : SMap Nat) b => s.put b ((g.body >>> (32768 * b)) % 2 ^ 32768)) g.pre })
  if bs.isEmpty then m1 else pinc m1 p Ctr.captureStallNs (Config.openNat (m.free + 1) % bound)

/-- Checkpoint copiers of the polder that still read the page capture pre-images of the blocks written that they have not copied
(R54, R295, Table 02-8). -/
def captureCk (m : Mod) (p : Fin 16) (n mask : Nat) : Mod :=
  let got := Config.openNat m.free
  let todo (j : CkJob) : Nat := match j.copying.get n with
    | some b => ((List.range 16).filter (fun k => bit mask k && !bit (b ||| got) k)).length
    | none => 0
  let c := (m.pol[p].ck.jobs.map todo).sum
  if m.pol[p].ck.jobs.all (fun j => !j.copying.has n) then m
  else pinc (modPol { m with free := m.free + 1 } p (fun q => { q with ck := { q.ck with jobs := q.ck.jobs.map (fun j => { j with
    copying := j.copying.upd n (fun b => b ||| got % 65536 ||| mask % 65536) }) } })) p Ctr.ckptCaptures c

/-- A write to the blocks of a page in `mask`: an access, WGEN rises modulo 65,536, and the first write after a promotion releases the clean
copy (R43, R51); while a copy runs its destination stays until the commit (R54). -/
def writeBlocks (m : Mod) (p : Fin 16) (n mask : Nat) (body : Nat → Nat) : Mod :=
  let m0 := captureCk (touch m p n) p n mask
  let m1 := match getPage m0 p n with
    | some g => if g.st == .resident then dropOther m0 p n
        else if g.st == .promoting || g.st == .demoting then capture m0 p n mask g else m0
    | none => m0
  tryPromote (modPage m1 p n (fun g => { g with wgen := (g.wgen + 1) % 65536, dirty := true, body := body g.body })) p n

/-- A write that can reach every block of a page. -/
def writePage (m : Mod) (p : Fin 16) (n : Nat) (body : Nat → Nat) : Mod := writeBlocks m p n 0xFFFF body

/-- The blocks of 4 KiB that len bytes from an offset lie in. -/
def blocksAt (off len : Nat) : Nat :=
  ((List.range 16).filter (fun b => decide (off < 4096 * (b + 1)) && decide (4096 * b < off + len))).foldl (fun a b => a + 2 ^ b) 0

/-- A run of unused page numbers of a length; where it starts is open (R196, log entry 5). -/
def unusedRun (m : Mod) (p : Fin 16) (n : Nat) : Option (Nat × Mod) :=
  let (h, m1) := takeHint m
  let q := m.pol[p]
  (freeFrom h (2 ^ 30) (fun s => decide (s + n ≤ 2 ^ 30) && q.pages.all (fun e => decide (e.1 < s ∨ s + n ≤ e.1)))).map
    (fun s => (s, m1))

/-- Pages of a run mapped ZERO for an object. -/
def mapRun (m : Mod) (p : Fin 16) (s n : Nat) (c : Cls) (o : Owner) : Mod :=
  (List.range n).foldl (fun m i => mapZero m p (s + i) c o) m

/-- The page-table pages that new entries need take their Berm frames as home pages (R43, R57). -/
def takeTables (m : Mod) (p : Fin 16) : Except Nat Mod :=
  ((tableKeys m.pol[p].pages).filter (fun k => !m.pol[p].tables.has k)).foldlM (fun (m : Mod) k => do
    let (f, m) ← allocBerm m p .lc
    pure (modPol m p (fun q => { q with tables := q.tables.put k f }))) m

/-- SSA fields (Table 02-1). -/
def ssaPol (a : Nat) : Nat := (a / 2 ^ 46) % 16
def ssaPage (a : Nat) : Nat := (a / 65536) % 2 ^ 30
def ssaByte (a : Nat) : Nat := a % 65536

/-- The high and low watermarks of a tier (R48). -/
def highMark (d : Dike) : Nat := d.ceil - d.ceil / 16
def lowMark (d : Dike) : Nat := d.ceil - d.ceil / 8

/-- Frames on their way out of a tier. -/
def leaving (q : Polder) (t : Tier) : Nat := (q.pages.filter (fun e => e.2.tier == t && e.2.st == .demoting)).length

/-- One action of the spillway in a tier (R49): none when no victim is left or no room is below. -/
def spillOne (m : Mod) (p : Fin 16) (t : Tier) : Option Mod :=
  let q := m.pol[p]
  match victims q t 1 with
  | (n, _) :: _ => some (dropOther m p n)
  | [] =>
    match victims q t 2 with
    | (n, _) :: _ => some (swing m p n)
    | [] =>
      match victims q t 3 with
      | (n, pg) :: _ =>
        let lo := tierBelow t
        if lo == .none then none else if fits m q lo pg.cls then startCopy m p n lo else none
      | [] => none

def spillN (m : Mod) (p : Fin 16) (t : Tier) : Nat → Mod
  | 0 => m
  | n + 1 =>
    if occ m.pol[p] t - leaving m.pol[p] t ≤ lowMark (m.pol[p].dike t) then m
    else match spillOne m p t with
      | none => m
      | some m' => spillN m' p t n

/-- The spillway of one tier: above the high watermark it frees frames down to the low one (R48). -/
def spillTier (m : Mod) (p : Fin 16) (t : Tier) : Mod :=
  if highMark (m.pol[p].dike t) < occ m.pol[p] t - leaving m.pol[p] t then spillN m p t (2 * m.pol[p].pages.length + 1) else m

/-- The spillway of a polder, Crest first (R48). Nothing lies below Toe: what it frees there are clean copies (R49 group 1). -/
def spill (m : Mod) (p : Fin 16) : Mod := spillTier (spillTier (spillTier m p .crest) p .berm) p .toe

/-- A copy down that a revive or a pin cancels: the destination is released and the page stays (Table 02-5). -/
def cancelDemotion (m : Mod) (p : Fin 16) (n : Nat) : Mod :=
  match getPage m p n with
  | none => m
  | some pg =>
    if pg.st == .demoting then
      pinc (modPage (dropOther m p n) p n (fun g => { g with st := .resident, forPage := none })) p Ctr.migCancel 1
    else m

/-- Checkpoints whose copier has not copied the page yet cannot have it any more (R298). -/
def loseCopy (m : Mod) (p : Fin 16) (n : Nat) : Mod :=
  modPol m p (fun q => { q with ck := { q.ck with jobs := q.ck.jobs.map (fun j =>
    { j with lost := j.lost || (!j.localDone && (j.copying.get n).elim false (fun b => b != 0xFFFF)) }) } })

/-- A page's contents are gone: its frames are released (Table 02-5, R66). -/
def losePage (m : Mod) (p : Fin 16) (n : Nat) : Mod :=
  match getPage m p n with
  | none => m
  | some pg =>
    let m1 := dropFrame (dropFrame m pg.tier pg.frame) pg.oTier pg.other
    pinc (modPage (loseCopy m1 p n) p n (fun g => { g with
      st := .lost, tier := .none, frame := 0, oTier := .none, other := 0, pin := false, pre := [], forPage := none })) p Ctr.pagesLost 1

/-- A page on its way to Berm or Crest for an access (R46): resident in Toe, it starts a promotion by the allocation rule; where room is
being made for it, it waits (R60). The result says whether room was refused. -/
def fetchPage (m : Mod) (p : Fin 16) (n : Nat) : Bool × Mod :=
  match getPage m p n with
  | none => (false, m)
  | some pg =>
    if pg.tier == .toe && pg.st == .resident then
      match alloc m p pg.cls false with
      | .error t => if t == errWait then (false, beginRoom m p) else (true, pinc m p (Ctr.quotaRefused t) 1)
      | .ok (t, f, m1) => (false, modPage (dropOther m1 p n) p n (fun g => { g with
          st := .promoting, oTier := t, other := f, sample := g.wgen, copied := 0, pre := [] }))
    else (false, m)

/-- A page that can be read in place now: resident or being copied, in Crest or Berm, or ZERO (R46, Table 02-5). -/
def present (pg : Page) : Bool :=
  pg.st == .zero || ((pg.tier == .crest || pg.tier == .berm) && (pg.st == .resident || pg.st == .promoting || pg.st == .demoting))

def modChan (m : Mod) (ch : Nat) (f : Chan → Chan) : Mod := { m with ftl := { m.ftl with chans := m.ftl.chans.upd ch f } }
def blkNew : FlashBlk := ⟨0, 0, 0, 0, false, false, false, false⟩
def blkOf (c : Chan) (b : Nat) : FlashBlk := (c.blks.get b).getD blkNew
def putBlk (c : Chan) (b : Nat) (x : FlashBlk) : Chan := { c with blks := c.blks.put b x }

/-- A read of a Toe unit (R74, R80): its block's count rises, and the block is marked at the read-disturb limit or where a codeword needed
more than half the correction capability, which the device alone knows, as it does the words it corrected (log entry 62); a fenced channel's unit is reconstructed.
The request passes the FTL engine's arbiter (Table 10-4). -/
def toeRead (m : Mod) (u : Nat) : Mod :=
  match m.ftl.units.get u with
  | none => m
  | some x =>
    let m := if x.pol < 16 then wfqServe m (pn x.pol) 6 16 else m
    if fencedBit m.fence.toe x.ch then minc m (Ctr.reconReads x.ch) 1
    else
      let hard := bit (Config.openNat m.free) 0
      let corr := Config.openNat (m.free + 1)
      modChan (minc { m with free := m.free + 2 } (Ctr.eccCorr 2) corr) x.ch (fun c => { c with
        blks := c.blks.upd x.blk (fun b => { b with
          reads := b.reads + 1, marked := b.marked || hard || decide (m.ftl.rdLimit ≤ b.reads + 1) }) })

/-- The Toe units of a list of pages read in place (R46). -/
def toeReads (m : Mod) (p : Fin 16) (ns : List Nat) : Mod :=
  ns.foldl (fun m n => match getPage m p n with
    | some pg => if pg.tier == .toe && pg.st != .lost then toeRead m pg.frame else m
    | none => m) m

/-- A ring command that waits for room or for its pages: its row has not applied it, and applies it again later (R46, R60, log entry 60). -/
def unstart (m : Mod) (p : Fin 16) (tag : Nat) : Mod :=
  modPol m p (fun q => { q with taken := updWhere q.taken (fun x => x.tag == tag) (fun x => { x with started := false }) })

/-- A command ends because a tier refused it room, or waits while the spillway makes room (R60). -/
def quotaEnd (m : Mod) (p : Fin 16) (tag tier : Nat) : Mod :=
  if tier == errWait then beginRoom (unstart m p tag) p else complete (countRefused m p tier) p tag (rQuota tier)

/-- A command whose access needs pages: one that is LOST ends it, those in Toe are promoted while it waits (R46, R67). -/
def withPages (m : Mod) (p : Fin 16) (tag : Nat) (ns : List Nat) (f : Mod → Mod) : Mod :=
  let pgs := ns.filterMap (getPage m p)
  if pgs.any (fun g => g.st == .lost) then complete m p tag (rSt stTierLost)
  else if pgs.all present then f m
  else
    let (refused, m1) := ns.foldl (fun (a : Bool × Mod) n => let r := fetchPage a.2 p n; (a.1 || r.1, r.2)) (false, m)
    if refused then complete m1 p tag (rQuota 1) else unstart m1 p tag

end Sys2Proof.Machine
end

