-- ==== Sys2Proof/Machine/SessBase.lean ====
section
/-! DEFINITION. A session's contents in session space: its regions (R193 to R197, R226), KV descriptors and body pages
(R194 to R196), and the handle checks every session command makes first (R86, R98, R106). -/

namespace Sys2Proof.Machine

/-- Elements of HEAD_DIM (Table 06-1). -/
def headDim (attr : Nat) : Nat := 64 * (attr % 4 + 1)
def kvHeads (attr : Nat) : Nat := attr / 4 % 8 + 1
def qPerKv (attr : Nat) : Nat := attr / 256 % 64 + 1

/-- BODY_BYTES of a KV format and group width (Table 06-2). -/
def bodyBytes (fmt w : Nat) : Nat := if fmt == 0 then 64 * w else if fmt == 7 then 17 * w else 32 * w

/-- The geometry a model gives its sessions (Table 06-3). -/
def geoOf (g : Prog) : Geo :=
  match g.layer.find? (fun k => k.op == 3) with
  | none => { layers := g.layers, groups := 0, fmt := 0, w := 0, bpp := 1, bodyBytes := 65536 }
  | some k =>
    let w := kvHeads k.attr * headDim k.attr
    let b := bodyBytes g.kvFmt w
    { layers := g.layers, groups := g.kvGroups, fmt := g.kvFmt, w := w, bpp := 65536 / b, bodyBytes := b }

/-- Default sampler parameters (Table 07-5). -/
def sampDefault : SampParams :=
  { temp := f32One, topP := f32One, minP := 0#32, repPen := f32One, presPen := 0#32, freqPen := 0#32, topK := 0, window := 0 }

/-- The sampler page of a new session (R226, R236). -/
def sampPageNew : SampPage :=
  { pr := sampDefault, logprob := false, maskStatic := false, eos := 0xFFFFFFFF, bias := [], stops := [], mask := 0, hist := [],
    head := 0 }

/-- The generation state of a new session (R226). -/
def genNew : Gen :=
  { pendTok := 0, pendValid := false, featValid := false, specMode := 0, greedy := false, draftLen := 1, treeNodes := 1,
    treeParent := [], nextSeq := 0, stepAtShip := 0, feature := [] }

/-- A session with no pages. -/
def sessNew (g : Geo) : Sess :=
  { geo := g, rootPg := 0, sampPg := 0, featPg := 0, featN := 0, sketchPg := 0, sketchN := 0, coarsePg := 0, coarseN := 0,
    mapPgs := [], tablePgs := [], kv := [], sketch := [], blockSk := [], querySk := [], qsValid := false, blocks := 0,
    gen := genNew, samp := sampPageNew, settings := [], reviving := false, revPaused := false, replay := [] }

/-- Pages of the feature region: one row of tensor 1 in its format, in whole pages (Table 07-3). -/
def featPages (g : Prog) : Nat :=
  match g.tensors[1]? with
  | none => 1
  | some t => max 1 (cdiv (t.width * fmtBits t.fmt / 8) 65536)

/-- Sketch and coarse region sizes in pages (R197). -/
def sketchPages (g : Geo) (ctxMax : Nat) : Nat := cdiv (cdiv ctxMax 4096 * g.lgs * 8192) 65536
def coarsePages (g : Geo) (ctxMax : Nat) : Nat := cdiv ((cdiv ctxMax 4096 + 1) * g.lgs * 32) 65536

/-- A run of pages mapped ZERO at unused page numbers; DETAIL 3 when session space has no such run (R197). -/
def takeRun (m : Mod) (p : Fin 16) (n : Nat) (c : Cls) (o : Owner) : Except Nat (Nat × Mod) :=
  match unusedRun m p n with
  | none => .error 3
  | some (s, m1) => (takeTables (mapRun m1 p s n c o) p).map (fun m2 => (s, m2))

/-- The regions of a new session mapped; the state root and the sampler page take frames at once (R96, R197, R226). -/
def mapSession (m : Mod) (p : Fin 16) (idx : Nat) (c : Cls) (sparse : Bool) (g : Prog) (ctxMax : Nat) :
    Except Nat (Sess × Mod) := do
  let geo := geoOf g
  let (root, m) ← takeRun m p 1 c (.sess idx .root)
  let (samp, m) ← takeRun m p 1 c (.sess idx .sampler)
  let m ← ensureFrame m p root
  let m ← ensureFrame m p samp
  let m := writePage (writeBlocks m p root 1 id) p samp id
  let fn := featPages g
  let (feat, m) ← takeRun m p fn c (.sess idx .feature)
  let s := { sessNew geo with rootPg := root, sampPg := samp, featPg := feat, featN := fn }
  if sparse then
    let sn := sketchPages geo ctxMax
    let cn := coarsePages geo ctxMax
    let (sk, m) ← takeRun m p sn c (.sess idx .sketch)
    let (co, m) ← takeRun m p cn c (.sess idx .coarse)
    pure ({ s with sketchPg := sk, sketchN := sn, coarsePg := co, coarseN := cn }, m)
  else pure (s, m)

/-- A page belongs to a session. -/
def ownedBy (idx : Nat) (pg : Page) : Bool :=
  match pg.owner with
  | .sess i _ => i == idx
  | _ => false

/-- The pages of a session, by page number. -/
def sessPages (q : Polder) (idx : Nat) : List Nat := (q.pages.filter (fun e => ownedBy idx e.2)).map (·.1)

/-- Pages released; the count of them. -/
def releasePages (m : Mod) (p : Fin 16) (ns : List Nat) : Mod := ns.foldl (fun m n => unmapPage m p n) m

/-- The body page that holds page i of a layer-group: the page number of its BODY address. -/
def bodyPage (k : KvPage) : Nat := ssaPage k.body

/-- Body pages of a session whose KV pages are shared with its family (R99). -/
def familyBodies (s : Sess) : List Nat := dedup ((s.kv.filter (fun e => e.2.family)).map (fun e => bodyPage e.2))

/-- Body pages of a session that other sessions of its family still name (R99, R100). -/
def sharedBodies (q : Polder) (idx : Nat) : List Nat :=
  dedup ((q.sess.filter (fun e => e.1 != idx)).flatMap (fun e => familyBodies e.2))

/-- A session's own pages released: everything but the family bodies that other members read. The count. -/
def releaseOwn (m : Mod) (p : Fin 16) (idx : Nat) : Nat × Mod :=
  let kept := sharedBodies m.pol[p] idx
  let ns := (sessPages m.pol[p] idx).filter (fun n => !kept.contains n)
  (ns.length, releasePages m p ns)

/-- The map and table pages that descriptor d needs (R194). -/
def mapKeys (d : Nat) : Nat × Nat := (d / 16777216, d / 2048)

/-- A page of the session's KV map taken when the first descriptor needs it (R194). -/
def ensureMapPages (m : Mod) (p : Fin 16) (idx : Nat) (c : Cls) (d : Nat) : Except Nat Mod := do
  let need (m : Mod) (get : Sess → SMap Nat) (set : Sess → SMap Nat → Sess) (k : Nat) : Except Nat Mod := do
    match m.pol[p].sess.get idx with
    | none => pure m
    | some s =>
      if (get s).has k then pure m
      else do
        let (n, m) ← takeRun m p 1 c (.sess idx .kvMap)
        let m ← ensureFrame m p n
        pure (modSess m p idx (fun s => set s ((get s).put k n)))
  let m ← need m Sess.mapPgs (fun s x => { s with mapPgs := x }) (mapKeys d).1
  need m Sess.tablePgs (fun s x => { s with tablePgs := x }) (mapKeys d).2

/-- Page i of a layer-group opened: its body lies at slot i mod BPP of the body page its unshared neighbours hold, or of a
new body page (R196), with its frame. -/
def openKv (m : Mod) (p : Fin 16) (idx : Nat) (c : Cls) (i lg : Nat) : Except Nat Mod := do
  match m.pol[p].sess.get idx with
  | none => pure m
  | some s =>
    let g := s.geo
    let d := kvIdx g i lg
    if s.kv.has d then pure m
    else do
      let m ← ensureMapPages m p idx c d
      let base := i / g.bpp * g.bpp
      let near := (List.range g.bpp).findSome? (fun j => if base + j == i then none else
        match s.kv.get (kvIdx g (base + j) lg) with
        | some k => if k.family then none else some (k.body - j * g.bodyBytes)
        | none => none)
      let mk (body : Nat) : KvPage :=
        { body := body, firstPos := 16 * i, fill := 0, family := false, sketched := false, fmt := g.fmt, layer := lg / g.groups,
          group := lg % g.groups, check := 0, commitStep := 0, rows := [] }
      match near with
      | some b => pure (modSess m p idx (fun s => { s with kv := s.kv.put d (mk (b + (i % g.bpp) * g.bodyBytes)) }))
      | none => do
        let (n, m) ← takeRun m p 1 c (.sess idx (.body lg (i / g.bpp)))
        let m ← ensureFrame m p n
        pure (modSess m p idx (fun s => { s with kv := s.kv.put d (mk (ssaOf p n + (i % g.bpp) * g.bodyBytes)) }))

/-- The sketch-region page of page i of a layer-group, and the coarse-region page of block b (R197). -/
def sketchPageOf (s : Sess) (i lg : Nat) : Nat :=
  s.sketchPg + ((i / 256 * s.geo.lgs + lg) * 256 + i % 256) * 32 / 65536
def coarsePageOf (s : Sess) (b lg : Nat) : Nat := s.coarsePg + ((b + 1) * s.geo.lgs + lg) * 32 / 65536

/-- Marks of the coarse region: home in Crest while the session is active (R213), by heat while parked. -/
def coarseHome (m : Mod) (p : Fin 16) (idx : Nat) (on : Bool) : Mod :=
  match m.pol[p].sess.get idx with
  | none => m
  | some s => (List.range s.coarseN).foldl (fun m k =>
      let n := s.coarsePg + k
      match getPage m p n with
      | none => m
      | some pg =>
        if on then
          let m1 := modPage m p n (fun g => { g with home := true })
          if pg.st == .resident && pg.tier != .crest then
            (if fits m1 m1.pol[p] .crest pg.cls then (startCopy m1 p n .crest).getD m1
             else
               let m2 := pinc m1 p (Ctr.quotaRefused 0) 1
               if pg.tier == .toe then (if fits m2 m2.pol[p] .berm pg.cls then (startCopy m2 p n .berm).getD m2 else m2) else m2)
          else m1
        else modPage m p n (fun g => { g with home := false })) m

/-- The order in which a revival streams a session's pages (R64, R217): non-layer state, then layer by layer sinks, the
window newest first, the rest newest first. -/
def streamKey (q : Polder) (s : Sess) (pg : Page) : Nat :=
  match pg.owner with
  | .sess _ .root => 0
  | .sess _ .kvMap => 1
  | .sess _ .sampler => 2
  | .sess _ .feature => 3
  | .sess _ .coarse => 4
  | .sess _ .sketch => 5
  | .sess _ (.body lg base) =>
    let first := base * s.geo.bpp
    let last := s.kv.length / max 1 s.geo.lgs
    let layer := lg / max 1 s.geo.groups
    let newest := 2 ^ 24 - first
    let grp := if first < q.recallCfg.sink then first
      else if last < first + s.geo.bpp + q.recallCfg.window then 2 ^ 25 + newest else 2 ^ 26 + newest
    (layer + 1) * 2 ^ 28 + grp
  | _ => 0

/-- The session's pages in revival order. -/
def streamOrder (q : Polder) (idx : Nat) : List Nat :=
  match q.sess.get idx with
  | none => []
  | some s => (sortBy (fun (a b : Nat × Page) => decide (streamKey q s a.2 < streamKey q s b.2))
      (q.pages.filter (fun e => ownedBy idx e.2 || (familyBodies s).contains e.1))).map (·.1)

/-- Pages of the list that still lie in Toe. -/
def inToe (q : Polder) (ns : List Nat) : List Nat :=
  ns.filter (fun n => match q.pages.get n with
    | some pg => pg.tier == .toe
    | none => false)

/-- A page that the pump set moving counts with the bytes it reads (Table 04-13). -/
def pumped (m : Mod) (p : Fin 16) (n : Nat) : Mod :=
  if ((m.pol[p].pages.get n).map (fun pg => pg.st == .promoting)).getD false then pinc m p Ctr.pumpBytes 65536 else m

/-- The pump streams a revived session until a page is refused room, which pauses it (R64). -/
def pumpN (m : Mod) (p : Fin 16) (idx : Nat) : List Nat → Mod
  | [] => modSess m p idx (fun s => { s with revPaused := false })
  | n :: rest =>
    let r := fetchPage m p n
    if r.1 then modSess r.2 p idx (fun s => { s with revPaused := true }) else pumpN (pumped r.2 p n) p idx rest

def pump (m : Mod) (p : Fin 16) (idx : Nat) : Mod :=
  let ns := inToe m.pol[p] (streamOrder m.pol[p] idx)
  if ns.isEmpty then modSess m p idx (fun s => { s with reviving := false, revPaused := false })
  else pumpN m p idx (ns.filter (fun n => match m.pol[p].pages.get n with
    | some pg => pg.st == .resident
    | none => false))

/-- The descriptor cache (R91): capacity 16,384 per Crest granule; pinned descriptors stay; the others leave by second
chance. -/
def cacheCap (q : Polder) : Nat := 16384 * popcount q.slice.crest 64

def cachePinned (m : Mod) (idx : Nat) : Bool :=
  match m.dir.get idx with
  | none => false
  | some d => d.life == .active || d.own == .pendingOut || d.own == .importing || d.own == .restoring

def evictOne (m : Mod) : Nat → List (Nat × Bool) → List (Nat × Bool)
  | 0, c => c.drop 1
  | _, [] => []
  | n + 1, (i, r) :: t =>
    if cachePinned m i then evictOne m n (t ++ [(i, r)])
    else if r then evictOne m n (t ++ [(i, false)]) else t

/-- A descriptor installed in its polder's cache (R91). -/
def cacheInstall (m : Mod) (p : Fin 16) (idx : Nat) : Mod :=
  let q := m.pol[p]
  if q.cache.any (fun e => e.1 == idx) then m
  else
    let c := if q.cache.length < cacheCap q then q.cache else evictOne m (2 * q.cache.length + 1) q.cache
    modPol m p (fun q => { q with cache := c ++ [(idx, false)] })

/-- A descriptor read for a command: from the cache, or from Berm, which installs it (R91, R94, R117). -/
def cacheUse (m0 : Mod) (p : Fin 16) (idx : Nat) : Mod :=
  let m := wfqServe m0 p 7 1
  if m.pol[p].cache.any (fun e => e.1 == idx) then
    modPol (pinc m p Ctr.descHit 1) p (fun q => { q with cache := updWhere q.cache (fun e => e.1 == idx) (fun e => (e.1, true)) })
  else cacheInstall (pinc m p Ctr.descMiss 1) p idx

/-- STALE_EPOCH naming the new owner of a forwarding entry (R106, Table 14-10b). -/
def rForward (d : Desc) : Res := ⟨stStale, false, d.peerPol % 16 * 2 ^ 12 + d.peerMod % 4096 * 2 ^ 16 + 2 ^ 31, 0⟩

/-- The checks of R86, R93 and R106 on the handle at bytes 16 to 23 and the epoch at 24 to 27: the descriptor, or the
result the command completes with. -/
def resolve (m : Mod) (p : Fin 16) (e : Block) : Except Res (Nat × Desc) :=
  let idx := fld e 16 0 24
  let pol := fld e 16 24 4
  let gen := fld e 20 0 32
  let ep := fld e 24 0 32
  if pol != p.val then .error (rBad 16)
  else if m.refetch.contains idx then .error (rSt stRetry)
  else if m.dirGone.contains idx then .error (rSt stTierLost)
  else match desc? m idx with
    | none => .error (rBad 16)
    | some d =>
      if d.own == .relinquished && d.pol == p.val then .error (rForward d)
      else if d.gen != gen || d.own == .none || d.pol != p.val then .error (rBad 16)
      else if ep != 0 && ep != d.epoch then .error (rSt stStale)
      else .ok (idx, d)

/-- The descriptor a handle names is read, whatever the command then answers (R94). -/
def looked (m : Mod) (p : Fin 16) (e : Block) : Mod :=
  let idx := fld e 16 0 24
  match desc? m idx with
  | none => m
  | some d =>
    if fld e 16 24 4 != p.val || m.refetch.contains idx || m.dirGone.contains idx || d.pol != p.val || d.own == .none ||
       (d.gen != fld e 20 0 32 && d.own != .relinquished) then m
    else cacheUse m p idx

/-- A session command refused on the descriptor its handle names. -/
def turnedAway (m : Mod) (p : Fin 16) (t : Taken) (r : Res) : Mod := complete (looked m p t.entry) p t.tag r

/-- A descriptor looked up by SESSION_ID among a polder's: an entry that is being fetched from the buddy answers RETRY, a lost one
TIER_LOST (R87, R93). -/
def lookupSid (m : Mod) (p : Fin 16) (sid : Nat) : Except Res (Option (Nat × Desc)) :=
  match findSid m p.val sid with
  | none => .ok none
  | some x => if m.refetch.contains x.1 then .error (rSt stRetry) else if m.dirGone.contains x.1 then .error (rSt stTierLost) else .ok (some x)

/-- R98: a descriptor in transfer answers BUSY to every command its state does not accept. -/
def busyOwn (d : Desc) : Bool := d.own == .pendingOut || d.own == .importing || d.own == .restoring

/-- The life rule of R97 for a command accepted in ACTIVE and PARKED. -/
def liveSession (m : Mod) (p : Fin 16) (e : Block) : Except Res (Nat × Desc) :=
  match resolve m p e with
  | .error r => .error r
  | .ok (idx, d) =>
    if busyOwn d then .error (rSt stBusy)
    else if d.life == .active || d.life == .parked then .ok (idx, d)
    else .error rBadNone

/-- The session is in a pass, or held at a layer by R65: a step of it is in flight. -/
def stepInFlight (q : Polder) (idx : Nat) : Bool :=
  q.passes.any (fun x => x.seqs.any (fun s => s.sess == idx && s.ended.isNone)) ||
  q.reqs.any (fun r => r.idx == idx && r.heldLayer.isSome)

/-- The result fields of a GEN_STEP (Table 07-2). -/
def genResult (r : Req) (epoch endc stop : Nat) : Block :=
  r.emitted % 2 ^ 32 + at8 4 (endc % 16 + stop % 16 * 16) + at8 8 (epoch % 2 ^ 32) + at8 12 (r.accepted % 2 ^ 32)

/-- The end of a request: its final interrupt, then its completion; a flagged request that ends by END 1 to 3 reports
RECALL_SHORT (R224, R245, R418). The session's next queued request starts (R223). -/
def finishReq (m : Mod) (p : Fin 16) (r : Req) (status endc stop : Nat) : Mod :=
  let ep := match desc? m r.idx with
    | some d => d.epoch
    | none => 0
  let m1 := if decide (0 < r.prod) then
      polIrq (pincIf m p (polIrqOn m p r.vector) Ctr.ringIrq) p r.vector else m
  let m2 := pinc m1 p Ctr.genRequests 1
  let m3 := pincIf m2 p (endc == 2 || endc == 3) Ctr.stopMatches
  let st := if r.short && status == stOk then stRecallShort else status
  let m4 := modPol m3 p (fun q =>
    let rest := q.reqs.filter (fun x => x.tag != r.tag)
    let nxt := (rest.find? (fun x => x.idx == r.idx)).map Req.tag
    { q with reqs := if rest.any (fun x => x.idx == r.idx && x.running) then rest
                     else updWhere rest (fun x => some x.tag == nxt) (fun x => { x with running := true }) })
  let fwd := match desc? m r.idx with
    | some d => if d.own == .relinquished then (rForward d).detail else 0
    | none => 0
  complete m4 p r.tag ⟨st, r.short, if st == stQuota then stop else if st == stStale then fwd else if st == stBadCmd then 0xFFFFFFFF else 0,
    genResult r ep endc (if endc == 3 then stop else 0)⟩

/-- A request ends; while a step's tokens wait for their acknowledgement it ends after their release (R243, R250). -/
def endReq (m : Mod) (p : Fin 16) (tag status endc stop : Nat) : Mod :=
  match m.pol[p].reqs.find? (fun r => r.tag == tag) with
  | none => m
  | some r =>
    if m.pol[p].releases.any (fun x => x.req == tag) then
      modPol m p (fun q => { q with
        reqs := updWhere q.reqs (fun x => x.tag == tag) (fun x => { x with ending := some (status, endc, stop) }) })
    else finishReq m p r status endc stop

/-- Every request of a session ended with one status and END (R225, Table 01-6). -/
def endSessReqs (m : Mod) (p : Fin 16) (idx status endc : Nat) : Mod :=
  (m.pol[p].reqs.filter (fun r => r.idx == idx && r.ending.isNone)).foldl (fun m r => endReq m p r.tag status endc 0) m

/-- The waiting commands of a session that its end or loss completes (R116). -/
def dropWaits (m : Mod) (p : Fin 16) (idx : Nat) (st : Res) : Mod :=
  let ws := m.pol[p].waits.filter (fun w => w.idx == idx)
  completeAll (modPol m p (fun q => { q with waits := q.waits.filter (fun w => w.idx != idx) })) p (ws.map Wait.tag) st

end Sys2Proof.Machine
end

