-- ==== Sys2Proof/Machine/CkptCore.lean ====
section
/-! DEFINITION. Checkpoints: the snapshot of a session as records (R287 to R291), the stores with their chunks (R286, R299 to
R301), and the end of a checkpoint in progress (R294, R298). -/

namespace Sys2Proof.Machine

/-- Checkpoint parameters that POLDER_COMPOSE sets (Table 09-5). -/
def ckConfDefault : CkConf :=
  { enable := false, onPark := false, every := 48, chainMax := 32, retain := 2, share := 10, inflight := 64, repl := [] }

def ckStoreEmpty : CkStore := { chunks := [], cks := [], begins := [], rebuilt := true }

def modCk (m : Mod) (p : Fin 16) (f : CkState → CkState) : Mod := modPol m p (fun q => { q with ck := f q.ck })

/-- A record with its digest (R286). -/
def mkRec (kind fmt fill lg ix check bytes : Nat) (pay : CkPay) : CkRec :=
  { kind := kind, fmt := fmt, fill := fill, lg := lg, ix := ix, check := check, digest := payDigest pay, bytes := bytes,
    pay := pay }

/-- The committed rows of a KV page; rows at and beyond FILL are zeros and are left out (R296). -/
def committedRows (k : KvPage) : List KvRow := (k.rows.filter (fun e => decide (e.1 < k.fill))).map (·.2)

/-- The 256 page-sketch slots of a block, unsketched ones zero (Table 09-1). -/
def blockSlots (s : Sess) (b lg : Nat) : List Nat :=
  (List.range 256).map (fun i =>
    match s.kv.get (kvIdx s.geo (256 * b + i) lg) with
    | some k => if k.sketched then (s.sketch.get (kvIdx s.geo (256 * b + i) lg)).getD 0 else 0
    | none => 0)

/-- The records of a snapshot, of pages changed after a step (Table 09-1), in the order of R217: non-layer kinds first. A
base has no lower bound. -/
def snapRecs (d : Desc) (s : Sess) (fmt : Nat) (since : Option Nat) : List CkRec :=
  let g := s.geo
  let newer (k : KvPage) : Bool := match since with
    | none => true
    | some st => decide (st < k.commitStep)
  let head := [mkRec 1 0 0 0 0 0 64 (.desc d), mkRec 2 0 0 0 0 0 65536 (.root (rootImg (pn d.pol) s)),
    mkRec 3 0 0 0 0 0 65536 (.sampler s.samp)]
  let feat := if s.gen.featValid then [mkRec 4 0 0 0 0 0 (s.featN * 65536) (.feature fmt s.featN s.gen.feature)] else []
  let blocks := dedup ((s.kv.filter (fun e => e.2.sketched && newer e.2)).map (fun e => (e.2.firstPos / 4096, e.1 % max 1 g.lgs)))
  let sk := if d.sparse then
      mkRec 7 0 0 0 0 0 (g.lgs * 32) (.qsketch ((List.range g.lgs).map (fun lg => (s.querySk.get lg).getD 0))) ::
      blocks.map (fun b => mkRec 6 0 0 b.2 b.1 0 8192 (.sketch (blockSlots s b.1 b.2)))
    else []
  let bodies := (s.kv.filter (fun e => decide (1 ≤ e.2.fill) && newer e.2)).map (fun e =>
    mkRec 5 g.fmt e.2.fill (e.1 % max 1 g.lgs) (e.1 / max 1 g.lgs) (if e.2.fill == 16 then e.2.check else 0) g.bodyBytes
      (.body g.fmt g.bodyBytes (committedRows e.2)))
  head ++ feat ++ sk ++ bodies

/-- The order bodies are streamed in: layer by layer, sinks, then the window newest first, then the rest newest first
(R217). -/
def loadOrder (q : Polder) (groups tokens : Nat) (recs : List CkRec) : List CkRec :=
  let last := cdiv tokens 16
  let key (r : CkRec) : Nat :=
    let newest := 2 ^ 24 - r.ix
    let grp := if r.ix < q.recallCfg.sink then r.ix else if last < r.ix + 1 + q.recallCfg.window then 2 ^ 25 + newest else 2 ^ 26 + newest
    (r.lg / max 1 groups) * 2 ^ 28 + grp
  sortBy (fun a b => decide (key a < key b)) (recs.filter (fun r => r.kind == 5))

/-- The records of a checkpoint in the order of R217: non-layer kinds first (R306). -/
def recOrder (q : Polder) (groups tokens : Nat) (recs : List CkRec) : List CkRec :=
  sortBy (fun a b => decide (a.kind < b.kind)) (recs.filter (fun r => r.kind != 5)) ++ loadOrder q groups tokens recs

/-- A committed checkpoint of a store by name. -/
def findCk (st : CkStore) (sid epoch seq : Nat) : Option Ck :=
  st.cks.find? (fun c => c.sid == sid && c.epoch == epoch && c.seq == seq)

/-- The chain of a checkpoint, base first; none when an ancestor is missing (R303). -/
def chainOf (st : CkStore) : Nat → Ck → Option (List Ck)
  | 0, _ => none
  | n + 1, c =>
    if c.base then some [c]
    else match findCk st c.sid c.parentEpoch c.parentSeq with
      | none => none
      | some par => (chainOf st n par).map (fun l => l ++ [c])

def chain (st : CkStore) (c : Ck) : Option (List Ck) := chainOf st (st.cks.length + 1) c

/-- The deltas of a checkpoint's chain. -/
def chainDeltas (st : CkStore) (c : Ck) : Nat := ((chain st c).getD []).length - 1

def recKey (r : CkRec) : Nat × Nat × Nat := (r.kind, r.lg, r.ix)

/-- Records assembled over a chain: the later checkpoint wins (R303). -/
def assemble (cs : List Ck) : List CkRec :=
  cs.foldl (fun acc c => acc.filter (fun r => !c.recs.any (fun x => recKey x == recKey r)) ++ c.recs) []

/-- A chunk referenced by one more record; the bytes newly stored, 0 when the chunk was held (R286). -/
def addChunk (st : CkStore) (r : CkRec) : Nat × CkStore :=
  if st.chunks.any (fun c => c.digest == r.digest) then
    (0, { st with chunks := updWhere st.chunks (fun c => c.digest == r.digest) (fun c => { c with refs := c.refs + 1 }) })
  else (r.bytes, { st with chunks := st.chunks ++ [{ digest := r.digest, pay := r.pay, bytes := r.bytes, refs := 1 }] })

def addChunks (st : CkStore) (rs : List CkRec) : Nat × CkStore :=
  rs.foldl (fun acc r => let x := addChunk acc.2 r; (acc.1 + x.1, x.2)) (0, st)

/-- References of records given back; a chunk at 0 is freed (R299). -/
def dropChunks (st : CkStore) (rs : List CkRec) : CkStore :=
  rs.foldl (fun st r => { st with chunks := (updWhere st.chunks (fun c => c.digest == r.digest)
    (fun c => { c with refs := c.refs - 1 })).filter (fun c => c.digest != r.digest || decide (0 < c.refs)) }) st

def chunkBytes (st : CkStore) : Nat := (st.chunks.map Chunk.bytes).sum

/-- Whether an older checkpoint is the parent of a newer one. -/
def isParent (par c : Ck) : Bool := !c.base && c.sid == par.sid && c.parentSeq == par.seq && c.parentEpoch == par.epoch

/-- The checkpoints whose chain passes through a given one, itself included (R301). -/
def descendants (st : CkStore) : Nat → List Ck → List Ck
  | 0, l => l
  | n + 1, l =>
    let more := st.cks.filter (fun c => !l.contains c && l.any (fun x => isParent x c))
    if more.isEmpty then l else descendants st n (l ++ more)

/-- Checkpoints removed from a store with their references (R299, R301). -/
def removeCks (st : CkStore) (l : List Ck) : CkStore :=
  l.foldl (fun st c => dropChunks { st with cks := st.cks.filter (fun x => x != c) } c.recs) st

/-- The checkpoints RETAIN keeps of a session: the newest committed ones and their ancestors (R301). -/
def retained (st : CkStore) (sid n : Nat) : List Ck :=
  let mine := (st.cks.filter (fun c => c.sid == sid)).reverse
  dedup ((mine.take n).flatMap (fun c => (chain st c).getD [c]))

/-- STORE_BYTES (Table 09-11). -/
def storeGauge (m : Mod) (p : Fin 16) : Mod :=
  modPol m p (fun q => { q with
    ctr := q.ctr.wr Ctr.storeBytes (chunkBytes q.ck.store + (q.ck.repl.map (fun e => chunkBytes e.2)).sum) })

/-- The Toe and Berm pages that the contents of the polder's stores need (R286): 64 KiB pages of chunks and records in Toe, those of
checkpoints in progress included, and one Berm page of index for each 1,024 chunks. -/
def storeNeed (q : Polder) (t : Tier) : Nat :=
  let all := q.ck.store :: q.ck.repl.map (·.2)
  let open' := (((q.ck.jobs.filter (fun j => j.written && !j.localDone)).map (fun j => 64 * j.ck.recs.length + 128)).sum +
    (q.ck.ins.map (fun x => 64 * x.recs.length)).sum)
  match t with
  | .toe => (all.map (fun st => cdiv (chunkBytes st) 65536 +
      cdiv ((st.cks.map (fun c => 64 * c.recs.length + 128)).sum + 64 * st.begins.length) 65536)).sum + cdiv open' 65536
  | _ => (all.map (fun st => cdiv st.chunks.length 1024)).sum

def storePages (q : Polder) (t : Tier) : List Nat :=
  (q.pages.filter (fun e => e.2.tier == t && (match e.2.owner with
    | .store _ => true
    | _ => false))).map (·.1)

def growStore (m : Mod) (p : Fin 16) (t : Tier) : Nat → Except Nat Mod
  | 0 => .ok m
  | n + 1 =>
    if storeNeed m.pol[p] t ≤ (storePages m.pol[p] t).length then .ok m
    else if !fits m m.pol[p] t .lc then .error (tierNo t)
    else match unusedRun m p 1 with
      | none => .error 3
      | some (pg, m1) =>
        match takeFrame m1 p t with
        | none => .error (tierNo t)
        | some (f, m2) =>
          match takeTables (settleAt (setPage m2 p pg { zeroPage .lc (.store pg) with home := true }) p pg t f) p with
          | .error _ => .error 1
          | .ok m3 => growStore m3 p t n

/-- Pages the stores no longer need are released. -/
def shrinkStore (m : Mod) (p : Fin 16) (t : Tier) : Mod :=
  let ps := storePages m.pol[p] t
  releasePages m p (ps.take (ps.length - storeNeed m.pol[p] t))

def fitStore (m : Mod) (p : Fin 16) : Except Nat Mod := do
  let m := shrinkStore (shrinkStore m p .toe) p .berm
  let m ← growStore m p .toe (storeNeed m.pol[p] .toe + 1)
  growStore m p .berm (storeNeed m.pol[p] .berm + 1)

/-- What was added to the stores is written: pages are taken as needed, and the last page there was is written anew. The Toe units that the
additions await (R72). -/
def writeStore (m : Mod) (p : Fin 16) : Except Nat (List Nat × Mod) := do
  let old := storePages m.pol[p] .toe
  let m ← fitStore m p
  let now := storePages m.pol[p] .toe
  let unit (n : Nat) : Option Nat := (getPage m p n).map Page.frame
  let new := (now.filter (fun n => !old.contains n)).filterMap unit
  match ((now.filter (fun n => old.contains n)).getLast?).bind unit with
  | none => pure (new, m)
  | some u => pure (u :: new, rewriteUnit m u)

/-- Of a list of Toe units, those still to be acknowledged; one that has left the map is not awaited (R72). -/
def unacked (m : Mod) (us : List Nat) : List Nat := us.filter (fun u => ((m.ftl.units.get u).map (fun x => !x.acked)).getD false)

/-- Every Toe unit of the polder's stores is acknowledged. -/
def storeAcked (m : Mod) (p : Fin 16) : Bool :=
  (unacked m ((storePages m.pol[p] .toe).filterMap (fun n => (getPage m p n).map Page.frame))).isEmpty

/-- The Toe pages of the polder's stores that hold a chunk: each store's chunks stand one after another from the start of its pages, the local
store's first (log entry 62). -/
def chunkPages (m : Mod) (p : Fin 16) (digest : Nat) : List Nat :=
  let q := m.pol[p]
  let pages := storePages q .toe
  let of (a : Nat × List Nat) (st : CkStore) : Nat × List Nat :=
    let x := st.chunks.foldl (fun (b : Nat × List Nat) c => (b.1 + c.bytes,
      if c.digest == digest then (List.range ((b.1 + c.bytes - 1) / 65536 - b.1 / 65536 + 1)).map (fun i => a.1 + b.1 / 65536 + i) else b.2)) (0, a.2)
    (a.1 + cdiv x.1 65536, x.2)
  ((((q.ck.store :: q.ck.repl.map (·.2)).foldl of (0, [])).2).filterMap (fun i => pages[i]?))

/-- Chunks read from the stores (R74). -/
def readChunks (m : Mod) (p : Fin 16) (ds : List Nat) : Mod := ds.foldl (fun m d => toeReads m p (chunkPages m p d)) m

/-- A checkpoint in progress of a session. -/
def ckJobOf (q : Polder) (sid : Nat) : Option CkJob := q.ck.jobs.find? (fun j => j.ck.sid == sid)

def modJob (m : Mod) (p : Fin 16) (sid : Nat) (f : CkJob → CkJob) : Mod :=
  modCk m p (fun c => { c with jobs := updWhere c.jobs (fun j => j.ck.sid == sid) f })

/-- The engine operation a checkpoint holds is given back (R294). -/
def ckOpEnd (m : Mod) (p : Fin 16) (j : CkJob) : Mod :=
  if j.engine then modPol m p (fun q => { q with ops := q.ops - 1 }) else m

/-- A checkpoint abandoned: its records are reclaimed and its commands complete with the status (R298, R299). -/
def ckAbandon (m : Mod) (p : Fin 16) (sid : Nat) (r : Res) : Mod :=
  match ckJobOf m.pol[p] sid with
  | none => m
  | some j =>
    let m1 := modCk m p (fun c => { c with
      jobs := c.jobs.filter (fun x => x.ck.sid != sid)
      store := if j.written && !j.localDone then dropChunks c.store j.ck.recs else c.store })
    let m2 := pinc (ckOpEnd m1 p j) p Ctr.ckptAbandoned 1
    let m3 := match j.begin with
      | some t => complete m2 p t r
      | none => m2
    match j.commit with
    | some t => complete m3 p t r
    | none => m3

/-- The parent a new checkpoint takes: the one CKPT_REF names, when it is committed in the local store (R288). -/
def parentOf (q : Polder) (d : Desc) : Option Ck :=
  if d.ckptRef == 0 then none else (q.ck.store.cks.reverse).find? (fun c => c.sid == d.sid && c.seq == d.ckptRef)

/-- SEQ of a new checkpoint (R287). -/
def nextSeqOf (q : Polder) (d : Desc) : Nat :=
  1 + max d.ckptRef (((q.ck.store.begins.filter (fun b => b.1 == d.sid)).map (·.2.1)).foldl max 0)

/-- EPOCH of a checkpoint: the one held, which in PENDING_OUT at H is H - 1, also while the source reasserts at H + 1 (Table 03-13). -/
def ckEpoch (d : Desc) : Nat := if d.own != .pendingOut then d.epoch else if d.pend == 0 then d.epoch - 2 else d.pend - 1

/-- The checkpoint of a session at this instant (R287 to R291). -/
def snapshot (m : Mod) (p : Fin 16) (d : Desc) (s : Sess) (wantBase hosted : Bool) : Ck :=
  let q := m.pol[p]
  let par := parentOf q d
  let merged := match par with
    | none => false
    | some c => wantBase || hosted || decide (q.ck.conf.chainMax ≤ chainDeltas q.ck.store c)
  let fresh := snapRecs d s (featFmt q d.slot) (par.map Ck.step)
  let recs := recOrder q s.geo.groups d.tokens (match par with
    | none => fresh
    | some c => if merged then assemble (((chain q.ck.store c).getD [c]) ++ [{ c with recs := fresh }]) else fresh)
  let base := par.isNone || merged
  let prog := (q.slots.get d.slot).map (fun x => x.man.main)
  let attr := (prog.bind (fun g => g.layer.find? (fun k => k.op == 3))).map Kernel.attr
  { sid := d.sid, epoch := ckEpoch d, seq := nextSeqOf q d, base := base,
    hosted := hosted, parentSeq := if base then 0 else d.ckptRef,
    parentEpoch := if base then 0 else (par.map Ck.epoch).getD 0, step := d.step, tokens := d.tokens, ownerMod := selfId m,
    ownerPol := p.val, cls := d.cls, sparse := d.sparse, sealed := d.sealed, fmt := s.geo.fmt, layers := s.geo.layers,
    groups := s.geo.groups, headDim := (attr.getD 0) % 4, w := s.geo.w, ctxMax := d.ctxMax,
    modelDigest := (prog.map Prog.digest).getD 0, recsDigest := recsDigest d.sid (ckEpoch d) (nextSeqOf q d) recs, recs := recs }

/-- Bytes of a stream after its header: each record with its payload padded to 64 B, then the commit record (R306). -/
def streamBytes (c : Ck) : Nat := (c.recs.map (fun r => 64 + 64 * cdiv r.bytes 64)).sum + 128

/-- The result of CKPT_BEGIN (Table 09-4). -/
def ckBeginRes (j : CkJob) : Res :=
  let n := if j.host.isSome then cdiv (64 + streamBytes j.ck) 64 else j.ck.recs.length
  rOk (j.ck.seq % 2 ^ 32 + at8 4 (j.ck.parentSeq % 2 ^ 32) + at8 8 (j.ck.epoch % 2 ^ 32) + at8 12 (n % 2 ^ 32))

/-- A checkpoint still in progress: its local commit or a replica is outstanding. -/
def ckOpen (j : CkJob) : Bool := !j.localDone || j.repl.any (fun r => r.st != .done && r.st != .failed)

/-- Room for another checkpoint in the polder (R294). -/
def ckRoom (q : Polder) : Bool := decide ((q.ck.jobs.filter ckOpen).length < q.ck.conf.inflight)

/-- A checkpoint of the session is in progress. -/
def ckBusy (q : Polder) (sid : Nat) : Bool := q.ck.jobs.any (fun j => j.ck.sid == sid && ckOpen j)

/-- The pages the copier reads for a checkpoint (Table 09-1): those of the non-layer kinds, the bodies and sketches that the records name. -/
def copySet (q : Polder) (s : Sess) (rs : List CkRec) : List Nat :=
  let body (r : CkRec) : Option Nat :=
    if r.kind == 5 then (s.kv.get (kvIdx s.geo r.ix r.lg)).map bodyPage
    else if r.kind == 6 then some (sketchPageOf s (256 * r.ix) r.lg) else none
  let feat := if rs.any (fun r => r.kind == 4) then (List.range s.featN).map (fun i => s.featPg + i) else []
  let coarse := if rs.any (fun r => r.kind == 7) then (List.range s.coarseN).map (fun i => s.coarsePg + i) else []
  dedup ((s.rootPg :: s.sampPg :: (feat ++ coarse ++ rs.filterMap body)).filter q.pages.has)

/-- The chunks and records of a checkpoint go to the local store once its BEGIN record is acknowledged; a refused frame is remembered
(Table 09-6 steps 4 and 5, R298). -/
def ckWrite (m : Mod) (p : Fin 16) (sid : Nat) : Mod :=
  match ckJobOf m.pol[p] sid with
  | none => m
  | some j =>
    let (new, st) := addChunks m.pol[p].ck.store j.ck.recs
    let m1 := modJob (modCk m p (fun c => { c with store := st })) p sid (fun j => { j with written := true, newBytes := new })
    match writeStore m1 p with
    | .error t => modJob (countRefused m p t) p sid (fun j => { j with refused := some t })
    | .ok (us, m2) => modJob m2 p sid (fun j => { j with units := unacked m2 us })

/-- The BEGIN record of a checkpoint is acknowledged: CKPT_BEGIN without AUTO_COMMIT completes, and the copy goes to the store
(Table 09-6 steps 3 to 5). -/
def ckBegun (m : Mod) (p : Fin 16) (j : CkJob) : Mod :=
  let m1 := modJob m p j.ck.sid (fun x => { x with beginAcked := true, begin := if x.auto then x.begin else none })
  let m2 := match j.begin with
    | some t => if j.auto then m1 else complete m1 p t (ckBeginRes j)
    | none => m1
  ckWrite m2 p j.ck.sid

/-- A checkpoint begins at a step boundary: the snapshot is fixed and its BEGIN record goes to the local store; a stream
checkpoint writes to the companion instead and touches no store (R295, R306). -/
def ckStart (m : Mod) (p : Fin 16) (idx : Nat) (tag : Option Nat) (auto base noRepl engine : Bool)
    (host : Option (Nat × Nat)) : Mod :=
  match desc? m idx, m.pol[p].sess.get idx with
  | some d, some s =>
    let m := modCk m p (fun c => { c with jobs := c.jobs.filter (fun j => j.ck.sid != d.sid) })
    let ck := snapshot m p d s base host.isSome
    let fresh := snapRecs d s (featFmt m.pol[p] d.slot) ((parentOf m.pol[p] d).map Ck.step)
    let set := copySet m.pol[p] s fresh
    let job : CkJob :=
      { idx := idx, ck := ck, begin := tag, auto := auto, engine := engine, commit := none, host := host,
        beginAcked := host.isSome, written := false, copied := false, localDone := false, newBytes := 0,
        readBytes := (fresh.map CkRec.bytes).sum,
        repl := if noRepl || host.isSome then [] else m.pol[p].ck.conf.repl.map (fun t => ⟨t.1, t.2, .waiting, 0⟩),
        copying := set.foldl (fun (a : SMap Nat) n => a.put n 0) [], units := [], refused := none
        lost := set.any (fun n => ((getPage m p n).map (fun g => g.st == .lost)).getD false) }
    match host with
    | some (_, len) =>
      if len < 64 + streamBytes ck then
        match tag with
        | some t => complete m p t ⟨stQuota, false, 3, at8 12 (cdiv (64 + streamBytes ck) 64)⟩
        | none => m
      else modCk m p (fun c => { c with jobs := c.jobs ++ [job] })
    | none =>
      let m1 := modCk m p (fun c => { c with store := { c.store with begins := c.store.begins ++ [(d.sid, ck.seq, ck.epoch)] } })
      match writeStore m1 p with
      | .error t =>
        let m2 := modCk m p (fun c => { c with jobs := c.jobs ++ [job] })
        ckAbandon (countRefused m2 p t) p d.sid (rQuota t)
      | .ok (us, m2) =>
        let j := { job with units := unacked m2 us }
        let m3 := modCk m2 p (fun c => { c with jobs := c.jobs ++ [j] })
        if j.units.isEmpty then ckBegun m3 p j else m3
  | _, _ => m

/-- A scheduled or ON_PARK checkpoint: one that cannot begin is retried at the next step boundary (R293, R294). -/
def ckAuto (m : Mod) (p : Fin 16) (idx : Nat) : Mod :=
  match desc? m idx with
  | none => m
  | some d =>
    let q := m.pol[p]
    if ckBusy q d.sid || !ckRoom q || decide (1024 / profilePolders m ≤ q.ops) then
      modCk m p (fun c => { c with due := dedup (c.due ++ [idx]) })
    else
      let m1 := modPol m p (fun q => { q with ops := q.ops + 1 })
      ckStart (modCk m1 p (fun c => { c with due := c.due.filter (fun x => x != idx) })) p idx none true false false true none

/-- The STEP of a session's last committed checkpoint, 0 when it has none. -/
def lastCkStep (q : Polder) (d : Desc) : Nat := ((parentOf q d).map Ck.step).getD 0

/-- At a session's step boundary: the scheduled checkpoint (R293). -/
def ckAtBoundary (m : Mod) (p : Fin 16) (idx : Nat) : Mod :=
  match desc? m idx with
  | none => m
  | some d =>
    let q := m.pol[p]
    if (q.ck.conf.enable && d.life == .active && decide (q.ck.conf.every ≤ d.step - lastCkStep q d)) || q.ck.due.contains idx
    then ckAuto m p idx else m

end Sys2Proof.Machine
end

