-- ==== Sys2Proof/Machine/Kv.lean ====
section
/-! DEFINITION. Sketches (R202, R203), CHECK (R204) and the commit of KV rows (R198, R199). -/

namespace Sys2Proof.Machine

/-- Element c of a K row as an exact fixed-point value (R202). -/
def kElem (fmt : Nat) (r : KvRow) (c : Nat) : Int := elemFixed fmt ((r.ks[c / 32]?).getD 0) ((r.k[c]?).getD 0)

/-- The projection of R202: bit j is set when the signed sum is not negative. -/
def project (xs : List Int) : Nat :=
  (List.range 256).foldl (fun acc j =>
    let y := (xs.zipIdx.map (fun e => if sketchSign (1024 * j + e.2) then e.1 else -e.1)).sum
    if 0 ≤ y then acc + 2 ^ j else acc) 0

/-- The page sketch over the stored K rows (R202). -/
def pageSketch (fmt w : Nat) (rows : List KvRow) : Nat :=
  project ((List.range w).map (fun c => (rows.map (fun r => kElem fmt r c)).sum))

/-- The query sketch of a KV group from a strip's first query row: `q` holds the group's query heads in order, KV head
first (R190, R202, R211). -/
def querySketch (qfmt heads dim per : Nat) (q : List Nat) : Nat :=
  project ((List.range (heads * dim)).map (fun c =>
    ((List.range per).map (fun k => elemFixed qfmt 0 ((q[((c / dim) * per + k) * dim + c % dim]?).getD 0))).sum))

/-- Bit j of a block sketch: at least 128 of the block's 256 page sketches have it (R203). -/
def blockSketch (ps : List Nat) : Nat :=
  (List.range 256).foldl (fun acc j => if 128 ≤ (ps.filter (fun x => bit x j)).length then acc + 2 ^ j else acc) 0

/-- The rows of a page in order. -/
def pageRows (k : KvPage) : List KvRow := k.rows.map (·.2)

/-- A full page checked and, for Sparse-Recall, sketched (R199 step 2). -/
def sealKv (m : Mod) (p : Fin 16) (key : Nat) (sparse : Bool) (i lg : Nat) : Mod :=
  match m.pol[p].sess.get key with
  | none => m
  | some s =>
    let d := kvIdx s.geo i lg
    match s.kv.get d with
    | none => m
    | some k =>
      let m1 := modSess m p key (fun s => { s with
        kv := s.kv.upd d (fun k => { k with check := bodyCheck s.geo.fmt (pageRows k), sketched := sparse })
        sketch := if sparse then s.sketch.put d (pageSketch s.geo.fmt s.geo.w (pageRows k)) else s.sketch })
      if sparse then pinc (writePage m1 p (sketchPageOf s i lg) id) p Ctr.sketches 1 else m1

/-- The block sketch of a complete block of a layer-group (R203). -/
def sealBlock (m : Mod) (p : Fin 16) (key b lg : Nat) : Mod :=
  match m.pol[p].sess.get key with
  | none => m
  | some s =>
    let ps := (List.range 256).map (fun i => (s.sketch.get (kvIdx s.geo (256 * b + i) lg)).getD 0)
    let m1 := modSess m p key (fun s => { s with blockSk := s.blockSk.put (kvIdx s.geo b lg) (blockSketch ps) })
    writePage m1 p (coarsePageOf s b lg) id

/-- The blocks of every layer-group that are complete and not yet sketched, and BLOCKS raised (R199 step 3). -/
def sealBlocks (m : Mod) (p : Fin 16) (key full : Nat) : Mod :=
  match m.pol[p].sess.get key with
  | none => m
  | some s =>
    let m1 := ((List.range (full / 256)).filter (fun b => decide (s.blocks ≤ b))).foldl (fun m b =>
      (List.range s.geo.lgs).foldl (fun m lg => sealBlock m p key b lg) m) m
    modSess m1 p key (fun s => { s with blocks := max s.blocks (full / 256) })

/-- FILL and COMMIT_STEP of one page set at a commit that ends at position `upto` (R199 step 1). -/
def commitPage (m : Mod) (p : Fin 16) (key : Nat) (sparse : Bool) (upto step i lg : Nat) : Mod :=
  match m.pol[p].sess.get key with
  | none => m
  | some s =>
    let d := kvIdx s.geo i lg
    match s.kv.get d with
    | none => m
    | some k =>
      let fill := min 16 (upto - 16 * i)
      if fill ≤ k.fill then m
      else
        let m1 := modSess m p key (fun s => { s with kv := s.kv.upd d (fun k => { k with fill := fill, commitStep := step }) })
        let m2 := pincIf (pincIf m1 p (k.fill == 0) Ctr.kvPagesOpened) p (fill == 16) Ctr.kvPagesFull
        let m3 := match s.tablePgs.get (mapKeys d).2 with
          | some n => writeBlocks m2 p n (blocksAt (32 * (d % 2048)) 32) id
          | none => m2
        if fill == 16 then sealKv m3 p key sparse i lg else m3

/-- The commit of rows `lo` to `upto - 1` of a session at a step (R199). -/
def commitKv (m : Mod) (p : Fin 16) (key : Nat) (sparse : Bool) (lo upto step : Nat) : Mod :=
  match m.pol[p].sess.get key with
  | none => m
  | some s =>
    let pgs := (List.range (cdiv upto 16)).filter (fun i => decide (lo / 16 ≤ i))
    let m1 := pgs.foldl (fun m i => (List.range s.geo.lgs).foldl (fun m lg => commitPage m p key sparse upto step i lg) m) m
    if sparse then sealBlocks m1 p key (upto / 16) else m1

/-- A KV body of an import placed in session space with its descriptor, CHECK and sketch (R196, R219, R247). -/
def placeBody (m : Mod) (p : Fin 16) (key : Nat) (c : Cls) (sparse : Bool) (x : PageMsg) : Except Nat Mod := do
  let m ← openKv m p key c x.ix x.lg
  match m.pol[p].sess.get key with
  | none => pure m
  | some s =>
    let d := kvIdx s.geo x.ix x.lg
    let m := modSess m p key (fun s => { s with kv := s.kv.upd d (fun k => { k with
      fill := x.fill, fmt := x.fmt, rows := x.rows.zipIdx.map (fun e => (e.2, e.1)) }) })
    let m := match s.kv.get d with
      | some k => writeBlocks m p (bodyPage k) (blocksAt (ssaByte k.body) s.geo.bodyBytes) id
      | none => m
    let m ← if sparse && x.fill == 16 then ensureFrame m p (sketchPageOf s x.ix x.lg) else pure m
    let m ← if sparse && x.fill == 16 && x.ix % 256 == 255 then ensureFrame m p (coarsePageOf s (x.ix / 256) x.lg) else pure m
    if x.fill == 16 then pure (sealKv m p key sparse x.ix x.lg) else pure m

end Sys2Proof.Machine
end

