-- ==== Sys2Proof/Machine/Egress.lean ====
section
/-! DEFINITION. Egress of an Ethernet port (R312): policing (R314, R315), weighted fair queueing (R318), sluice gates and the
length-aware guard (R321 to R325), and transmission selection. -/

namespace Sys2Proof.Machine

/-- Colours: 0 green, 1 yellow, 2 red (R314). -/
def colourOf (pl : Policer) (need : Nat) (pre : Bool) : Nat :=
  if pl.tp < need then 2 else if pre || decide (pl.tc < need) then 1 else 0

/-- The tokens a colour takes (R314). -/
def takeTokens (pl : Policer) (need colour : Nat) : Policer :=
  match colour with
  | 0 => { pl with tp := pl.tp - need, tc := pl.tc - need }
  | 1 => { pl with tp := pl.tp - need }
  | _ => pl

/-- The action of a colour: 0 pass, 1 mark, 2 hold, 3 drop or refuse (Table 10-3). -/
def actionOf (pl : Policer) (colour : Nat) : Nat :=
  match colour with
  | 0 => 0 | 1 => pl.set.yAct | _ => pl.set.rAct

/-- A unit tested: its colour and action, and the policer after it; a held unit takes no tokens (R315). -/
def police (pl : Policer) (need : Nat) (pre : Bool) : Nat × Nat × Policer :=
  if !pl.set.en then (0, 0, pl)
  else
    let c := colourOf pl need (pre && pl.set.aware)
    let a := actionOf pl c
    if a == 2 then (c, a, pl) else (c, a, takeTokens pl need c)

/-- A policer's index: 2 * POINT + CLASS (R443). -/
def polIdx (point : Nat) (c : Cls) : Fin 6 := ⟨(2 * (point % 3) + (if c == .be then 1 else 0)) % 6, Nat.mod_lt _ (by decide)⟩

/-- Counting a coloured unit (Table 10-8); a red unit counts once however often it is retested. -/
def countColour (m : Mod) (p : Fin 16) (i : Fin 6) (colour n : Nat) (redBefore : Bool) : Mod :=
  match colour with
  | 0 => pinc m p (Ctr.polGreen i) n
  | 1 => pinc m p (Ctr.polYellow i) n
  | _ => if redBefore then m else pinc m p (Ctr.polRed i) n

/-- Bits per ns of a port mode (Table 16-2). -/
def lineRate (mode : Nat) : Nat :=
  match mode with
  | 0 => 800 | 1 => 400 | 2 => 200 | _ => 100

def portBoard (m : Mod) (k : Fin 4) : PortBoard := ((m.net.board.bind (fun b => b.ports[k.val]?))).getD PortBoard.blank
def portRate (m : Mod) (k : Fin 4) : Nat := lineRate (portBoard m k).mode

/-- The transmission time of a frame and the inter-frame gap, in whole ns (R324). -/
def frameNs (rate len : Nat) : Nat := cdiv ((len + 8) * 8) rate
def gapNs (rate : Nat) : Nat := cdiv 96 rate

def modPort (m : Mod) (k : Fin 4) (f : Port → Port) : Mod :=
  { m with net := { m.net with ports := m.net.ports.set k (f m.net.ports[k]) } }

/-- The entry of a cycle that an offset falls in, with the offset of its end; the last entry lasts to the cycle's end and
the list is cut off there (R321). -/
def entryAt (cycle : Nat) : List (Nat × Nat) → Nat → Nat → Nat → Nat × Nat × Nat
  | [], _, i, _ => (i, 255, cycle)
  | [(_, g)], _, i, _ => (i, g, cycle)
  | (iv, g) :: t, off, i, start =>
    if off < min cycle (start + iv) then (i, g, min cycle (start + iv)) else entryAt cycle t off (i + 1) (start + iv)

/-- The last entry of a list and its index. -/
def lastEntry (s : Sluice) : Nat × Nat := (s.entries.length - 1, ((s.entries.getLast?).map (·.2)).getD 255)

/-- The gates of a list at an instant, its entry, and when that entry ends, before a list change: an old cycle that would
begin within CYCLE_EXT_NS of the change does not begin (R325). -/
def listAt (s : Sluice) (change : Option Nat) (t : Nat) : Nat × Nat × Nat :=
  let cyc := max 1 s.cycle
  let n := (t - s.base) / cyc
  let start := s.base + n * cyc
  match change with
  | none => let e := entryAt cyc s.entries (t - start) 0 0; (e.1, e.2.1, start + e.2.2)
  | some c =>
    if c < start + s.ext + 1 && decide (t < c) && decide (0 < n) then ((lastEntry s).1, (lastEntry s).2, c)
    else
      let e := entryAt cyc s.entries (t - start) 0 0
      let last := decide (e.1 + 1 = s.entries.length)
      let stop := if last && decide (c ≤ start + cyc + s.ext) then c else start + e.2.2
      (e.1, e.2.1, min stop c)

/-- The gates, entry and end of entry that a port's list in force at an instant gives (R321, R325). -/
def listGates (po : Port) (t : Nat) : Nat × Nat × Option Nat :=
  let under (l : Option Sluice) (c : Option Nat) : Nat × Nat × Option Nat :=
    match l with
    | none => (255, 0, c)
    | some s => let e := listAt s c t; (e.2.1, e.1, some e.2.2)
  match po.change with
  | some (c, l) => if t < c then under po.sluice (some c) else under l none
  | none => under po.sluice none

/-- The gates of a port at an instant of its counter, the entry, and the next instant at which they can change (none: never); after a step
of the counter they stand until the next cycle start (R326). -/
def gatesAt (po : Port) (t : Nat) : Nat × Nat × Option Nat :=
  match po.resume with
  | some (till, g) => if t < till then (g, po.entry, some till) else listGates po t
  | none => listGates po t

/-- The close of the window of a traffic class that an instant lies in: none when the gate never closes (R323). -/
def closeAfter (po : Port) (tc : Nat) : Nat → Nat → Option Nat
  | 0, _ => none
  | n + 1, t =>
    let g := gatesAt po t
    if !bit g.1 tc then some t
    else match g.2.2 with
      | none => none
      | some e => closeAfter po tc n e

/-- Entries walked when a close is sought: two lists, each at most two cycles. -/
def closeFuel (po : Port) : Nat :=
  2 * ((po.sluice.map (fun s => s.entries.length)).getD 0) +
  2 * (((po.change.bind (·.2)).map (fun s => s.entries.length)).getD 0) + 4

/-- Admission of a frame at an instant: 0 admitted, 1 gate closed, 2 refused by the guard only (R324). -/
def admitAt (m : Mod) (k : Fin 4) (tc len t : Nat) : Nat :=
  let po := m.net.ports[k]
  if !bit (gatesAt po t).1 tc then 1
  else match closeAfter po tc (closeFuel po) t with
    | none => 0
    | some c => if t + frameNs (portRate m k) len ≤ c then 0 else 2

/-- The head of a polder's queue at a port and traffic class: LC frames ahead of BE frames, each in arrival order (R312). -/
def headFrame (po : Port) (pol tc : Nat) : Option EgrFrame :=
  let l := po.queue.filter (fun f => f.pol == pol && f.tc == tc)
  match l.find? (fun f => f.cls == .lc) with
  | some f => some f
  | none => l.head?

/-- A frame removed from a port's queue, the first equal one. -/
def eraseFrame (l : List EgrFrame) (f : EgrFrame) : List EgrFrame := l.erase f

/-- The key of a candidate. -/
def candKey (tc pol : Nat) : Nat := tc * 17 + pol

/-- A queue head tested by its EGRESS policer; passed, it becomes its polder's candidate with its stamp (R315, R318). A
dropped frame lets the next one up. -/
def qualifyOne (m : Mod) (k : Fin 4) (pol tc : Nat) : Nat → Mod
  | 0 => m
  | n + 1 =>
    let po := m.net.ports[k]
    if po.cands.has (candKey tc pol) then m
    else match headFrame po pol tc with
      | none => m
      | some f =>
        let a := arbOf m (8 * k.val + tc)
        if 16 ≤ pol then
          modPort m k (fun po => { po with queue := eraseFrame po.queue f, cands := po.cands.put (candKey tc pol) ⟨a.v, f⟩ })
        else
          let p := pn pol
          let i := polIdx 1 f.cls
          let (c, act, pl) := police m.pol[p].polic[i] (f.len * 1000) f.dei
          let m1 := modPol m p (fun q => { q with polic := q.polic.set i pl })
          if act == 2 then
            let m2 := if c == 2 then countColour m1 p i 2 f.len f.red else m1
            let f' := { f with red := f.red || c == 2, held := some (f.held.getD m.pol[p].clk) }
            modPort m2 k (fun po => { po with queue := updWhere po.queue (fun x => x == f) (fun _ => f') })
          else
            let m2 := countColour m1 p i c f.len f.red
            let m3 := match f.held with
              | some since => pinc m2 p (Ctr.polHoldNs i) (m.pol[p].clk - since)
              | none => m2
            let m4 := modPort m3 k (fun po => { po with queue := eraseFrame po.queue f })
            if act == 3 then qualifyOne (pinc m4 p (Ctr.egrDrop k) 1) k pol tc n
            else
              let w := wfqWeight m4 p k
              let st := wfqStamp a pol (f.len + 20) w
              let m5 := { m4 with net := { m4.net with arbs := m4.net.arbs.put (8 * k.val + tc) ⟨a.v, a.fin.put pol st⟩ } }
              modPort m5 k (fun po => { po with
                cands := po.cands.put (candKey tc pol) ⟨st, { f with passed := true, dei := f.dei || act == 1 }⟩ })

/-- Every queue head of a port qualified. -/
def qualify (m : Mod) (k : Fin 4) : Mod :=
  (List.range 8).foldl (fun m tc => (List.range 17).foldl (fun m pol =>
    qualifyOne m k pol tc (m.net.ports[k].queue.length + 1)) m) m

/-- The candidate a traffic class serves next: the smallest finish time, ties to the lower polder; the module's own queue
goes first (R318). -/
def nextCand (po : Port) (tc : Nat) : Option (Nat × Cand) :=
  let own := (po.cands.get (candKey tc 16)).map (fun c => (16, c))
  match own with
  | some c => some c
  | none => (List.range 16).foldl (fun best pol =>
      match po.cands.get (candKey tc pol) with
      | none => best
      | some c => match best with
        | none => some (pol, c)
        | some (bp, bc) => if c.f < bc.f then some (pol, c) else some (bp, bc)) none

/-- The first DATA frame sent to a peer starts the expectation of frames from it (R113). -/
def expectFrom (m : Mod) (dst : Nat) : Mod :=
  let pr := (m.peers.get dst).getD Peer.blank
  { m with peers := m.peers.put dst { pr with expectSince := some (pr.expectSince.getD m.hvl) } }

/-- A candidate starts on the wire. -/
def transmit (m0 : Mod) (k : Fin 4) (tc pol t : Nat) (c : Cand) : Mod :=
  let m := expectFrom m0 (c.fr.lane / 2)
  let a := arbOf m (8 * k.val + tc)
  let m1 := { m with net := { m.net with arbs := m.net.arbs.put (8 * k.val + tc) ⟨c.f, a.fin⟩ } }
  let m2 := if pol < 16 then pinc m1 (pn pol) (Ctr.wfqServed k) (c.fr.len + 20) else m1
  emit (modPort m2 k (fun po => { po with
    cands := po.cands.del (candKey tc pol), flight := some (c.fr, t + frameNs (portRate m k) c.fr.len) }))
    (.frame k c.fr.lane c.fr.psn c.fr.head c.fr.payload)

/-- Transmission selection at an idle port: the highest traffic class whose candidate is admitted (R324). -/
def selectTx (m : Mod) (k : Fin 4) (t : Nat) : Nat → Mod
  | 0 => m
  | tc + 1 =>
    match nextCand m.net.ports[k] tc with
    | none => selectTx m k t tc
    | some (pol, c) =>
      match admitAt m k tc c.fr.len t with
      | 0 => transmit m k tc pol t c
      | 2 => selectTx (minc m (Ctr.guardHold k tc) 1) k t tc
      | _ => selectTx m k t tc

/-- A port looks for its next frame: none while it is down, fenced or transmitting. -/
def kickPort (m : Mod) (k : Fin 4) : Mod :=
  let m1 := qualify m k
  let po := m1.net.ports[k]
  if !po.up || fencedBit m.fence.link k || po.flight.isSome then m1
  else selectTx m1 k (max po.clk (po.lastEnd + gapNs (portRate m k))) 8

end Sys2Proof.Machine
end

