-- ==== Sys2Proof/Machine/Net.lean ====
section
/-! DEFINITION. Sending culvert messages: lanes, windows and ports (R465 to R468), sealing under transfer keys (R375, R376,
R471), and journal records on their way to the buddy (R110, R111). -/

namespace Sys2Proof.Machine

/-- MSG_TYPE, lane (1 bulk) and body bytes of a message (Table 16-6). -/
def msgInfo : Msg → Nat × Nat × Nat
  | .own ty _ => (match ty with
      | .offer => 1 | .claim => 2 | .claimAck => 3 | .abort => 4 | .assert => 5 | .assertReply => 6, 0, 32)
  | .page b => (0x20, 1, 32 + b.len)
  | .pageAck _ _ _ => (0x07, 0, 16)
  | .journal rs => (0x08, 0, 80 * rs.length)
  | .journalAck _ => (0x09, 0, 8)
  | .keepalive => (0x0D, 0, 0)
  | .replDigests _ _ _ ds => (0x0E, 0, 32 * ds.length)
  | .replLacks bs => (0x0F, 0, cdiv bs.length 8)
  | .replChunk _ n _ => (0x21, 1, 32 + n)
  | .replRecords _ _ _ rs => (0x22, 1, 64 * rs.length)
  | .replCommit _ => (0x10, 0, 128)
  | .replAck _ _ _ _ => (0x11, 0, 17)
  | .tkHello _ _ => (0x0C, 0, 8776)
  | .power _ => (0x0A, 0, 24)
  | .announce _ => (0x0B, 0, 64)

/-- The key of a lane: module * 2 + lane. -/
def laneKey (mod lane : Nat) : Nat := 2 * mod + lane
def laneOf (m : Mod) (key : Nat) : Lane := (m.net.lanes.get key).getD (Lane.blank (key % 2 == 1))
def putLane (m : Mod) (key : Nat) (l : Lane) : Mod := { m with net := { m.net with lanes := m.net.lanes.put key l } }

/-- The next usable port in turn: a culvert port that is up and not fenced (R467). -/
def usablePort (m : Mod) (k : Nat) : Bool :=
  bit ((m.net.board.map Board.culvertPorts).getD 0) k && !fencedBit m.fence.link k &&
  (match m.net.ports[k]? with
   | some po => po.up
   | none => false)

def nextPort (m : Mod) : Option Nat := freeFrom m.net.rr 4 (usablePort m)

/-- L of a culvert DATA frame: Ethernet, VLAN tag, IP, UDP, culvert header, payload and FCS, with MACsec's 32 B (R465, R313). -/
def culvertL (m : Mod) (port bytes : Nat) : Nat :=
  let pb := portBoard m ⟨port % 4, Nat.mod_lt _ (by decide)⟩
  14 + 4 + (if pb.ipv6 != 0 then 40 else 20) + 8 + 32 + bytes + 4 + (if pb.macsec then 32 else 0)

/-- The PCP of a lane and class, and its traffic class (Table 16-8, R459). -/
def laneTc (m : Mod) (port lane : Nat) (c : Cls) : Nat :=
  let pb := portBoard m ⟨port % 4, Nat.mod_lt _ (by decide)⟩
  let pcp := if lane == 0 then pb.pcpCtrl % 8 else if c == .lc then pb.pcpBulkLc % 8 else pb.pcpBulkBe % 8
  (pb.prioMap / 16 ^ pcp) % 8

/-- A DATA frame put into the queue of its port, its header formed (Table 16-5). -/
def queueFrame (m : Mod) (key : Nat) (f : CulFrame) : Mod :=
  let k : Fin 4 := ⟨f.port % 4, Nat.mod_lt _ (by decide)⟩
  kickPort (modPort m k (fun po => { po with queue := po.queue ++
    [{ pol := f.pol, cls := f.cls, tc := laneTc m f.port (key % 2) f.cls, len := culvertL m f.port f.bytes, lane := key,
       psn := f.psn, head := headBytes f.head f.last false f.seg f.psn f.msg 0 f.bytes f.body, payload := f.body, dei := false, passed := false, red := false, held := none }] })) k

/-- Frames of a lane sent while its window has room (R466); a frame whose port has gone takes the next usable one. -/
def pumpLane (m : Mod) (key : Nat) : Nat → Mod
  | 0 => m
  | n + 1 =>
    let l := laneOf m key
    match l.queue with
    | [] => m
    | f :: rest =>
      if l.win ≤ l.unacked.length then m
      else
        match (if usablePort m f.port then some f.port else nextPort m) with
        | none => m
        | some k =>
          let f' := { f with psn := l.nextPsn, port := k, sentAt := m.hvl, timer := 100000, missed := 0 }
          let m1 := putLane m key { l with
            queue := rest, nextPsn := l.nextPsn + 1, unacked := l.unacked ++ [f'], lastTx := m.hvl }
          pumpLane (queueFrame m1 key f') key n

def pumpAll (m : Mod) (key : Nat) : Mod := pumpLane m key ((laneOf m key).queue.length + 1)

/-- The segments of a message of n bytes: 8,192 B each, the last one the rest (R465). -/
def segBytes (n : Nat) : List Nat :=
  if n == 0 then [0] else (List.range (cdiv n 8192)).map (fun i => min 8192 (n - 8192 * i))

/-- Module-level types carry no polder (R459). -/
def moduleLevel (ty : Nat) : Bool := ty == 0x08 || ty == 0x09 || ty == 0x0A || ty == 0x0B || ty == 0x0D

/-- The header fields of a message of the module; a module-level type carries no polder, and a module without an identifier the SRC_MODULE
0 (R459, R496). -/
def msgHead (m : Mod) (dst pol src : Nat) (tk : Option Tk) (ty lane : Nat) : CulHead :=
  { ftype := 0, lane := lane, keygen := tk.map (fun t => t.gen % 2), src := selfId m, srcPol := if moduleLevel ty then 0 else src,
    dst := if dst < 4096 then dst else 0, dstPol := if moduleLevel ty then 0 else pol, ty := ty }

/-- A sealed body and its tag (R471): AES-256-GCM under the transfer key. The IV's counter starts at 1 under each key (R376). -/
def sealBody (t : Tk) (h : CulHead) (msg len : Nat) (last : Bool) (body : Block) : Block :=
  let lo := toBytes (headBytes h last false 0 0 msg 0 0 0) 16
  let iv := toBytes (pack [(12, h.src), (4, h.srcPol), (1, h.lane)]) 4 ++ toBytes (t.sent + 1) 8
  let r := gcmSeal t.key iv ((lo.drop 1).take 7 ++ lo.drop 12 ++ toBytes len 4) (toBytes body len)
  ofBytes (r.1 ++ r.2)

/-- A message handed to the culvert engine (arbiter 5) and put on its lane, one port for all its segments (R465 to R467). -/
def putMsg (m : Mod) (dst pol src : Nat) (tk : Option Tk) (c : Cls) (x : Msg) : Mod :=
  let i := msgInfo x
  let key := laneKey dst i.2.1
  let own := moduleLevel i.1
  let m0 := if own then m else wfqServe m (pn src) 5 (min 65568 (i.2.2 + 32))
  let port := nextPort m0
  let l := laneOf m0 key
  let segs := segBytes (i.2.2 + (if tk.isSome then 16 else 0))
  let h := msgHead m dst pol src tk i.1 i.2.1
  let body := match tk with
    | some t => sealBody t h l.nextMsg i.2.2 (decide (segs.length = 1)) (msgBytes x)
    | none => msgBytes x
  let fs := segs.zipIdx.map (fun e =>
    { head := h, body := (body >>> (65536 * e.2)) % 2 ^ (8 * e.1), psn := 0, msg := l.nextMsg, seg := e.2, last := decide (e.2 + 1 = segs.length), port := port.getD 0,
      pol := if own then 16 else src, cls := c, bytes := e.1, sentAt := 0, timer := 100000, missed := 0 })
  let m1 := putLane { m0 with net := { m0.net with rr := (port.getD m0.net.rr + 1) % 4 } } key { l with
    nextMsg := l.nextMsg + 1, queue := l.queue ++ fs }
  pumpAll (emit m1 (.culvert dst pol src h.keygen x)) key

/-- The transfer key of a polder with a peer polder. -/
def tkOf (m : Mod) (p : Fin 16) (mod pol : Nat) : Tk := (m.pol[p].tks.get (16 * mod + pol)).getD Tk.blank
def putTk (m : Mod) (p : Fin 16) (mod pol : Nat) (t : Tk) : Mod :=
  modPol m p (fun q => { q with tks := q.tks.put (16 * mod + pol) t })

/-- What R375 seals: PAGE data, checkpoint chunks and journal records of sealed sessions. -/
def mustSeal (m : Mod) (src : Nat) : Msg → Bool
  | .page _ => m.pol[pn src].sealed
  | .replChunk _ _ _ => m.pol[pn src].sealed
  | .journal rs => rs.any (fun r => r.desc.sealed)
  | _ => false

/-- The class a message's frames carry: that of its session (R313). -/
def msgClass (m : Mod) (src : Nat) : Msg → Cls
  | .page b => ((findSid m src b.sid).map (fun e => e.2.cls)).getD .lc
  | .replChunk d _ _ => ((m.pol[pn src].ck.jobs.find? (fun j => j.ck.recs.any (fun r => r.digest == d))).map (fun j => j.ck.cls)).getD .be
  | .replRecords sid _ _ _ => ((findSid m src sid).map (fun e => e.2.cls)).getD .be
  | _ => .lc

/-- A culvert message sent to a module and polder. A sealed message waits while there is no transfer key (R376). A module without an
identifier takes part in no exchange (R497). -/
def send (m : Mod) (dst pol src : Nat) (x : Msg) : Mod :=
  if m.front.modId.isNone || (!moduleLevel (msgInfo x).1 && m.pol[pn src].fenced) then m else
  if mustSeal m src x then
    let t := tkOf m (pn src) dst pol
    if t.live then
      putMsg (putTk m (pn src) dst pol { t with sent := t.sent + 1 }) dst pol src (some t) (msgClass m src x) x
    else { m with net := { m.net with held := m.net.held ++ [⟨dst, pol, src, x⟩] } }
  else putMsg m dst pol src none (msgClass m src x) x

/-- A journal record can be sent: sealed sessions' records need a transfer key with the buddy (R375). -/
def recSendable (m : Mod) (r : JRec) : Bool :=
  !r.desc.sealed || (match m.jr.buddy with
    | some b => (tkOf m (pn r.pol) b r.pol).live
    | none => false)

/-- The polder a journal message names: that of a sealed record's key, else the module itself. -/
def recPol (r : JRec) : Nat := if r.desc.sealed then r.pol else 0

/-- A journal record of a directory entry sent to the buddy at once, kept until it is acknowledged. A record that cannot be sealed is held
and nothing waits for it (R375, R376). An OWN record carries the descriptor's changes: it leaves JDIRTY set until it is acknowledged, and an
unsent DESC record of the descriptor goes (R111). -/
def sendRec (m0 : Mod) (idx : Nat) (r : JRec) : Nat × Mod :=
  match m0.jr.buddy with
  | none => (0, m0)
  | some b =>
    let m := if r.kind != 3 then m0 else
      { modDesc m0 idx (fun d => { d with jdirty := true }) with jr := { m0.jr with
          q := m0.jr.q.filter (fun x => x.sent || x.r.kind != 1 || x.idx != idx || x.r.sid != r.sid) } }
    if !recSendable m r then (0, { m with jr := { m.jr with q := m.jr.q ++ [⟨idx, r, m.hvl, false⟩] } })
    else
      let (n, j) := takeJseq m.jr
      let r' := { r with jseq := n, src := selfId m }
      let j' := { j with q := j.q ++ [⟨idx, r', m.hvl, true⟩],
                         waitSince := if j.q.any (fun x => x.sent) then j.waitSince else m.hvl }
      (n, send { m with jr := j' } b (recPol r) (recPol r) (.journal [r']))

end Sys2Proof.Machine
end

