-- ==== Sys2Proof/Machine/Actions.lean ====
section
/-! DEFINITION. What an ownership change does once its journal record is acknowledged (R103, R111): offers with their
pages (R246), claims and import commits (R108, R247, R249), reassertions, restores, adoptions, and the release of a step's
tokens (R243). -/

namespace Sys2Proof.Machine

/-- Nanoseconds of a time in ms. -/
def msNs (ms : Nat) : Nat := ms * 1000000

/-- LEASE_EXP: the polder counter some ms on, in µs modulo 2^32 (Table 03-2). -/
def leaseAt (clk ms : Nat) : Nat := (clk + msNs ms) / 1000 % 2 ^ 32

/-- A lease has expired: the signed 32-bit difference to the counter is not negative (R88, R104). -/
def leasePast (lease clk : Nat) : Bool := decide ((clk / 1000 % 2 ^ 32 + 2 ^ 32 - lease % 2 ^ 32) % 2 ^ 32 < 2 ^ 31)

/-- The session-table key under which an import's contents are kept until it commits. -/
def impKey (idx : Nat) : Nat := idx + 2 ^ 24

/-- The PAGE messages of a session in the order of R246. -/
def shipPages (d : Desc) (s : Sess) (h fmt : Nat) : List PageMsg :=
  let mk (kind fmt fill lg ix len : Nat) (rows : List KvRow) (g : Option RootImg) (sm : Option SampPage) (feat : List Nat) : PageMsg :=
    { sid := d.sid, h := h, pseq := 0, kind := kind, fmt := fmt, fill := fill, lg := lg, ix := ix, len := len, rows := rows,
      root := g, samp := sm, featFmt := fmt, feat := feat }
  let root := mk 2 0 0 0 0 65536 [] (some (rootImg (pn d.pol) { s with gen := { s.gen with stepAtShip := d.step } })) none []
  let samp := mk 3 0 0 0 0 65536 [] none (some s.samp) []
  let feat := if s.gen.featValid then [{ mk 4 0 0 0 0 (s.featN * 65536) [] none none s.gen.feature with featFmt := fmt }] else []
  let lgs := max 1 s.geo.lgs
  let bodies := (List.range s.geo.lgs).flatMap (fun lg =>
    (s.kv.filter (fun e => e.1 % lgs == lg && decide (1 ≤ e.2.fill))).map (fun e =>
      mk 1 s.geo.fmt e.2.fill lg (e.1 / lgs) s.geo.bodyBytes (committedRows e.2) none none []))
  (root :: samp :: feat ++ bodies).zipIdx.map (fun x => { x.1 with pseq := x.2 })

/-- OFFER sent with the pages behind it; the lease runs from the send (Table 03-9, R246). -/
def actOffer (m : Mod) (p : Fin 16) (idx tag : Nat) (move : Bool) : Mod :=
  match desc? m idx, m.pol[p].sess.get idx with
  | some d, some s =>
    if d.own != .pendingOut then m else
    let ps := shipPages d s d.pend (featFmt m.pol[p] d.slot)
    let body : OwnBody := { OwnBody.blank with
      sid := d.sid, epoch := d.pend, leaseMs := m.own.leaseMs, guardMs := m.own.guardMs, pages := ps.length, cls := d.cls
      sparse := d.sparse, slot := d.slot, ctxMax := d.ctxMax }
    let m0 := toeReads m p (dedup (sessPages m.pol[p] idx ++ familyBodies s))
    let m1 := modDesc m0 idx (fun d => { d with lease := leaseAt m.pol[p].clk m.own.leaseMs })
    let m2 := modPol m1 p (fun q => { q with xfers := q.xfers ++ [⟨idx, tag, move, ps.length, []⟩] })
    ps.foldl (fun m x => send m d.peerMod d.peerPol p.val (.page x)) (send m2 d.peerMod d.peerPol p.val (.own .offer body))
  | _, _ => m

/-- The transfer record of a session. -/
def xferOf (q : Polder) (idx : Nat) : Option Xfer := q.xfers.find? (fun x => x.idx == idx)
def dropXfer (m : Mod) (p : Fin 16) (idx : Nat) : Mod := modPol m p (fun q => { q with xfers := q.xfers.filter (fun x => x.idx != idx) })

/-- ASSERT(H + 1) sent to the destination and the command completed with NO_OWNER_RECOVERED (Table 03-9). -/
def actReassert (m : Mod) (p : Fin 16) (idx : Nat) : Mod :=
  match desc? m idx with
  | none => m
  | some d =>
    let m1 := send m d.peerMod d.peerPol p.val (.own .assert { OwnBody.blank with sid := d.sid, epoch := d.epoch })
    let m2 := pinc (modDesc m1 idx (fun d => { d with own := .owned })) p Ctr.ownerRecovered 1
    match xferOf m2.pol[p] idx with
    | none => m2
    | some x => complete (dropXfer m2 p idx) p x.tag { rSess 0 d.epoch x.shipped with status := stNoOwner }

/-- The checks of R247 on an import's KV bodies: TOKENS when they pass. -/
def importTokens (g : Geo) (ps : List PageMsg) : Option Nat :=
  let bodies := ps.filter (fun x => x.kind == 1)
  if bodies.isEmpty then some 0 else
  let of (lg : Nat) : List PageMsg := bodies.filter (fun x => x.lg == lg)
  let c := (of 0).length
  let okLg (lg : Nat) : Bool := (of lg).length == c && (List.range c).all (fun i => (of lg).any (fun x => x.ix == i)) &&
    (of lg).all (fun x => x.ix + 1 == c || x.fill == 16)
  let lastFill := ((of 0).find? (fun x => x.ix + 1 == c)).map PageMsg.fill
  if (List.range g.lgs).all okLg && bodies.all (fun x => decide (x.lg < g.lgs)) &&
     bodies.all (fun x => x.ix + 1 != c || some x.fill == lastFill) && bodies.all (fun x => x.fmt == g.fmt && x.len == g.bodyBytes)
  then lastFill.map (fun f => 16 * (c - 1) + f) else none

/-- An import of a polder by SESSION_ID. -/
def importOf (q : Polder) (sid : Nat) : Option Import := q.imports.find? (fun i => i.sid == sid)
def modImport (m : Mod) (p : Fin 16) (sid : Nat) (f : Import → Import) : Mod :=
  modPol m p (fun q => { q with imports := updWhere q.imports (fun i => i.sid == sid) f })

/-- The pages of one session key given to another. -/
def retag (q : Polder) (a b : Nat) : Polder :=
  { q with pages := q.pages.mapKV (fun _ pg => match pg.owner with
    | .sess i r => if i == a then { pg with owner := .sess b r } else pg
    | _ => pg) }

/-- Generation state bound by GEN_PREFILL_ACCEPT (R249). -/
def bindPrefill (s : Sess) (tok seq : Nat) (hist : List Nat) : Sess :=
  { s with
    gen := { s.gen with pendTok := tok, pendValid := true, nextSeq := seq, featValid := false }
    samp := { s.samp with hist := hist, head := hist.length % 4096 } }

/-- An import discarded: its pages are released, the prior state stands, and the commands bound to it complete
(Table 03-9, R107, R109). A commit that waits for its journal record is off. -/
def discardImport (m : Mod) (p : Fin 16) (sid : Nat) (st : Res) (tell : Option Nat) : Mod :=
  match importOf m.pol[p] sid with
  | none => m
  | some im =>
    let m1 := releasePages { m with jr := { m.jr with acts := m.jr.acts.filter (fun a => a.2 != .claim p.val sid) } } p
      (sessPages m.pol[p] (impKey im.idx))
    let m2 := modPol m1 p (fun q => { q with
      sess := q.sess.del (impKey im.idx), imports := q.imports.filter (fun i => i.sid != sid) })
    let m3 := match tell with
      | some s => send m2 im.srcMod im.srcPol p.val (.own .abort { OwnBody.blank with sid := sid, epoch := im.h, status := s })
      | none => m2
    let m4 := match im.bound with
      | some t => complete m3 p t st
      | none => m3
    let m5 := match im.prefill with
      | some t => complete m4 p t (rSt stPhaseLost)
      | none => m4
    let held := m5.pol[p].reqs.filter (fun r => r.idx == im.idx && (r.heldImport || !im.hadPrior))
    let m6 := held.foldl (fun m r => endReq m p r.tag stPhaseLost 6 0) m5
    let m7 := pincIf m6 p (st.status == stPhaseLost) Ctr.handoffLost
    if im.hadPrior then changeDesc m7 im.idx (fun d => { im.prior with gen := d.gen })
    else match desc? m7 im.idx with
      | some d => journalFree (freeDesc m7 p im.idx) im.idx d
      | none => m7

/-- The commit window of an import is still open (R104). -/
def windowOpen (m : Mod) (p : Fin 16) (im : Import) : Bool := decide (m.pol[p].clk - im.arrived < msNs (im.leaseMs - im.guardMs))

/-- The commit of an import inside its window: epoch H is held, the imported state replaces the prior pages, CLAIM answers the last page,
and the bound commands complete (Table 03-9, R104, R108, R247, R249). A window that has closed meanwhile discards it. -/
def actClaim (m : Mod) (p : Fin 16) (sid : Nat) : Mod :=
  match importOf m.pol[p] sid with
  | none => m
  | some im =>
    if !windowOpen m p im then discardImport m p sid (rSt stPhaseLost) (some stPhaseLost) else
    match m.pol[p].sess.get (impKey im.idx), desc? m im.idx with
    | some s, some d =>
      let toks := (importTokens s.geo im.pages).getD 0
      let step := if im.rootSeen then s.gen.stepAtShip else if im.hadPrior then im.prior.step else 0
      let clash := im.rootSeen && s.gen.pendValid
      let s1 := if im.prefill.isSome && !clash then bindPrefill s im.preTok im.preSeq im.preHist else s
      let (_, m1) := releaseOwn m p im.idx
      let m1 := modPol m1 p (fun q => { q with passes := updWhere q.passes (fun _ => true) (fun x => { x with
          seqs := updWhere x.seqs (fun y => y.sess == im.idx && y.ended.isNone) (fun y => { y with ended := some stAborted }) }) })
      let m2 := modPol m1 p (fun q =>
        { retag q (impKey im.idx) im.idx with
          sess := (q.sess.del (impKey im.idx)).put im.idx { s1 with qsValid := false }
          imports := q.imports.filter (fun i => i.sid != sid) })
      let m2 := if im.sparse then sealBlocks m2 p im.idx (toks / 16) else m2
      let m3 := changeDesc m2 im.idx (fun d => { d with
        life := .active, own := .owned, epoch := im.h, pend := 0, cls := im.cls, sparse := im.sparse, slot := im.slot
        ctxMax := im.ctxMax, tokens := toks, step := step, root := ssaOf p s.rootPg })
      let m4 := pincIf (pinc m3 p Ctr.handoffCommit 1) p (!im.hadPrior) Ctr.sessOpened
      let handle := handleOf im.idx p.val d.gen
      let m5 := send m4 im.srcMod im.srcPol p.val (.own .claim { OwnBody.blank with sid := sid, epoch := im.h, handle := handle })
      let m5 := modPol m5 p (fun q => { q with claims := q.claims ++ [(sid, im.h)] })
      let m6 := if im.sparse then coarseHome m5 p im.idx true else m5
      let m7 := match im.bound with
        | some t => complete m6 p t (rSess handle im.h im.pages.length)
        | none => m6
      let m8 := match im.prefill with
        | some t => complete m7 p t (if clash then rBadNone else rSess handle im.h toks)
        | none => m7
      modPol m8 p (fun q => { q with
        reqs := updWhere q.reqs (fun r => r.idx == im.idx) (fun r => { r with heldImport := false }) })
    | _, _ => m

/-- A restore owns its session at T (Table 09-7, step 2). -/
def actRestored (m : Mod) (p : Fin 16) (idx : Nat) : Mod :=
  let m1 := modDesc m idx (fun d => { d with own := .owned, epoch := d.pend, pend := 0, life := .parked })
  modCk m1 p (fun c => { c with restores := updWhere c.restores (fun r => r.idx == idx) (fun r => { r with owned := true }) })

/-- An adopted session is owned and reported; ASSERT is queued for the failed module, or sent where that is alive again (Tables 03-9 and 03-12,
R113, R423). -/
def actAdopted (m : Mod) (p : Fin 16) (idx src srcPol : Nat) : Mod :=
  match desc? m idx with
  | none => m
  | some d =>
    let m1 := if d.own != .owned then m
      else if ((m.peers.get src).map Peer.failed).getD false then
        { m with peers := m.peers.upd src (fun x => { x with asserts := x.asserts ++ [(srcPol, d.sid, d.epoch)] }) }
      else send m src srcPol p.val (.own .assert { OwnBody.blank with sid := d.sid, epoch := d.epoch })
    raiseEvent (pinc m1 p Ctr.takeoverAdopted 1) p
      { code := 0xE0, handle := handleOf idx p.val d.gen, sid := d.sid, epoch := d.epoch, life := d.life.code, other := src }

/-- A step's ring entries, then PROD, then any interrupt due (R243, R245). -/
def releaseOne (m : Mod) (p : Fin 16) (x : Release) : Mod :=
  match m.pol[p].reqs.find? (fun r => r.tag == x.req) with
  | none => m
  | some r =>
    let n := x.entries.length
    let w := if m.pol[p].sealed then 64 else 16
    let m1 := x.entries.zipIdx.foldl (fun m e =>
      let addr := r.ring + 64 + w * ((r.prod + e.2) % 2 ^ r.order)
      emit (hostServe (m2h m p 1) p 16) (.token p.val addr (r.prod + e.2)
        (slotOut m.pol[p] p.val addr 16 (tokBytes { e.1 with phase := phaseOf (r.prod + e.2) (2 ^ r.order) })))) m
    let m2 := emit (pinc m1 p Ctr.tokensOut n) (.prod r.ring ((r.prod + n) % 2 ^ 32))
    let un := r.unsig + n
    let fire := decide (max 1 r.modCount ≤ un)
    let m3 := modPol m2 p (fun q => { q with
      reqs := updWhere q.reqs (fun y => y.tag == r.tag) (fun y => { y with
        prod := y.prod + n, unsig := if fire then 0 else un, oldest := if r.unsig == 0 then q.clk else y.oldest }) })
    if fire then polIrq (pincIf m3 p (polIrqOn m3 p r.vector) Ctr.ringIrq) p r.vector else m3

/-- The step's tokens are released; a request that waited only for them ends (R243, R250). -/
def releaseTokens (m : Mod) (p : Fin 16) (x : Release) : Mod :=
  let m1 := releaseOne (modPol m p (fun q => { q with releases := q.releases.filter (fun y => y != x) })) p x
  match m1.pol[p].reqs.find? (fun r => r.tag == x.req) with
  | none => m1
  | some r =>
    match r.ending with
    | some (st, e, s) => if m1.pol[p].releases.any (fun y => y.req == r.tag) then m1 else finishReq m1 p r st e s
    | none => m1

def actTokens (m : Mod) (p : Fin 16) (jseq : Nat) : Mod :=
  (m.pol[p].releases.filter (fun x => x.jseq == jseq)).foldl (fun m x => releaseTokens m p x) m

/-- ASSERT at a descriptor's epoch, to each of several modules. -/
def actAsserts (m : Mod) (p : Fin 16) (idx : Nat) (mods : List Nat) : Mod :=
  match desc? m idx with
  | none => m
  | some d => mods.foldl (fun m x => send m x d.peerPol p.val (.own .assert { OwnBody.blank with sid := d.sid, epoch := d.epoch })) m

/-- What waited for journal record n happens. -/
def runAct (m : Mod) (n : Nat) (a : JAct) : Mod :=
  match a with
  | .offer p idx tag mv => actOffer m (pn p) idx tag mv
  | .claim p sid => actClaim m (pn p) sid
  | .reassert p idx _ => actReassert m (pn p) idx
  | .restored p idx _ => actRestored m (pn p) idx
  | .adopted p idx src sp => actAdopted m (pn p) idx src sp
  | .tokens p => actTokens m (pn p) n
  | .asserts p idx mods => actAsserts m (pn p) idx mods

/-- "Journal first": the record goes to the buddy and the action waits for its acknowledgement; without a buddy, or while
BUDDY_DOWN is set, it happens at once (R103, R110 to R112). -/
def journalFirst (m : Mod) (idx : Nat) (r : JRec) (a : JAct) : Mod :=
  if m.jr.buddy.isNone then runAct m 0 a
  else
    let (n, m1) := sendRec m idx r
    if m.jr.down || n == 0 then runAct m1 n a else { m1 with jr := { m1.jr with acts := m1.jr.acts ++ [(n, a)] } }

/-- The OWN record of a session's descriptor as it stands. -/
def ownRec (m : Mod) (idx : Nat) : JRec :=
  match desc? m idx with
  | some d => recOf 3 d.pol d
  | none => recOf 3 0 (Desc.blank 0)

end Sys2Proof.Machine
end

