-- ==== Sys2Proof/Machine/Sess.lean ====
section
/-! DEFINITION. The session commands (chapter 03): open, park, revive, move, fork, retire, handoff and query, with what each
does at the session's step boundary. -/

namespace Sys2Proof.Machine

/-- The session limit of a mode (Table 03-2). -/
def modeMax (sparse : Bool) : Nat := if sparse then 16777216 else 131072

/-- The checks of SESS_OPEN on class, mode and slot (R23, R96, R155). -/
def openCheck (m : Mod) (p : Fin 16) (c : Cls) (sparse : Bool) (slot : Nat) : Except Res Slot :=
  let q := m.pol[p]
  if c == .lc && sparse then .error (rBad 28)
  else if q.sealed && sparse then .error (rBad 28)
  else if q.sealed && slot != 0 then .error (rBad 29)
  else match q.slots.get slot with
    | none => .error (rBad 29)
    | some s => .ok s

/-- A new descriptor (R96). -/
def newDesc (m : Mod) (p : Fin 16) (c : Cls) (sparse : Bool) (slot ctx job idx : Nat) : Desc :=
  { Desc.blank 0 with
    life := .active, own := .owned, cls := c, sparse := sparse, sealed := m.pol[p].sealed, pol := p.val, slot := slot
    sid := selfId m * 2 ^ 52 + m.sidNext % 2 ^ 52, epoch := 1, ctxMax := ctx, job := job, fam := idx }

/-- GEN of an entry; 0 where there is none. -/
def genOf (m : Mod) (idx : Nat) : Nat :=
  match desc? m idx with
  | some d => d.gen
  | none => 0

/-- A new session whose pages are mapped enters the directory and its command completes (R96). -/
def openEnd (m : Mod) (p : Fin 16) (idx tag : Nat) (sparse : Bool) (s : Sess) : Mod :=
  let m1 := modPol { m with sidNext := m.sidNext + 1 } p (fun q => { q with sess := q.sess.put idx s })
  let m2 := changeDesc m1 idx (fun d => { d with root := ssaOf p s.rootPg })
  let m3 := cacheInstall (pinc m2 p Ctr.sessOpened 1) p idx
  let m4 := if sparse then coarseHome m3 p idx true else m3
  complete m4 p tag (rSess (handleOf idx p.val (genOf m4 idx)) 1 0)

/-- SESS_OPEN (R96). -/
def sessOpenGo (m : Mod) (p : Fin 16) (t : Taken) : Mod :=
  let e := t.entry
  let c := clsOf (flg e 28 0)
  let sparse := flg e 28 1
  let slot := fld e 29 0 8
  let ctx0 := fld e 32 0 32
  let ctx := if ctx0 == 0 then modeMax sparse else ctx0
  match openCheck m p c sparse slot with
  | .error r => complete m p t.tag r
  | .ok sl =>
    if modeMax sparse < ctx then complete m p t.tag (rSt stCtxLimit)
    else if dirShare m ≤ liveEntries m p.val then complete m p t.tag (rQuota 3)
    else match takeEntry m (newDesc m p c sparse slot ctx t.job) with
      | none => complete m p t.tag (rQuota 3)
      | some (idx, m1) =>
        match mapSession m1 p idx c sparse sl.man.main ctx with
        | .error tier =>
          quotaEnd (if tier == errWait then m else freeEntry { m1 with pol := m.pol } idx) p t.tag tier
        | .ok (s, m2) =>
          openEnd m2 p idx t.tag sparse s

def sessOpen (m : Mod) (p : Fin 16) (tag : Nat) : Mod := ringRow m p tag 0x10 (fun t m => sessOpenGo m p t)

/-- The last command that changed a session (Table 03-2, JOB). -/
def setJob (m : Mod) (idx job : Nat) : Mod := changeDesc m idx (fun d => { d with job := job })

/-- SESS_PARK takes effect (R97, Table 01-6): requests end with ABORTED, the session is PARKED, its coarse region moves by
heat (R213), and an ON_PARK checkpoint begins (R293). -/
def parkNow (m : Mod) (p : Fin 16) (idx tag : Nat) : Mod :=
  let m1 := endSessReqs m p idx stAborted 5
  let m2 := coarseHome (changeDesc m1 idx (fun d => { d with life := .parked })) p idx false
  let m3 := modSess m2 p idx (fun s => { s with reviving := false })
  match desc? m3 idx with
  | none => m3
  | some d =>
    let m4 := complete m3 p tag (rSess (handleOf idx p.val d.gen) d.epoch d.step)
    if m.pol[p].ck.conf.onPark then ckAuto m4 p idx else m4

/-- The family root of a session; its own INDEX outside a family. -/
def famRoot (d : Desc) (_idx : Nat) : Nat := d.fam % 2 ^ 24

/-- A freed session leaves its polder, and FREE is journaled (Table 03-7). -/
def freeGone (m : Mod) (p : Fin 16) (idx : Nat) (d : Desc) : Mod :=
  journalFree (freeDesc (modPol m p (fun q => { q with sess := q.sess.del idx, cache := q.cache.filter (fun c => c.1 != idx) })) p idx) idx d

/-- A member leaves its family: FAMILY_REFS falls by one; an empty husk releases the family pages and is freed, but for one that is a forwarding
entry, which stays until its lease ends (R100, Tables 03-7 and 03-9). -/
def leaveFamily (m : Mod) (p : Fin 16) (root : Nat) : Mod :=
  let m1 := changeDesc m root (fun d => { d with famRefs := d.famRefs - 1 })
  match desc? m1 root with
  | none => m1
  | some d =>
    if d.life == .husk && d.famRefs == 0 then
      let m2 := releasePages m1 p (sessPages m1.pol[p] root)
      if d.own == .relinquished && !leasePast d.lease m1.pol[p].clk then
        changeDesc (modPol m2 p (fun q => { q with sess := q.sess.del root })) root (fun d => { d with life := .parked })
      else freeGone m2 p root d
    else m1

/-- SESS_RETIRE takes effect (Table 03-7). -/
def retireNow (m : Mod) (p : Fin 16) (idx tag : Nat) : Mod :=
  match desc? m idx with
  | none => m
  | some d =>
    let m1 := ckAbandon (endSessReqs m p idx stAborted 5) p d.sid (rSt stAborted)
    let root := famRoot d idx
    let inFam := root != idx || d.famRefs != 0
    let refs := if root == idx then d.famRefs - 1 else d.famRefs
    let husk := root == idx && inFam && decide (0 < refs)
    let (n, m2) := releaseOwn m1 p idx
    let m3 := if husk then
        changeDesc m2 idx (fun d => { d with life := .husk, famRefs := refs })
      else
        let m5 := freeGone m2 p idx d
        if inFam && root != idx then leaveFamily m5 p root else m5
    let m6 := dropWaits m3 p idx (rSt stAborted)
    complete m6 p tag (rSess 0 d.epoch n)

/-- The pages of layer-groups a fork copies: those of the body page that holds a partly filled page (R218). -/
def forkOpen (s : Sess) : List Nat :=
  (s.kv.filter (fun e => decide (e.2.fill < 16))).map (fun e => bodyPage e.2)

/-- The regions of a copied session that were written take frames: sketches, coarse index and feature row, page by page (R99, R101). -/
def copyRegions (m : Mod) (sp dp : Fin 16) (s cs : Sess) : Except Nat Mod :=
  let regs := (List.range s.sketchN).map (fun j => (s.sketchPg + j, cs.sketchPg + j)) ++
    (List.range s.coarseN).map (fun j => (s.coarsePg + j, cs.coarsePg + j)) ++
    (List.range s.featN).map (fun j => (s.featPg + j, cs.featPg + j))
  regs.foldlM (fun (m : Mod) r => match getPage m sp r.1 with
    | some pg => if pg.st == .zero then pure m else (ensureFrame m dp r.2).map (fun m => writePage m dp r.2 (fun _ => pg.body))
    | none => pure m) m

/-- The pages of a session: its own and the family's that it names. -/
def allPages (q : Polder) (idx : Nat) : List Nat :=
  dedup (sessPages q idx ++ ((q.sess.get idx).map familyBodies).getD [])

/-- One of the pages a command needs is LOST (R67). -/
def anyLost (m : Mod) (p : Fin 16) (ns : List Nat) : Bool := ns.any (fun n => ((getPage m p n).map (fun g => g.st == .lost)).getD false)

/-- What a fork copies: the session's regions and the open bodies (R99, R218). -/
def forkReads (q : Polder) (idx : Nat) (s : Sess) : List Nat :=
  dedup (((q.pages.filter (fun e => match e.2.owner with
    | .sess i (.body _ _) => i == idx && (forkOpen s).contains e.1
    | .sess i _ => i == idx
    | _ => false)).map (·.1)) ++ forkOpen s)

/-- A child's pages (R99, R218): its own regions, the shared bodies at their addresses, the open bodies copied at their slots. -/
def forkPages (m1 : Mod) (p : Fin 16) (ci : Nat) (d : Desc) (s : Sess) (g : Prog) : Except Nat Mod := do
  let (cs, m2) ← mapSession m1 p ci d.cls d.sparse g d.ctxMax
  let m3 := modPol m2 p (fun q => { q with
    sess := q.sess.put ci { cs with
      gen := { s.gen with nextSeq := 0 }, samp := s.samp, sketch := s.sketch, blockSk := s.blockSk
      querySk := s.querySk, qsValid := s.qsValid, blocks := s.blocks } })
  -- shared bodies keep their addresses; open bodies are copied at their slots
  let m4 ← s.kv.foldlM (fun (m : Mod) e => do
    let k := e.2
    let lg := e.1 % max 1 s.geo.lgs
    let i := e.1 / max 1 s.geo.lgs
    if (forkOpen s).contains (bodyPage k) then do
      let m ← openKv m p ci d.cls i lg
      pure (modSess m p ci (fun x => { x with kv := x.kv.upd e.1 (fun c => { k with body := c.body, family := false }) }))
    else do
      let m ← ensureMapPages m p ci d.cls e.1
      pure (modSess m p ci (fun x => { x with kv := x.kv.put e.1 { k with family := true } }))) m3
  copyRegions m4 p p s cs

/-- A child whose pages are mapped: the parent's pages are marked shared and belong to the family's root, FAMILY_REFS rises, and
the command completes (R99, R100). -/
def forkEnd (m5 : Mod) (p : Fin 16) (idx ci tag : Nat) (d : Desc) (s : Sess) (root rootRefs : Nat) : Mod :=
  let m6 := modSess m5 p idx (fun x => { x with
    kv := x.kv.mapKV (fun _ k => if (forkOpen s).contains (bodyPage k) then k else { k with family := true }) })
  let shared := familyBodies ((m6.pol[p].sess.get idx).getD s)
  let m7 := modPol m6 p (fun q => { q with
    pages := q.pages.mapKV (fun n pg => if shared.contains n then
      (match pg.owner with
       | .sess _ r => { pg with owner := .sess root r }
       | _ => pg) else pg) })
  let m8 := changeDesc { m7 with sidNext := m7.sidNext + 1 } root (fun r => { r with famRefs := rootRefs + 1 })
  let cs := m8.pol[p].sess.get ci
  let m9 := changeDesc m8 ci (fun c => { c with root := ssaOf p ((cs.map Sess.rootPg).getD 0) })
  let m10 := cacheInstall (pinc m9 p Ctr.sessOpened 1) p ci
  let m11 := if d.sparse && d.life == .active then coarseHome m10 p ci true else m10
  complete m11 p tag (rSess (handleOf ci p.val (genOf m11 ci)) 1 (rootRefs + 1))

/-- SESS_FORK takes effect at the parent's step boundary (R99, R218). -/
def forkNow (m : Mod) (p : Fin 16) (idx tag : Nat) : Mod :=
  match desc? m idx, m.pol[p].sess.get idx with
  | some d, some s =>
    let root := famRoot d idx
    let rootRefs := match desc? m root with
      | some r => if r.famRefs == 0 then 1 else r.famRefs
      | none => 1
    if 65535 < rootRefs + 1 then complete m p tag (rQuota 3)
    else if dirShare m ≤ liveEntries m p.val then complete m p tag (rQuota 3)
    else if anyLost m p (forkReads m.pol[p] idx s) then complete m p tag (rSt stTierLost)
    else match m.pol[p].slots.get d.slot with
      | none => complete m p tag rBadNone
      | some sl =>
        match takeEntry m (fun i => { d with
            sid := selfId m * 2 ^ 52 + m.sidNext % 2 ^ 52, epoch := 1, pend := 0, fam := root, famRefs := 0, ckptRef := 0
            own := .owned, jdirty := false, root := i }) with
        | none => complete m p tag (rQuota 3)
        | some (ci, m1) =>
          match forkPages m1 p ci d s sl.man.main with
          | .error tier => quotaEnd (if tier == errWait then m else freeEntry { m1 with pol := m.pol } ci) p tag tier
          | .ok m5 => forkEnd (toeReads m5 p (forkReads m.pol[p] idx s)) p idx ci tag d s root rootRefs
  | _, _ => complete m p tag rBadNone

/-- The lowest slot of a polder whose manifest DIGEST equals that of a model (R101). -/
def slotByDigest (q : Polder) (digest : Nat) : Option Nat := (q.slots.find? (fun e => e.2.man.main.digest == digest)).map (·.1)

/-- A session leaves its polder or module: a family root with members stays as a husk, a member leaves its family (R100). -/
def departFamily (m : Mod) (p : Fin 16) (idx : Nat) (d : Desc) : Mod :=
  let root := famRoot d idx
  if root != idx then leaveFamily m p root else m

/-- The pages of a session in its new polder: its regions and copies of its KV pages (R101). -/
def movePages (m1 : Mod) (sp dp : Fin 16) (ni slot : Nat) (d : Desc) (s : Sess) : Except Nat Mod := do
  match ((m1.pol[dp].slots.get slot).map (fun x => x.man.main)) with
  | none => .error 3
  | some g => do
    let (ns, m2) ← mapSession m1 dp ni d.cls d.sparse g d.ctxMax
    let m3 := modPol m2 dp (fun q => { q with
      sess := q.sess.put ni { ns with
        gen := s.gen, samp := s.samp, sketch := s.sketch, blockSk := s.blockSk, querySk := s.querySk
        qsValid := s.qsValid, blocks := s.blocks } })
    let m4 ← s.kv.foldlM (fun (m : Mod) e => do
      let lg := e.1 % max 1 s.geo.lgs
      let i := e.1 / max 1 s.geo.lgs
      let m ← openKv m dp ni d.cls i lg
      pure (modSess m dp ni (fun x => { x with
        kv := x.kv.upd e.1 (fun c => { e.2 with body := c.body, family := false }) }))) m3
    copyRegions m4 sp dp s ns

/-- The entry becomes a forwarding entry for a holder: its pages are released, a family root stays behind as a husk while
it has members (Table 03-9, R100). -/
def relinquish (m : Mod) (p : Fin 16) (idx epoch peerMod peerPol : Nat) : Mod :=
  match desc? m idx with
  | none => m
  | some d =>
    let left := d.own == .relinquished
    let root := famRoot d idx
    let refs := if root == idx && !left then d.famRefs - 1 else d.famRefs
    let (_, m1) := releaseOwn m p idx
    let m2 := modPol m1 p (fun q => { q with sess := q.sess.del idx })
    let m3 := changeDesc m2 idx (fun d => { d with
      own := .relinquished, epoch := epoch, pend := 0, peerMod := peerMod, peerPol := peerPol, famRefs := refs
      life := if root == idx && decide (0 < refs) then .husk else .parked
      lease := leaseAt m.pol[p].clk m.own.leaseMs })
    if left then m3 else departFamily m3 p idx d

/-- A local transfer ends (R101): queued requests end with ABORTED, the old entry is RELINQUISHED to its new polder, its pages are released, and the
command completes. -/
def moveEnd (m4 : Mod) (p : Fin 16) (idx ni tag : Nat) (dp : Fin 16) (d : Desc) : Mod :=
  let m5 := endSessReqs m4 p idx stAborted 5
  let m7 := relinquish m5 p idx d.epoch (selfId m5) dp.val
  let ns := m7.pol[dp].sess.get ni
  let m8 := changeDesc m7 ni (fun x => { x with root := ssaOf dp ((ns.map Sess.rootPg).getD 0) })
  let m9 := if d.sparse && d.life == .active then coarseHome m8 dp ni true else m8
  complete (cacheInstall m9 dp ni) p tag (rSess (handleOf ni dp.val (genOf m9 ni)) (d.epoch + 1) 0)

/-- SESS_MOVE to another polder of this module (R101): one local transfer at EPOCH + 1. -/
def moveLocal (m : Mod) (p : Fin 16) (idx tag dst : Nat) : Mod :=
  match desc? m idx, m.pol[p].sess.get idx with
  | some d, some s =>
    let dp := pn dst
    let dq := m.pol[dp]
    let digest := ((m.pol[p].slots.get d.slot).map (fun x => x.man.main.digest)).getD 0
    match slotByDigest dq digest with
    | none => complete m p tag rBadNone
    | some slot =>
      if dirShare m ≤ liveEntries m dp.val then complete m p tag (rQuota 3)
      else match takeEntry m (fun i => { d with
          pol := dp.val, slot := slot, epoch := d.epoch + 1, fam := i, famRefs := 0, sealed := dq.sealed }) with
        | none => complete m p tag (rQuota 3)
        | some (ni, m1) =>
          match movePages m1 p dp ni slot d s with
          | .error tier => quotaEnd (if tier == errWait then m else freeEntry { m1 with pol := m.pol } ni) p tag tier
          | .ok m4 => moveEnd (toeReads m4 p (allPages m.pol[p] idx)) p idx ni tag dp d
  | _, _ => complete m p tag rBadNone

/-- A transfer to another module begins (Table 03-9): parked, PEND_EPOCH = E + 1, journal first, then OFFER. -/
def handoffNow (m : Mod) (p : Fin 16) (idx tag dstMod dstPol : Nat) (move : Bool) : Mod :=
  let m1 := endSessReqs m p idx stAborted 5
  let m2 := coarseHome m1 p idx false
  let m3 := modDesc m2 idx (fun d => { d with
    life := .parked, own := .pendingOut, pend := d.epoch + 1, peerMod := dstMod, peerPol := dstPol })
  journalFirst m3 idx (ownRec m3 idx) (.offer p.val idx tag move)

/-- A session command with a handle: the checks of R106, R98 and R97, then the action with the descriptor. -/
def onSession (m : Mod) (p : Fin 16) (t : Taken) (f : Mod → Nat → Desc → Mod) : Mod :=
  match liveSession m p t.entry with
  | .error r => turnedAway m p t r
  | .ok (idx, d) => f (cacheUse m p idx) idx d

/-- An action at the session's step boundary: now, or when the step in flight ends (R31). -/
def atBoundary (m : Mod) (p : Fin 16) (idx tag : Nat) (w : Boundary) (now : Mod → Mod) : Mod :=
  if stepInFlight m.pol[p] idx then modPol m p (fun q => { q with waits := q.waits ++ [⟨tag, idx, w⟩] }) else now m

def sessPark (m : Mod) (p : Fin 16) (tag : Nat) : Mod := ringRow m p tag 0x11 (fun t m =>
  onSession m p t (fun m idx d =>
    if d.life == .parked then complete m p tag rBadNone
    else atBoundary (setJob m idx t.job) p idx tag .park (fun m => parkNow m p idx tag)))

/-- SESS_RETIRE of a live session at its step boundary (Table 03-7). -/
def retireAt (m : Mod) (p : Fin 16) (idx tag : Nat) : Mod :=
  if stepInFlight m.pol[p] idx then
    modPol (changeDesc m idx (fun d => { d with life := .retiring })) p (fun q => { q with waits := q.waits ++ [⟨tag, idx, .retire⟩] })
  else retireNow m p idx tag

/-- SESS_RETIRE (R97). On an import it discards the import, then retires the prior state (Table 03-13). -/
def sessRetire (m : Mod) (p : Fin 16) (tag : Nat) : Mod := ringRow m p tag 0x15 (fun t m =>
  match resolve m p t.entry with
  | .error r => turnedAway m p t r
  | .ok (idx, d) =>
    let m0 := cacheUse m p idx
    if d.own == .importing then
      let m1 := discardImport m0 p d.sid (rSt stPhaseLost) (some stPhaseLost)
      (match desc? m1 idx with
       | some d1 => if d1.own == .owned && (d1.life == .active || d1.life == .parked) then retireAt (setJob m1 idx t.job) p idx tag
           else complete m1 p tag rBadNone
       | none => complete m1 p tag rBadNone)
    else if busyOwn d then complete m0 p tag (rSt stBusy)
    else if d.life != .active && d.life != .parked then complete m0 p tag rBadNone
    else retireAt (setJob m0 idx t.job) p idx tag)

def sessFork (m : Mod) (p : Fin 16) (tag : Nat) : Mod := ringRow m p tag 0x14 (fun t m =>
  onSession m p t (fun m idx _ => atBoundary (setJob m idx t.job) p idx tag .fork (fun m => forkNow m p idx tag)))

/-- The polder and module a transfer names (Table 03-6). -/
def destMod (e : Block) : Nat := fld e 28 0 12
def destPol (e : Block) : Nat := fld e 28 12 4

/-- A sealed session leaves the module only to a polder with which its own holds a transfer key (R101, R375). -/
def noKey (m : Mod) (p : Fin 16) (dm dp : Nat) : Bool := m.pol[p].sealed && !(tkOf m p dm dp).live

/-- SESS_MOVE's refusals, tested when it is submitted and again at the step boundary (R23, R89, R101, R375). -/
def moveBad (m : Mod) (p : Fin 16) (d : Desc) (dm dp : Nat) : Option Res :=
  if dm == selfId m then
    if dp == p.val then some (rBad 28)
    else if !m.pol[pn dp].composed then some (rBad 28)
    else if 2 ^ 32 ≤ d.epoch + 1 then some rBadNone
    else if m.pol[pn dp].sealed && (d.sparse || !m.pol[p].sealed) then some (rBad 28)
    else if m.pol[p].sealed && !m.pol[pn dp].sealed then some (rBad 28)
    else none
  else if 2 ^ 32 ≤ d.epoch + 2 then some rBadNone
  else if noKey m p dm dp then some (rBad 28)
  else none

/-- SESS_HANDOFF_OUT's refusals (R89, R101, R375). -/
def handoffBad (m : Mod) (p : Fin 16) (d : Desc) (dm dp : Nat) : Option Res :=
  if dm == selfId m then some (rBad 28) else moveBad m p d dm dp

/-- A transfer at the step boundary, unless it is refused now or needs a LOST page (R67). -/
def transferNow (m : Mod) (p : Fin 16) (idx tag : Nat) (bad : Desc → Option Res) (go : Mod) : Mod :=
  match (desc? m idx).map bad with
  | none => complete m p tag rBadNone
  | some (some r) => complete m p tag r
  | some none => if anyLost m p (allPages m.pol[p] idx) then complete m p tag (rSt stTierLost) else go

def moveNow (m : Mod) (p : Fin 16) (idx tag : Nat) (e : Block) : Mod :=
  transferNow m p idx tag (fun d => moveBad m p d (destMod e) (destPol e))
    (if destMod e == selfId m then moveLocal m p idx tag (destPol e) else handoffNow m p idx tag (destMod e) (destPol e) true)

/-- SESS_HANDOFF_OUT at the step boundary. -/
def handoffOutNow (m : Mod) (p : Fin 16) (idx tag : Nat) (e : Block) : Mod :=
  transferNow m p idx tag (fun d => handoffBad m p d (destMod e) (destPol e)) (handoffNow m p idx tag (destMod e) (destPol e) false)

def sessMove (m : Mod) (p : Fin 16) (tag : Nat) : Mod := ringRow m p tag 0x13 (fun t m =>
  onSession m p t (fun m idx d =>
    match moveBad m p d (destMod t.entry) (destPol t.entry) with
    | some r => complete m p tag r
    | none => atBoundary (setJob m idx t.job) p idx tag .move (fun m => moveNow m p idx tag t.entry)))

def sessHandoffOut (m : Mod) (p : Fin 16) (tag : Nat) : Mod := ringRow m p tag 0x16 (fun t m =>
  onSession m p t (fun m idx d =>
    match handoffBad m p d (destMod t.entry) (destPol t.entry) with
    | some r => complete m p tag r
    | none => atBoundary (setJob m idx t.job) p idx tag .handoff (fun m => handoffOutNow m p idx tag t.entry)))

/-- An import commits when its last page is in, SESS_HANDOFF_IN is bound and the window is open (R104, R108, R247). -/
def tryCommit (m : Mod) (p : Fin 16) (sid : Nat) : Mod :=
  match importOf m.pol[p] sid with
  | none => m
  | some im =>
    if im.bound.isNone || im.committing || decide (im.pages.length < im.expected) then m
    else if im.expectedCmd != im.pages.length || im.expected != im.pages.length then
      discardImport m p sid rBadNone (some stBadCmd)
    else if !windowOpen m p im then m
    else match m.pol[p].sess.get (impKey im.idx) with
      | none => m
      | some s =>
        match importTokens s.geo im.pages with
        | none => discardImport (pinc m p Ctr.importReject 1) p sid rBadNone (some stBadCmd)
        | some _ =>
          let m1 := modImport m p sid (fun i => { i with committing := true })
          let r := match desc? m1 im.idx with
            | some d => recOf 3 p.val { d with own := .owned, epoch := im.h }
            | none => recOf 3 p.val (Desc.blank 0)
          journalFirst m1 im.idx r (.claim p.val sid)

/-- The result of SESS_QUERY (Table 03-6). -/
def queryRes (p : Fin 16) (idx : Nat) (d : Desc) : Res :=
  rSess (handleOf idx p.val d.gen) d.epoch (d.life.code + d.own.code * 16 + d.peerMod % 4096 * 2 ^ 16)

/-- SESS_QUERY (R95, R97, R106): accepted in every state, by handle or SESSION_ID. -/
def sessQuery (m : Mod) (p : Fin 16) (tag : Nat) : Mod := ringRow m p tag 0x18 (fun t m =>
  let e := t.entry
  let addr := fld e 32 0 64
  let found : Except Res (Nat × Desc) :=
    if flg e 28 0 then
      match lookupSid m p (fld e 16 0 64) with
      | .error r => .error r
      | .ok (some x) => .ok x
      | .ok none => .error (rBad 16)
    else
      let idx := fld e 16 0 24
      if fld e 16 24 4 != p.val then .error (rBad 16)
      else if m.refetch.contains idx then .error (rSt stRetry)
      else if m.dirGone.contains idx then .error (rSt stTierLost)
      else match desc? m idx with
        | some d => if d.own == .none || d.pol != p.val || (d.gen != fld e 20 0 32 && d.own != .relinquished) then .error (rBad 16)
            else .ok (idx, d)
        | none => .error (rBad 16)
  match found with
  | .error r => complete m p tag r
  | .ok (idx, d) =>
    let m1 := cacheUse m p idx
    let m2 := if addr == 0 then m1 else hostOut m1 p addr 64 (descBytes d)
    complete m2 p tag (queryRes p idx d))

end Sys2Proof.Machine
end

