-- ==== Sys2Proof/Machine/Load.lean ====
section
/-! DEFINITION. Loading a session from checkpoint records, at a restore or a takeover (R303 to R305, Table 09-7). -/

namespace Sys2Proof.Machine

/-- A record's payload as its store holds it; none when the chunk is missing or fails its digest (R305). -/
def payloadOf (st : CkStore) (r : CkRec) : Option CkPay :=
  ((st.chunks.find? (fun c => c.digest == r.digest)).map Chunk.pay).filter (fun x => payDigest x == r.digest)

/-- The KV_BODY records of an assembled set pass the checks of R247 and cover the tokens (R303). -/
def kvComplete (layers groups fmt : Nat) (tokens : Nat) (recs : List CkRec) : Bool :=
  let c := cdiv tokens 16
  let bodies := recs.filter (fun r => r.kind == 5)
  (List.range (layers * groups)).all (fun lg => (List.range c).all (fun i => bodies.any (fun r => r.lg == lg && r.ix == i))) &&
  bodies.all (fun r => decide (r.lg < layers * groups) && decide (r.ix < c) && r.fmt == fmt &&
    r.fill == (if r.ix + 1 == c then tokens - 16 * (c - 1) else 16))

/-- Non-layer state written into a session's new pages (Table 09-7 step 3): none when a payload fails. -/
def loadHead (s : Sess) (get : CkRec → Option CkPay) (recs : List CkRec) : Option Sess :=
  recs.foldlM (fun (s : Sess) r =>
    if r.kind == 5 then some s else
    match get r with
    | none => none
    | some (.root x) => some { s with gen := x.gen, qsValid := x.qsValid }
    | some (.sampler x) => some { s with samp := x }
    | some (.feature _ _ row) => some { s with gen := { s.gen with feature := row } }
    | some (.qsketch l) => some { s with querySk := l.zipIdx.map (fun e => (e.2, e.1)) }
    | some (.sketch l) => some { s with
        sketch := (l.zipIdx.filter (fun e => e.1 != 0)).foldl (fun (a : SMap Nat) e =>
          a.put (kvIdx s.geo (256 * r.ix + e.2) r.lg) e.1) s.sketch }
    | some _ => some s) s

/-- One KV body placed by R196 and R60; an unreadable or failing chunk makes its page LOST (R305). The error is the tier
refused. -/
def loadBody (m : Mod) (p : Fin 16) (idx : Nat) (c : Cls) (step : Nat) (get : CkRec → Option CkPay) (r : CkRec) : Except Nat Mod := do
  let m ← openKv m p idx c r.ix r.lg
  match m.pol[p].sess.get idx with
  | none => pure m
  | some s =>
    let d := kvIdx s.geo r.ix r.lg
    let rows := match get r with
      | some (.body _ _ rows) => some rows
      | _ => none
    match s.kv.get d, rows with
    | some _, some rows =>
      let bad := r.fill == 16 && bodyCheck s.geo.fmt rows != r.check
      let m := modSess m p idx (fun s => { s with kv := s.kv.upd d (fun k => { k with
        fill := r.fill, check := r.check, commitStep := step, sketched := s.sketch.has d
        rows := rows.zipIdx.map (fun e => (e.2, e.1)) }) })
      match (m.pol[p].sess.get idx).bind (fun s => s.kv.get d) with
      | none => pure m
      | some k =>
        let m := writePage m p (bodyPage k) id
        pure (if bad then pinc (pinc (losePage m p (bodyPage k)) p Ctr.ckptLost 1) p Ctr.kvCheckFail 1 else m)
    | some k, none =>
      let m := modSess m p idx (fun s => { s with kv := s.kv.upd d (fun k => { k with fill := r.fill, commitStep := step }) })
      pure (pinc (losePage m p (bodyPage k)) p Ctr.ckptLost 1)
    | none, _ => pure m

/-- Bodies placed in order until one is refused room; what is left (R64, R305). -/
def loadBodies (m : Mod) (p : Fin 16) (idx : Nat) (c : Cls) (step : Nat) (get : CkRec → Option CkPay) : List CkRec → List CkRec × Mod
  | [] => ([], m)
  | r :: rest =>
    match loadBody m p idx c step get r with
    | .ok m' => loadBodies m' p idx c step get rest
    | .error t => (r :: rest, if t == errWait then beginRoom m p else countRefused m p t)

/-- A session's regions mapped and its non-layer state loaded: block sketches computed, sketch pages given frames (Table
09-7 step 3). None when a payload fails; the error is the tier refused. -/
def loadSession (m : Mod) (p : Fin 16) (idx : Nat) (c : Cls) (sparse : Bool) (g : Prog) (ctxMax tokens : Nat)
    (get : CkRec → Option CkPay) (recs : List CkRec) : Except Nat (Option Mod) := do
  let (s, m) ← mapSession m p idx c sparse g ctxMax
  match loadHead s get recs with
  | none => pure none
  | some s1 =>
    let m := modPol m p (fun q => { q with sess := q.sess.put idx s1 })
    let m ← if sparse then
        (dedup (s1.sketch.map (fun e => sketchPageOf s1 (e.1 / max 1 s1.geo.lgs) (e.1 % max 1 s1.geo.lgs)))).foldlM
          (fun m n => do pure (writePage (← ensureFrame m p n) p n id)) m
      else pure m
    let blocks := tokens / 16 / 256
    let m ← if sparse then
        ((List.range blocks).flatMap (fun b => (List.range s1.geo.lgs).map (fun lg => coarsePageOf s1 b lg))).foldlM
          (fun m n => ensureFrame m p n) m
      else pure m
    pure (some (if sparse then sealBlocks m p idx (tokens / 16) else m))

end Sys2Proof.Machine
end

