-- ==== Sys2Proof/Machine/Own.lean ====
section
/-! DEFINITION. Ownership messages, leases and windows (R102 to R109). -/

namespace Sys2Proof.Machine

/-- The HVL counter reaches a reading. -/
def tickHvl (m : Mod) (t : Nat) : Mod := { m with hvl := max m.hvl t }

/-- A polder's counter reaches a reading. -/
def tickPol (m : Mod) (p : Fin 16) (t : Nat) : Mod := modPol m p (fun q => { q with clk := max q.clk t })

/-- A peer is declared failed and not heard since (R113). -/
def peerFailed (m : Mod) (src : Nat) : Bool := ((m.peers.get src).map Peer.failed).getD false

/-- A frame from a peer: its silence ends; one declared failed is alive again and gets its queued ASSERT messages (R113). -/
def heard (m : Mod) (src : Nat) : Mod :=
  match m.peers.get src with
  | none => m
  | some pr =>
    let m1 := { m with peers := m.peers.put src { pr with lastFrame := some m.hvl } }
    if pr.failed then
      let m2 := { m1 with peers := m1.peers.upd src (fun x => { x with
        failed := false, noticed := false, asserts := [], shadow := x.shadow.map (fun e => (e.1, { e.2 with cur := false })) }) }
      pr.asserts.foldl (fun m a => send m src a.1 a.1
        (.own .assert { OwnBody.blank with sid := a.2.1, epoch := a.2.2 })) m2
    else m1

/-- An ownership message sent. -/
def sendOwn (m : Mod) (dst pol src : Nat) (ty : OwnMsg) (sid epoch : Nat) : Mod :=
  send m dst pol src (.own ty { OwnBody.blank with sid := sid, epoch := epoch })

/-- ABORT with the status of the refusal (R469). -/
def sendAbort (m : Mod) (dst pol src sid epoch st : Nat) : Mod :=
  send m dst pol src (.own .abort { OwnBody.blank with sid := sid, epoch := epoch, status := st })

/-- A local copy dropped on a higher ASSERT or CLAIM: its commands complete with STALE_EPOCH, the entry forwards to the new
holder, which their completions name, and SUPERSEDED is posted (Table 03-9, R106, R116, R423). -/
def supersede (m : Mod) (idx x peerMod peerPol : Nat) : Mod :=
  match desc? m idx with
  | none => m
  | some d0 =>
    let p := pn d0.pol
    let m0 := if d0.own == .importing then discardImport m p d0.sid (rSt stStale) none else m
    match desc? m0 idx with
    | none => m0
    | some d =>
      if d.own == .none then m0
      else
        let dest := rForward { d with peerMod := peerMod, peerPol := peerPol }
        let mf := modDesc m0 idx (fun d => { d with own := .relinquished, peerMod := peerMod, peerPol := peerPol })
        let m1 := dropWaits (endSessReqs mf p idx stStale 6) p idx dest
        let m2 := modPol m1 p (fun q => { q with passes := q.passes.map (fun x => { x with
          seqs := updWhere x.seqs (fun y => y.sess == idx && y.ended.isNone) (fun y => { y with ended := some stStale }) }) })
        let m3 := ckAbandon m2 p d.sid dest
        let m4 := match xferOf m3.pol[p] idx with
          | some y => complete (dropXfer m3 p idx) p y.tag dest
          | none => m3
        let m5 := match m4.pol[p].ck.restores.find? (fun r => r.idx == idx && !r.loaded) with
          | some r => complete (modCk m4 p (fun c => { c with restores := c.restores.filter (fun y => y.idx != idx) })) p r.tag dest
          | none => modCk m4 p (fun c => { c with restores := c.restores.filter (fun y => y.idx != idx) })
        let m6 := relinquish m5 p idx x peerMod peerPol
        raiseEvent (pinc m6 p Ctr.superseded 1) p
          { code := 0xE1, handle := handleOf idx d.pol d.gen, sid := d.sid, epoch := x, life := d.life.code, other := peerMod }

/-- The shadow image a peer's journal gave of a SESSION_ID, the newest first. -/
def shadowOf (pr : Peer) (sid : Nat) : Option Shadow :=
  (sortBy (fun (a b : Nat × Shadow) => decide (b.2.d.epoch < a.2.d.epoch)) (pr.shadow.filter (fun e => e.2.d.sid == sid))).head?.map (·.2)

/-- A reply that names a holder other than the asker: the replier itself, or the module its forwarding entry names (R392, R469). -/
def sendReply (m : Mod) (dst pol src sid epoch holder : Nat) (valid : Bool) : Mod :=
  send m dst pol src (.own .assertReply { OwnBody.blank with sid := sid, epoch := epoch, holder := holder, ownerValid := valid })

/-- The tie rule (R105): both modules hold the epoch; the lower discovery identifier keeps it. -/
def tie (m : Mod) (d : Desc) (x : Nat) : Bool := d.own == .owned && d.epoch == x && decide (selfId m < 4096)

/-- The holder with the higher identifier drops its copy as for a higher ASSERT; its reply names the other one as the holder, which tells that
one of the tie (R105). -/
def tieLost (m : Mod) (idx src srcPol : Nat) (d : Desc) (x : Nat) : Mod :=
  sendReply (supersede m idx x src srcPol) src srcPol d.pol d.sid x src true

/-- A received ASSERT(X) (Table 03-9, R105, R392). -/
def recvAssert (m : Mod) (src srcPol : Nat) (b : OwnBody) : Mod :=
  match findSidAny m b.sid with
  | none =>
    match (m.peers.get src).bind (fun pr => shadowOf pr b.sid) with
    | some sh =>
      if sh.d.own == .relinquished && decide (b.epoch ≤ sh.d.epoch) then
        sendReply m src srcPol 0 b.sid sh.d.epoch sh.d.peerMod (sh.d.peerMod != src)
      else sendReply m src srcPol 0 b.sid b.epoch 0 false
    | none => sendReply m src srcPol 0 b.sid b.epoch 0 false
  | some (idx, d) =>
    if d.epoch < b.epoch then sendReply (supersede m idx b.epoch src srcPol) src srcPol d.pol b.sid b.epoch 0 false
    else if tie m d b.epoch then
      let m1 := minc m Ctr.epochTie 1
      if src < selfId m then tieLost m1 idx src srcPol d b.epoch
      else sendReply m1 src srcPol d.pol b.sid d.epoch (selfId m) true
    else if d.own == .relinquished then sendReply m src srcPol d.pol b.sid d.epoch d.peerMod (d.peerMod != src)
    else sendReply m src srcPol d.pol b.sid d.epoch (selfId m) true

/-- A restoring session owns at T: journal first, then its state loads (Table 09-7 step 2). -/
def restoreOwn (m : Mod) (p : Fin 16) (idx : Nat) : Mod :=
  match desc? m idx, m.pol[p].ck.restores.find? (fun r => r.idx == idx) with
  | some d, some r =>
    if d.own == .restoring && decide (0 < d.pend) && !m.jr.acts.any (fun (a : Nat × JAct) => a.2 == .restored p.val idx r.tag) then
      journalFirst m idx (recOf 3 p.val { d with own := .owned, epoch := d.pend, pend := 0 }) (.restored p.val idx r.tag)
    else m
  | _, _ => m

/-- A restore abandoned before it owned: the prior state stands, or the entry is freed (Table 03-9). -/
def restoreAbandon (m : Mod) (p : Fin 16) (idx st : Nat) : Mod :=
  match m.pol[p].ck.restores.find? (fun r => r.idx == idx) with
  | none => m
  | some r =>
    let m1 := modCk m p (fun c => { c with restores := c.restores.filter (fun y => y.idx != idx) })
    if r.adopted.isSome then m1
    else
      let m2 := if r.created then
          (match desc? m1 idx with
           | some d => journalFree (freeDesc m1 p idx) idx d
           | none => m1)
        else changeDesc m1 idx (fun d => { r.prior with gen := d.gen })
      complete m2 p r.tag (rSt st)

/-- A received ASSERT_REPLY(X) (Table 03-9, R105, R391, R392). -/
def recvAssertReply (m : Mod) (src : Nat) (b : OwnBody) : Mod :=
  match findSidAny m b.sid with
  | none => m
  | some (idx, d) =>
    let p := pn d.pol
    if d.own == .restoring && decide (0 < d.pend) then
      if d.pend < b.epoch || (b.epoch == d.pend && b.ownerValid) then restoreAbandon m p idx stStale
      else if b.epoch == d.pend then
        let m1 := modCk m p (fun c => { c with
          restores := updWhere c.restores (fun r => r.idx == idx) (fun r => { r with asked := r.asked.filter (fun x => x != src) }) })
        if (m1.pol[p].ck.restores.filter (fun r => r.idx == idx)).all (fun r => r.asked.isEmpty) then restoreOwn m1 p idx else m1
      else m
    else if d.own == .owned && decide (d.epoch < b.epoch) && b.ownerValid then supersede m idx b.epoch b.holder d.pol
    else if tie m d b.epoch && b.ownerValid then
      let m1 := minc m Ctr.epochTie 1
      if b.holder < selfId m then supersede m1 idx b.epoch b.holder d.pol else m1
    else m

/-- A source holds PENDING_OUT no longer: EPOCH = H + 1, journal first, then ASSERT (Table 03-9). -/
def reassertStart (m : Mod) (p : Fin 16) (idx : Nat) : Mod :=
  match desc? m idx with
  | none => m
  | some d =>
    if d.own == .pendingOut && decide (0 < d.pend) then
      let m1 := modDesc m idx (fun d => { d with epoch := d.pend + 1, pend := 0 })
      journalFirst m1 idx (recOf 3 p.val { d with own := .owned, epoch := d.pend + 1, pend := 0 }) (.reassert p.val idx 0)
    else m

/-- An expired lease acts now (R11, R104). The lease of a transfer runs from the send of its OFFER: it has none while the OFFER
waits for the journal (Table 03-9). -/
def leaseDue (m : Mod) (p : Fin 16) (idx : Nat) (d : Desc) : Bool :=
  leasePast d.lease m.pol[p].clk && !m.jr.acts.any (fun (a : Nat × JAct) => a.2.isOffer p.val idx)

def leaseExpiry (m0 : Mod) (p : Fin 16) (idx t : Nat) : Mod :=
  let m := tickPol m0 p t
  match desc? m idx with
  | none => m
  | some d => if d.pol == p.val && d.own == .pendingOut && decide (0 < d.pend) && leaseDue m p idx d then reassertStart m p idx else m

/-- A source holds H + 1 and waits for the journal before it asserts that (Table 03-9). -/
def reasserting (d : Desc) : Bool := d.own == .pendingOut && d.pend == 0

/-- A received CLAIM(X) (Tables 03-9 and 03-13, R101, R105, R392). A source whose lease has expired answers with ASSERT(H + 1) once its OWN
record is acknowledged. -/
def recvClaim (m0 : Mod) (src srcPol : Nat) (p0 : Fin 16) (b : OwnBody) : Mod :=
  match findSidAny m0 b.sid with
  | none => sendOwn m0 src srcPol p0.val .claimAck b.sid b.epoch
  | some (idx, d0) =>
    let p := pn d0.pol
    let m := if d0.own == .pendingOut && leaseDue m0 p idx d0 then reassertStart m0 p idx else m0
    match desc? m idx with
    | none => m
    | some d =>
      if d.own == .pendingOut && d.pend == b.epoch && decide (0 < d.pend) then
        let m1 := relinquish m p idx b.epoch src srcPol
        let m2 := sendOwn m1 src srcPol p.val .claimAck b.sid b.epoch
        (match xferOf m2.pol[p] idx with
         | none => m2
         | some x => complete (dropXfer m2 p idx) p x.tag
             (if x.move then rSess b.handle b.epoch 0 else rSess 0 b.epoch x.shipped))
      else if d.own == .relinquished && d.epoch == b.epoch then sendOwn m src srcPol p.val .claimAck b.sid b.epoch
      else if d.epoch < b.epoch then sendReply (supersede m idx b.epoch src srcPol) src srcPol p.val b.sid b.epoch 0 false
      else if tie m d b.epoch then
        let m1 := minc m Ctr.epochTie 1
        if src < selfId m then tieLost m1 idx src srcPol d b.epoch
        else sendOwn m1 src srcPol p.val .assert b.sid d.epoch
      else if reasserting d && d.peerMod == src then m
      else sendOwn m src srcPol p.val .assert b.sid d.epoch

/-- A received CLAIM_ACK: the claim is no longer outstanding. -/
def recvClaimAck (m : Mod) (p : Fin 16) (b : OwnBody) : Mod :=
  modPol m p (fun q => { q with claims := q.claims.filter (fun c => c != (b.sid, b.epoch)) })

/-- A received ABORT (Table 03-9). -/
def recvAbort (m : Mod) (src : Nat) (p : Fin 16) (b : OwnBody) : Mod :=
  match importOf m.pol[p] b.sid with
  | some im =>
    if im.h == b.epoch && im.srcMod == src then
      discardImport m p b.sid (rSt stPhaseLost) (if peerFailed m src then none else some stPhaseLost)
    else m
  | none =>
    match findSid m p.val b.sid with
    | none => m
    | some (idx, d) =>
      if d.own == .pendingOut && d.pend == b.epoch && d.peerMod == src then
        if b.status == stStale then
          let m1 := changeDesc m idx (fun d => { d with own := .owned, pend := 0 })
          (match xferOf m1.pol[p] idx with
           | none => m1
           | some x => complete (dropXfer m1 p idx) p x.tag (rSt stStale))
        else reassertStart m p idx
      else m

/-- An import's regions are mapped under a key of their own, with what the destination keeps of a prior session's settings (R103, R107,
R109). -/
def mapImport (m : Mod) (p : Fin 16) (im : Import) : Except Nat Mod :=
  match m.pol[p].slots.get im.slot with
  | none => pure m
  | some sl => do
    let (s, m) ← mapSession m p (impKey im.idx) im.cls im.sparse sl.man.main (if im.ctxMax == 0 then modeMax im.sparse else im.ctxMax)
    let s1 := match m.pol[p].sess.get im.idx with
      | some o => { s with gen := { o.gen with featValid := false }, samp := o.samp, settings := o.settings }
      | none => s
    pure (modPol m p (fun q => { q with sess := q.sess.put (impKey im.idx) s1 }))

/-- A session's import opens (R103, R107). -/
def openImport (m : Mod) (src srcPol : Nat) (p : Fin 16) (b : OwnBody) (idx : Nat) (had : Bool) (prior : Desc) : Except Nat Mod :=
  let im : Import :=
    { sid := b.sid, h := b.epoch, srcMod := src, srcPol := srcPol, arrived := m.pol[p].clk, leaseMs := b.leaseMs
      guardMs := b.guardMs, expected := b.pages, slot := b.slot, cls := b.cls, sparse := b.sparse, ctxMax := b.ctxMax
      bound := none, prefill := none, preTok := 0, preSeq := 0, preHist := [], hadPrior := had, prior := prior, idx := idx
      pages := [], rootSeen := false, expectedCmd := 0, last := none, committing := false }
  mapImport (modPol m p (fun q => { q with imports := q.imports ++ [im] })) p im

/-- Generation state bound to an import by GEN_PREFILL_ACCEPT (R249). -/
def bindPre (m : Mod) (p : Fin 16) (t : Taken) (im : Import) (hist : List Nat) : Mod :=
  let tok := fld t.entry 28 0 32
  let vocab := ((m.pol[p].slots.get im.slot).map (fun s => s.man.main.vocab)).getD 0
  if im.prefill.isSome then complete m p t.tag rBadNone
  else if vocab ≤ tok then complete m p t.tag (rBad 28)
  else modImport m p im.sid (fun i => { i with
    prefill := some t.tag, preTok := tok, preSeq := fld t.entry 44 0 32, preHist := hist })

/-- What a page carries goes to its place in the import (R108, R109, R247). -/
def placePage (m : Mod) (p : Fin 16) (im : Import) (x : PageMsg) : Except Nat Mod :=
  let geo := ((m.pol[p].sess.get (impKey im.idx)).map Sess.geo).getD { layers := 0, groups := 0, fmt := 0, w := 0, bpp := 1, bodyBytes := 0 }
  match x.kind with
  | 1 => if x.lg < geo.lgs && x.fmt == geo.fmt && x.len == geo.bodyBytes then
           placeBody m p (impKey im.idx) im.cls im.sparse x else .ok m
  | 2 => .ok (modImport (modSess m p (impKey im.idx) (fun s => { s with gen := (x.root.map RootImg.gen).getD s.gen })) p x.sid
           (fun i => { i with rootSeen := true }))
  | 3 => .ok (modSess m p (impKey im.idx) (fun s => { s with samp := x.samp.getD s.samp }))
  | 4 =>
    match m.pol[p].sess.get (impKey im.idx) with
    | none => .ok m
    | some s => ((List.range s.featN).foldlM (fun (m : Mod) i => ensureFrame m p (s.featPg + i)) m).map
        (fun m => modSess m p (impKey im.idx) (fun s => { s with gen := { s.gen with feature := x.feat } }))
  | _ => .ok m

/-- An import placed anew under the CLASS, MODE, MODEL_SLOT and CTX_MAX of the command that binds it (R107). -/
def rebase (m : Mod) (p : Fin 16) (im : Import) (c : Cls) (sparse : Bool) (slot ctx : Nat) : Except Nat Mod :=
  let im' := { im with cls := c, sparse := sparse, slot := slot, ctxMax := ctx }
  if im' == im then .ok m
  else
    let m1 := modPol (releasePages m p (sessPages m.pol[p] (impKey im.idx))) p (fun q => { q with sess := q.sess.del (impKey im.idx) })
    (mapImport (modImport m1 p im.sid (fun _ => im')) p im').bind (fun m2 => im.pages.foldlM (fun m x => placePage m p im' x) m2)

/-- SESS_HANDOFF_IN meets the import of its SESSION_ID and H (R107): a second binding, or CLASS, MODE or MODEL_SLOT that fail R96, ends with
BAD_CMD, and the import is discarded. -/
def bindIn (m : Mod) (p : Fin 16) (t : Taken) (im : Import) : Mod :=
  let e := t.entry
  let c := clsOf (flg e 28 16)
  let sparse := flg e 28 17
  let slot := fld e 31 0 8
  let ctx0 := fld e 32 0 32
  let ctx := if ctx0 == 0 then modeMax sparse else ctx0
  if im.bound.isSome then complete m p t.tag rBadNone
  else match openCheck m p c sparse slot with
    | .error r => discardImport (complete m p t.tag r) p im.sid r (some stBadCmd)
    | .ok _ =>
      if modeMax sparse < ctx then
        discardImport (complete m p t.tag (rSt stCtxLimit)) p im.sid (rSt stCtxLimit) (some stCtxLimit)
      else match rebase m p im c sparse slot ctx with
        | .error tier =>
          if tier == errWait then beginRoom (unstart m p t.tag) p
          else discardImport (countRefused (modImport m p im.sid (fun i => { i with bound := some t.tag })) p tier) p im.sid (rSt stPhaseLost)
            (some stQuota)
        | .ok m1 => tryCommit (modImport m1 p im.sid (fun i => { i with
            bound := some t.tag, ctxMax := ctx, expectedCmd := fld e 36 0 32 })) p im.sid

/-- What a command that names a SESSION_ID for an import meets where there is no import: the descriptor's state can refuse it (R97, R98,
R106). -/
def importRefusal (m : Mod) (p : Fin 16) (sid : Nat) : Option Res :=
  match lookupSid m p sid with
  | .error r => some r
  | .ok none => none
  | .ok (some (_, d)) =>
    if d.own == .relinquished then some (rForward d)
    else if d.own == .pendingOut || d.own == .restoring then some (rSt stBusy)
    else if d.life == .retiring || d.life == .husk then some rBadNone
    else none

/-- SESS_HANDOFF_IN (R107): it binds to the import of its SESSION_ID; one whose H differs ends it with BAD_CMD and discards the import; it waits
where there is none. -/
def sessHandoffIn (m : Mod) (p : Fin 16) (tag : Nat) : Mod := ringRow m p tag 0x17 (fun t m =>
  let sid := fld t.entry 16 0 64
  let h := fld t.entry 24 0 32
  match importOf m.pol[p] sid with
  | some im => if im.h == h then bindIn m p t im
      else discardImport (complete m p tag (rBad 24)) p sid (rSt stPhaseLost) (some stBadCmd)
  | none => match importRefusal m p sid with
    | some r => complete m p tag r
    | none => modPol m p (fun q => { q with
        inWaits := q.inWaits ++ [⟨tag, sid, h, q.clk + msNs (m.own.leaseMs - m.own.guardMs), false, []⟩] }))

/-- The commands that waited for an import of this SESSION_ID and H bind to it (R107, R249). -/
def bindWaiting (m : Mod) (p : Fin 16) (sid h : Nat) : Mod :=
  let ws := m.pol[p].inWaits.filter (fun w => w.sid == sid && w.h == h)
  let m1 := modPol m p (fun q => { q with inWaits := q.inWaits.filter (fun w => !(w.sid == sid && w.h == h)) })
  ((ws.filter InWait.prefill) ++ (ws.filter (fun w => !w.prefill))).foldl (fun m w =>
    match findTaken m.pol[p] w.tag, importOf m.pol[p] sid with
    | some t, some im => if w.prefill then bindPre m p t im w.hist else bindIn m p t im
    | some t, none => complete m p t.tag (rSt stPhaseLost)
    | _, _ => m) m1

/-- The refusal of an OFFER (R469). -/
def offerRefuse (m : Mod) (src srcPol : Nat) (p : Fin 16) (b : OwnBody) (st : Nat) : Mod := sendAbort m src srcPol p.val b.sid b.epoch st

/-- A provisional import opens on an entry, and the commands that waited for it bind (R103, R107). -/
def offerOpened (m : Mod) (src srcPol : Nat) (p : Fin 16) (b : OwnBody) (idx : Nat) (had : Bool) (prior : Desc) : Mod :=
  let m1 := changeDesc m idx (fun d => { d with
    own := .importing, pend := b.epoch, peerMod := src, peerPol := srcPol
    lease := leaseAt m.pol[p].clk (b.leaseMs - b.guardMs) })
  match openImport m1 src srcPol p b idx had prior with
  | .ok m2 => bindWaiting (modPol (cacheUse m2 p idx) p (fun q => { q with
      reqs := updWhere q.reqs (fun r => r.idx == idx) (fun r => { r with heldImport := true }) })) p b.sid b.epoch
  | .error _ =>
    let m2 := if had then changeDesc m1 idx (fun d => { prior with gen := d.gen })
      else (match desc? m1 idx with
        | some d => journalFree (freeEntry m1 idx) idx d
        | none => m1)
    offerRefuse m2 src srcPol p b stQuota

/-- A forwarding entry of the session gives way to a higher offer: a module holds one descriptor of a SESSION_ID (R87). A husk keeps its
entry for its family. -/
def dropForward (m : Mod) (idx : Nat) : Mod :=
  match desc? m idx with
  | none => m
  | some d => if d.life == .husk && decide (0 < d.famRefs) then m else freeGone m (pn d.pol) idx d

/-- An OFFER of a session this module has no entry for (R87, R103). -/
def offerFresh (m : Mod) (src srcPol : Nat) (p : Fin 16) (b : OwnBody) : Mod :=
  if dirShare m ≤ liveEntries m p.val then offerRefuse m src srcPol p b stQuota
  else match takeEntry m (fun i => { Desc.blank 0 with
      own := .importing, cls := b.cls, sparse := b.sparse, sealed := m.pol[p].sealed, pol := p.val, slot := b.slot
      sid := b.sid, ctxMax := b.ctxMax, fam := i }) with
    | none => offerRefuse m src srcPol p b stQuota
    | some (idx, m1) => offerOpened m1 src srcPol p b idx false (Desc.blank 0)

/-- A received OFFER opens a provisional import, or is refused with ABORT (Tables 03-9 and 03-13, R87, R90, R107). -/
def recvOffer (m0 : Mod) (src srcPol : Nat) (p : Fin 16) (b : OwnBody) : Mod :=
  let go (m : Mod) : Mod :=
    match findSidAny m b.sid with
    | none => offerFresh m src srcPol p b
    | some (idx, d) =>
      if d.own == .relinquished then (if b.epoch ≤ d.epoch then offerRefuse m src srcPol p b stStale
        else offerFresh (dropForward m idx) src srcPol p b)
      else if d.pol != p.val then offerRefuse m src srcPol p b stBadCmd
      else if d.own == .owned && d.life != .retiring && d.life != .husk then
        (if b.epoch ≤ d.epoch then offerRefuse m src srcPol p b stStale else offerOpened m src srcPol p b idx true d)
      else if d.own == .owned then offerRefuse m src srcPol p b stBadCmd
      else offerRefuse m src srcPol p b stBusy
  if !m0.pol[p].composed then offerRefuse m0 src srcPol p b stBadCmd
  else if b.cls == .lc && b.sparse then offerRefuse m0 src srcPol p b stBadCmd
  else match importOf m0.pol[p] b.sid with
    | none => go m0
    | some im =>
      if im.h == b.epoch && im.srcMod == src && im.srcPol == srcPol then m0
      else if b.epoch ≤ im.h then offerRefuse m0 src srcPol p b stStale
      else go (discardImport m0 p b.sid (rSt stPhaseLost) (some stStale))

/-- A received PAGE is placed in session space, and acknowledged unless it is the last one (R108, R109, R219, R247). Where the spillway makes room
for it, it stays in its lane, which stood as `before`, and is received again (R60, log entry 60). -/
def recvPage (m : Mod) (src srcPol : Nat) (p : Fin 16) (x : PageMsg) (before : Net) : Mod :=
  let ack (m : Mod) : Mod := send m src srcPol p.val (.pageAck x.sid x.h x.pseq)
  match importOf m.pol[p] x.sid with
  | none =>
    match findSid m p.val x.sid with
    | some (_, d) => if d.own == .owned && decide (x.h ≤ d.epoch) then ack m else m
    | none => m
  | some im =>
    if im.h != x.h || im.srcMod != src then m
    else if im.pages.any (fun y => y.pseq == x.pseq) then (if im.last == some x.pseq then m else ack m)
    else
      match placePage m p im x with
      | .error t =>
        if t == errWait then beginRoom { m with net := before } p
        else discardImport (pinc m p (Ctr.quotaRefused t) 1) p x.sid (rSt stPhaseLost) (some stQuota)
      | .ok m1 =>
        let m2 := pinc (pinc m1 p Ctr.importPages 1) p Ctr.importBytes x.len
        let isLast := decide (im.expected ≤ im.pages.length + 1)
        let m3 := modImport m2 p x.sid (fun i => { i with
          pages := i.pages ++ [x], last := if isLast then some x.pseq else i.last })
        if isLast then tryCommit m3 p x.sid else ack m3

/-- A received page acknowledgement (Table 03-9). -/
def recvPageAck (m : Mod) (p : Fin 16) (sid h pseq : Nat) : Mod :=
  match findSid m p.val sid with
  | none => m
  | some (idx, d) =>
    if d.own == .pendingOut && d.pend == h then
      modPol m p (fun q => { q with
        xfers := updWhere q.xfers (fun x => x.idx == idx && !x.acked.contains pseq) (fun x => { x with acked := x.acked ++ [pseq] }) })
    else m

/-- An import whose commit window has closed is discarded (R104). -/
def commitWindowClose (m0 : Mod) (p : Fin 16) (sid t : Nat) : Mod :=
  let m := tickPol m0 p t
  match importOf m.pol[p] sid with
  | none => m
  | some im =>
    if !windowOpen m p im then
      discardImport m p sid (rSt stPhaseLost) (if peerFailed m im.srcMod then none else some stPhaseLost)
    else m

/-- A forwarding entry is freed; a husk's entry stays for its family (Table 03-9, R100). -/
def relinquishedExpiry (m0 : Mod) (p : Fin 16) (idx t : Nat) : Mod :=
  let m := tickPol m0 p t
  match desc? m idx with
  | none => m
  | some d =>
    if d.pol == p.val && d.own == .relinquished && leaseDue m p idx d then
      if d.life == .husk && decide (0 < d.famRefs) then m
      else freeGone m p idx d
    else m

/-- A restore whose lease expires with no higher answer owns at T (Table 03-9). -/
def restoreLeaseExpiry (m0 : Mod) (p : Fin 16) (idx t : Nat) : Mod :=
  let m := tickPol m0 p t
  match desc? m idx with
  | none => m
  | some d => if d.pol == p.val && d.own == .restoring && leaseDue m p idx d then restoreOwn m p idx else m

/-- A command that waited for an OFFER gives up when the window it expects would close (R107, R249). -/
def inWaitExpiry (m0 : Mod) (p : Fin 16) (tag t : Nat) : Mod :=
  let m := tickPol m0 p t
  match m.pol[p].inWaits.find? (fun w => w.tag == tag) with
  | none => m
  | some w =>
    if w.deadline ≤ m.pol[p].clk then
      complete (modPol m p (fun q => { q with inWaits := q.inWaits.filter (fun x => x.tag != tag) })) p tag (rSt stPhaseLost)
    else m

end Sys2Proof.Machine
end

