-- ==== Sys2Proof/Machine/Adopt.lean ====
section
/-! DEFINITION. The buddy's journal (R110 to R112), peer failure and takeover (R113 to R115, R519), the directory refuge (R93), and
revival (R64). -/

namespace Sys2Proof.Machine

/-- The place of a descriptor in a shadow directory: its SESSION_ID and polder. -/
def shadowKey (sid pol : Nat) : Nat := 16 * sid + pol % 16

/-- One journal record taken into the shadow directory of its sender; FREE drops an image of its EPOCH or a lower one (R110). -/
def shadowRec (pr : Peer) (r : JRec) : Peer :=
  if r.jseq ≤ pr.heldJseq then pr
  else
    let pr := { pr with heldJseq := r.jseq }
    let k := shadowKey r.sid r.pol
    match r.kind with
    | 2 => { pr with shadow := pr.shadow.filter (fun e => e.1 != k || decide (r.epoch < e.2.d.epoch)) }
    | 4 => { pr with shadow := pr.shadow.upd k (fun s => { s with steps := s.steps ++ [(r.step, r.toks)], cur := true }) }
    | 5 => { pr with shadow := [], expectSince := none }
    | _ =>
      let steps := ((pr.shadow.get k).map Shadow.steps).getD []
      { pr with shadow := pr.shadow.put k ⟨r.desc, steps, true⟩ }

/-- A received JOURNAL message: its records are held and acknowledged (R110, R470). -/
def recvJournal (m : Mod) (src : Nat) (recs : List JRec) : Mod :=
  let pr := (m.peers.get src).getD Peer.blank
  let pr1 := { pr with expectSince := match pr.expectSince with
    | none => some m.hvl
    | some t => some t }
  let pr2 := recs.foldl shadowRec pr1
  let m1 := { m with peers := m.peers.put src pr2 }
  let m2 := putMsg m1 src 0 0 none .lc (.journalAck pr2.heldJseq)
  if recs.any (fun r => r.kind == 5) then { m2 with peers := m2.peers.upd src (fun x => { x with expectSince := none }) } else m2

/-- JDIRTY clears when every change of a descriptor is acknowledged. -/
def clearDirty (m : Mod) (rs : List JSent) : Mod :=
  rs.foldl (fun m x => if m.jr.q.any (fun y => y.idx == x.idx && y.r.sid == x.r.sid) then m else
    { m with dir := m.dir.upd x.idx (fun d => if d.sid == x.r.sid then { d with jdirty := false } else d) }) m

/-- The actions that waited for records up to n happen in order. -/
def runActs (m : Mod) (n : Nat) : Mod :=
  let due := m.jr.acts.filter (fun a => decide (a.1 ≤ n))
  due.foldl (fun m a => runAct m a.1 a.2) { m with jr := { m.jr with acts := m.jr.acts.filter (fun a => decide (n < a.1)) } }

/-- BUDDY_DOWN clears and its time is counted (R112). -/
def buddyUp (m : Mod) : Mod :=
  minc { m with jr := { m.jr with down := false, resentTo := none } } Ctr.buddyDownMs ((m.hvl - m.jr.downAt) / 1000000)

/-- Acknowledgements have resumed: every record sent and not yet acknowledged is sent again, oldest first (R112). -/
def resendAll (m : Mod) : Mod :=
  match m.jr.buddy with
  | none => m
  | some b =>
    let rs := (m.jr.q.filter (fun x => x.sent)).map JSent.r
    let m1 := rs.foldl (fun m r => send m b (recPol r) (recPol r) (.journal [r])) m
    { m1 with jr := { m1.jr with resentTo := (rs.getLast?).map JRec.jseq } }

/-- A received JOURNAL_ACK (R111, R112, R117). -/
def recvJournalAck (m : Mod) (src jseq : Nat) : Mod :=
  if m.jr.buddy != some src then m
  else
    let got := m.jr.q.filter (fun x => x.sent && decide (x.r.jseq ≤ jseq))
    let lag := (got.filter (fun x => decide (x.r.kind ≤ 2))).foldl (fun a x => max a ((m.hvl - x.since) / 1000)) m.jr.lag
    let m1 := { m with jr := { m.jr with
      q := m.jr.q.filter (fun x => !(x.sent && decide (x.r.jseq ≤ jseq))), lastAck := m.hvl, lag := lag } }
    let m2 := minc m1 Ctr.journalRecords got.length
    let m3 := { m2 with ctr := m2.ctr.wr Ctr.journalLagMaxUs lag }
    let m4 := runActs (clearDirty m3 got) jseq
    if !m4.jr.down then m4
    else match m4.jr.resentTo with
      | some last => if last ≤ jseq then buddyUp m4 else m4
      | none => if m4.jr.q.all (fun x => !x.sent) then buddyUp m4 else resendAll m4

/-- The record as it goes out: DESC carries the descriptor as it stands now (R111). -/
def recNow (m : Mod) (x : JSent) : JRec :=
  if x.r.kind != 1 then x.r else match desc? m x.idx with
    | some d => if d.sid == x.r.sid && d.own != .none then recOf 1 d.pol d else x.r
    | none => x.r

/-- One waiting record numbered and sent. A descriptor whose OWN record still waits for the buddy is not sent before that is acknowledged. -/
def flushOne (m : Mod) (x : JSent) : Mod :=
  match m.jr.buddy with
  | none => m
  | some b =>
    let r0 := recNow m x
    if !recSendable m r0 || (x.r.kind == 1 && m.jr.acts.any (fun a => a.2.onEntry x.idx x.r.sid)) then m
    else
      let (n, j) := takeJseq m.jr
      let r := { r0 with jseq := n, src := selfId m }
      let wait := if j.q.any (fun y => y.sent) then j.waitSince else m.hvl
      let q := (j.q.filter (fun y => y != x)) ++ [⟨x.idx, r, x.since, true⟩]
      send { m with jr := { j with q := q, waitSince := wait } } b (recPol r) (recPol r) (.journal [r])

/-- The coalesced DESC and FREE records are sent (R111). -/
def journalFlush (m0 : Mod) (t : Nat) : Mod :=
  let m := tickHvl m0 t
  (m.jr.q.filter (fun x => !x.sent)).foldl flushOne m

/-- The buddy has acknowledged nothing for BUDDY_DEGRADE_MS while records wait: nothing waits any longer (R112). -/
def buddyDegrade (m0 : Mod) (t : Nat) : Mod :=
  let m := tickHvl m0 t
  let since := max m.jr.lastAck m.jr.waitSince
  if !m.jr.down && m.jr.q.any (fun x => x.sent) && decide (since + msNs m.own.degradeMs ≤ m.hvl) then
    let acts := m.jr.acts
    acts.foldl (fun m a => runAct m a.1 a.2) { m with jr := { m.jr with down := true, resentTo := none, downAt := m.hvl, acts := [] } }
  else m

/-- An image that is adopted only when the session it describes can be held here (R519, R23). -/
def adoptable (m : Mod) (p : Fin 16) (d : Desc) : Bool :=
  m.pol[p].composed && decide (liveEntries m p.val < dirShare m) &&
  decide ((if d.own == .pendingOut then d.pend else d.epoch) + 1 < 2 ^ 32) && !(d.sparse && (m.pol[p].sealed || d.cls == .lc))

/-- Active sequences of a polder (Table 01-3). -/
def activeCount (m : Mod) (p : Nat) : Nat := (m.dir.filter (fun e => e.2.pol == p && e.2.own != .none && e.2.life == .active)).length

/-- The session's last committed replica here (R114). -/
def adoptReplica (m : Mod) (p : Fin 16) (src srcPol sid : Nat) : Option (CkStore × Ck) :=
  (m.pol[p].ck.repl.get (16 * src + srcPol)).bind (fun st => ((st.cks.reverse).find? (fun c => c.sid == sid)).map (fun c => (st, c)))

/-- The replica a takeover loads: the session's last committed one, its chain, and the slot of its model (R114); a sealed one needs a transfer
key with the polder that wrote it (R375). -/
def adoptSource (m : Mod) (p : Fin 16) (src srcPol : Nat) (d : Desc) : Option (CkStore × Ck × List CkRec × Nat × Slot) := do
  let (st, c) ← adoptReplica m p src srcPol d.sid
  let l ← chain st c
  let slot ← slotByDigest m.pol[p] c.modelDigest
  let sl ← m.pol[p].slots.get slot
  if c.sealed && !(m.pol[p].sealed && (tkOf m p src srcPol).live) then none else pure (st, c, assemble l, slot, sl)

/-- A checkpoint that holds nothing. -/
def Ck.blank : Ck :=
  { sid := 0, epoch := 0, seq := 0, base := true, hosted := false, parentSeq := 0, parentEpoch := 0, step := 0, tokens := 0, ownerMod := 0
    ownerPol := 0, cls := .lc, sparse := false, sealed := false, fmt := 0, layers := 0, groups := 0, headDim := 0, w := 0, ctxMax := 0
    modelDigest := 0, recsDigest := 0, recs := [] }

/-- KV pages of an adopted session of which no replica stands here: they are LOST, and a step that needs them ends with TIER_LOST
(R67, log entry 65). -/
def mapLost (m : Mod) (p : Fin 16) (idx : Nat) (c : Cls) (g : Geo) (tokens : Nat) : Mod :=
  let per := 16 * g.bpp
  ((List.range g.lgs).flatMap (fun lg => (List.range (cdiv tokens per)).map (fun b => (lg, b)))).foldl (fun m e =>
    match takeRun m p 1 c (.sess idx (.body e.1 e.2)) with
    | .error _ => m
    | .ok (n, m1) =>
      let kv := (List.range g.bpp).filter (fun j => decide (16 * (e.2 * g.bpp + j) < tokens))
      modSess (modPage m1 p n (fun x => { x with st := .lost })) p idx (fun s => { s with
        kv := kv.foldl (fun (k : SMap KvPage) j =>
          let i := e.2 * g.bpp + j
          k.put (kvIdx g i e.1)
            { body := ssaOf p n + j * g.bodyBytes, firstPos := 16 * i, fill := min 16 (tokens - 16 * i), family := false, sketched := false
              fmt := g.fmt, layer := e.1 / max 1 g.groups, group := e.1 % max 1 g.groups, check := 0, commitStep := 0, rows := [] }) s.kv })) m

/-- What a restore reads its payloads from: the stream it carried, else its store; a chunk with a page that is LOST is unreadable (R305). -/
def restoreGet (m : Mod) (p : Fin 16) (r : Restore) (x : CkRec) : Option CkPay :=
  if r.ck.hosted then some x.pay
  else if anyLost m p (chunkPages m p x.digest) then none
  else (m.pol[p].ck.store :: m.pol[p].ck.repl.map (fun e => e.2)).findSome? (fun st => payloadOf st x)

/-- Bodies of a restore placed until one is refused room (Table 09-7 step 5). -/
def restoreStream (m : Mod) (p : Fin 16) (idx : Nat) : Mod :=
  match m.pol[p].ck.restores.find? (fun r => r.idx == idx && r.loaded), desc? m idx with
  | some r, some d =>
    let (left, m1) := loadBodies m p idx d.cls r.ck.step (restoreGet m p r) r.left
    let got := (r.left.take (r.left.length - left.length)).map CkRec.digest
    modCk (readChunks m1 p got) p (fun c => { c with
      restores := if left.isEmpty then c.restores.filter (fun x => x.idx != idx)
                  else updWhere c.restores (fun x => x.idx == idx) (fun x => { x with left := left }) })
  | _, _ => m

/-- A takeover's load is under way or waits. -/
def adoptedLoad (q : Polder) (idx : Nat) : Option Restore := q.ck.restores.find? (fun r => r.idx == idx && r.adopted.isSome)

/-- The state of an adopted session is loaded as far as there is room: the replica's non-layer state, then its bodies; a session without a
replica gets its regions, its KV pages LOST. What a missing model, key or room holds up is loaded later (Table 03-12 steps 3 and 4, R114,
log entry 65). -/
def adoptLoad (m : Mod) (p : Fin 16) (idx : Nat) : Mod :=
  match adoptedLoad m.pol[p] idx, desc? m idx with
  | some r, some d =>
    let (src, srcPol) := r.adopted.getD (0, 0)
    if r.loaded then restoreStream m p idx
    else match adoptSource m p src srcPol d with
      | some (st, c, recs, slot, sl) =>
        (match loadSession m p idx d.cls d.sparse sl.man.main d.ctxMax c.tokens (payloadOf st) recs with
         | .ok (some m1) =>
           let m2 := modSess m1 p idx (fun s => { s with replay := r.replay.filter (fun x => decide (c.step < x.1)) })
           let m3 := changeDesc m2 idx (fun x => { x with
             slot := slot, tokens := c.tokens, step := c.step, root := ((m2.pol[p].sess.get idx).map (fun s => ssaOf p s.rootPg)).getD 0 })
           let bodies := loadOrder m3.pol[p] c.groups c.tokens recs
           let head := (recs.filter (fun x => x.kind != 5)).map CkRec.digest
           restoreStream (modCk (readChunks m3 p head) p (fun k => { k with
             restores := updWhere k.restores (fun x => x.idx == idx) (fun x => { x with loaded := true, ck := c, left := bodies }) })) p idx
         | .ok none => modCk m p (fun k => { k with restores := k.restores.filter (fun x => x.idx != idx) })
         | .error t => if t == errWait then beginRoom m p else countRefused m p t)
      | none =>
        if (adoptReplica m p src srcPol d.sid).isSome then m
        else match m.pol[p].slots.get d.slot with
          | none => m
          | some sl => match loadSession m p idx d.cls d.sparse sl.man.main d.ctxMax 0 (fun _ => none) [] with
            | .ok (some m1) =>
              let m2 := mapLost m1 p idx d.cls (geoOf sl.man.main) d.tokens
              changeDesc (modCk m2 p (fun k => { k with restores := k.restores.filter (fun x => x.idx != idx) })) idx (fun x => { x with
                root := ((m2.pol[p].sess.get idx).map (fun s => ssaOf p s.rootPg)).getD 0 })
            | .ok none => m
            | .error t => if t == errWait then beginRoom m p else countRefused m p t
  | _, _ => m

/-- One shadow image adopted, discarded or kept (Table 03-9, R114, R115, R519). An active sequence that meets the conditions of R114 stays
ACTIVE and replays its journaled tokens. -/
def adoptOne (m : Mod) (src : Nat) (key : Nat) (sh : Shadow) : Mod :=
  let d : Desc := sh.d
  let p := pn ((m.own.adopt[d.pol]?).getD d.pol)
  let discard (m : Mod) : Mod := { m with peers := m.peers.upd src (fun x => { x with shadow := x.shadow.del key }) }
  if d.own == .importing || d.own == .restoring || d.own == .none || d.own == .shadow then discard m
  else if d.own == .relinquished then m
  else if d.life == .retiring || d.life == .husk then discard m
  else if !adoptable m p d then pinc m p Ctr.adoptSkipped 1
  else
    let ep : Nat := if d.own == .owned then d.epoch + 1 else d.epoch
    let here := findSidAny m d.sid
    if here.elim false (fun e => decide (ep ≤ e.2.epoch)) then discard (pinc m p Ctr.adoptSkipped 1)
    else
      let m1 := here.elim m (fun e => supersede m e.1 ep (selfId m) p.val)
      match takeEntry m1 (fun i => { d with
          life := .parked, epoch := ep, pol := p.val, fam := i, famRefs := 0, jdirty := false, sealed := m.pol[p].sealed, root := 0
          lease := leaseAt m.pol[p].clk m.own.leaseMs }) with
      | none => pinc m1 p Ctr.adoptSkipped 1
      | some (idx, m2) =>
        let load : Restore :=
          { tag := 2 ^ 16, idx := idx, created := true, prior := Desc.blank 0, ck := Ck.blank, recs := [], parked := true, slot := d.slot
            asked := [], owned := true, loaded := false, left := [], adopted := some (src, d.pol), replay := sh.steps }
        let m3 := adoptLoad (modCk (discard m2) p (fun k => { k with restores := k.restores ++ [load] })) p idx
        let last : Nat := (sh.steps.map (fun x => x.1)).foldl max d.step
        let near := (adoptReplica m3 p src d.pol d.sid).elim false (fun x => decide (last ≤ x.2.step + 64))
        let act := d.life == .active && d.own == .owned && near && m3.pol[p].sess.has idx && (adoptedLoad m3.pol[p] idx).isNone &&
          decide (activeCount m3 p.val < 1024) && !pumpFenced m p
        let m4 := if act then modDesc m3 idx (fun x => { x with life := .active }) else m3
        let m5 := cacheInstall (if act && d.sparse then coarseHome m4 p idx true else m4) p idx
        journalFirst m5 idx (ownRec m5 idx) (.adopted p.val idx src d.pol)

/-- Takeover of every image journaled since the peer was last heard from again (R113). -/
def takeover (m : Mod) (src : Nat) : Mod :=
  let sh := ((m.peers.get src).map Peer.shadow).getD []
  (sh.filter (fun e => e.2.cur)).foldl (fun m e => adoptOne m src e.1 e.2) m

/-- A peer declared failed: its imports here are discarded, replicas to it fail, and its shadow sessions are adopted
(R103, R113, R298). -/
def declareFailed (m : Mod) (src : Nat) : Mod :=
  let m1 := { m with peers := m.peers.upd src (fun x => { x with failed := true }) }
  let m2 := (List.range 16).foldl (fun m i =>
    let p := pn i
    let ims := m.pol[p].imports.filter (fun x => x.srcMod == src)
    ims.foldl (fun m x => discardImport m p x.sid (rSt stPhaseLost) none) m) m1
  takeover m2 src

/-- Silence of PEER_DEAD_MS from an expected peer (R113). -/
def silentSince (pr : Peer) : Option Nat :=
  pr.expectSince.map (fun e => max e (pr.lastFrame.getD 0))

def peerFailure (m0 : Mod) (src t : Nat) : Mod :=
  let m := tickHvl m0 t
  match m.peers.get src with
  | none => m
  | some pr =>
    match silentSince pr with
    | none => m
    | some s => if !pr.failed && decide (s + msNs m.own.peerDeadMs ≤ m.hvl) then declareFailed m src else m

/-- A received NOTICE from a module of the discovery table declares it failed at once (R113, R472). -/
def recvNotice (m : Mod) (src kind serial : Nat) : Mod :=
  match m.peers.get src with
  | none => m
  | some pr =>
    if pr.serial == some serial && decide (1 ≤ kind) && decide (kind ≤ 3) && !pr.failed && pr.expectSince.isSome then
      declareFailed { m with peers := m.peers.upd src (fun x => { x with noticed := true }) } src
    else m

/-- TOKENS and STEP of a session by its own KV map (R93). -/
def ownPosition (s : Sess) : Nat × Nat :=
  let lg0 := s.kv.filter (fun e => e.1 % max 1 s.geo.lgs == 0 && decide (0 < e.2.fill))
  lg0.foldl (fun acc e => if acc.1 < e.2.firstPos + e.2.fill then (e.2.firstPos + e.2.fill, e.2.commitStep) else acc) (0, 0)

/-- FAMILY_REFS counted anew: the members whose FAMILY names the entry, the root among them while it lives (R93). -/
def countFamily (m : Mod) (idx : Nat) (d : Desc) : Nat :=
  let others := (m.dir.filter (fun e => famRoot e.2 e.1 == idx && e.1 != idx && e.2.own != .none)).length
  if others == 0 && d.famRefs == 0 then 0 else others + (if d.life == .husk || d.own == .relinquished then 0 else 1)

/-- A directory entry fetched from the buddy is reconciled with the session's own state and serves again (R93). -/
def dirRefetch (m : Mod) (idx : Nat) (d : Desc) : Mod :=
  if !m.refetch.contains idx then m
  else
    let p := pn d.pol
    let m0 := minc { m with refetch := m.refetch.filter (fun i => i != idx) } Ctr.dirRefetch 1
    let m1 := { m0 with dir := m0.dir.put idx d }
    let refs := countFamily m1 idx d
    match m1.pol[p].sess.get idx with
    | none =>
      if d.own == .relinquished || (adoptedLoad m1.pol[p] idx).isSome then
        modDesc m1 idx (fun d => { d with famRefs := refs, life := if d.life == .active then .parked else d.life })
      else freeGone m1 p idx d
    | some s =>
      if d.life == .husk && refs == 0 && d.own == .owned then freeGone (releasePages m1 p (sessPages m1.pol[p] idx)) p idx d
      else
        let pos := ownPosition s
        let ref := ((m1.pol[p].ck.store.cks.reverse.find? (fun c => c.sid == d.sid)).map Ck.seq).getD 0
        modDesc m1 idx (fun d => { d with
          life := if d.life == .active then .parked else d.life
          tokens := if pos.1 == 0 then d.tokens else pos.1
          step := if pos.1 == 0 then d.step else pos.2
          ckptRef := ref, famRefs := refs })

/-- A session whose state root or KV map cannot be read does not revive (R93, R391); one that a takeover has still to load does (R114). -/
def rootLost (q : Polder) (idx : Nat) : Bool :=
  q.pages.any (fun e => e.2.st == .lost && (match e.2.owner with
    | .sess i .root => i == idx
    | .sess i .kvMap => i == idx
    | _ => false)) || (!q.sess.has idx && (adoptedLoad q idx).isNone)

/-- A revived session: ACTIVE, copies down cancelled, what a takeover left is loaded, and the pump streams the pages; it completes without waiting
(R64, R97). -/
def reviveNow (m : Mod) (p : Fin 16) (idx tag : Nat) (d : Desc) : Mod :=
  let m1 := adoptLoad (changeDesc m idx (fun d => { d with life := .active })) p idx
  let m2 := (sessPages m1.pol[p] idx).foldl (fun m n => cancelDemotion m p n) m1
  let waiting := ((adoptedLoad m2.pol[p] idx).map (fun r => r.left.length)).getD 0
  let n := (inToe m2.pol[p] (streamOrder m2.pol[p] idx)).length + waiting
  let m3 := modSess m2 p idx (fun s => { s with reviving := true })
  let m4 := if d.sparse then coarseHome m3 p idx true else m3
  complete (pump m4 p idx) p tag (rSess (handleOf idx p.val d.gen) d.epoch n)

/-- SESS_REVIVE (R64, R93, R97). -/
def sessRevive (m : Mod) (p : Fin 16) (tag : Nat) : Mod := ringRow m p tag 0x12 (fun t m =>
  onSession m p t (fun m idx d =>
    if d.life == .active then complete m p tag (rSess (handleOf idx p.val d.gen) d.epoch 0)
    else if rootLost m.pol[p] idx then complete m p tag (rSt stTierLost)
    else if pumpFenced m p && (sessPages m.pol[p] idx).any (fun n => match getPage m p n with
        | some g => g.tier == .berm || g.tier == .toe
        | none => false) then complete m p tag (rSt stFenced)
    else reviveNow (setJob m idx t.job) p idx tag d))

/-- A revival paused on QUOTA resumes when a frame has freed (R64); so does a takeover's load. -/
def revivalResume (m0 : Mod) (p : Fin 16) (idx : Nat) : Mod :=
  let m := adoptLoad m0 p idx
  match m.pol[p].sess.get idx with
  | none => m
  | some s => if s.reviving && s.revPaused then pump m p idx else m

end Sys2Proof.Machine
end

