-- ==== Sys2Proof/Machine/Ckpt.lean ====
section
/-! DEFINITION. The checkpoint commands and events (R292 to R306): begin, copy, commit, replicas, drop, restore. -/

namespace Sys2Proof.Machine

/-- Engine operations of a polder's share (Table 01-3). -/
def opsShare (m : Mod) : Nat := 1024 / profilePolders m

/-- CKPT_BEGIN takes effect at the step boundary (Table 09-6 step 1). -/
def ckBeginNow (m : Mod) (p : Fin 16) (idx tag : Nat) : Mod :=
  match findTaken m.pol[p] tag, desc? m idx with
  | some t, some d =>
    let e := t.entry
    if ckBusy m.pol[p] d.sid then complete m p tag (rSt stBusy)
    else if !ckRoom m.pol[p] || decide (opsShare m ≤ m.pol[p].ops) then complete m p tag (rSt stRetry)
    else
      let m1 := modPol m p (fun q => { q with ops := q.ops + 1 })
      let host := if flg e 28 2 then some (fld e 32 0 64, fld e 40 0 64) else none
      let m2 := ckStart m1 p idx (some tag) (flg e 28 0) (flg e 28 1) (flg e 28 3) true host
      if ckBusy m2.pol[p] d.sid then m2 else modPol m2 p (fun q => { q with ops := m.pol[p].ops })
  | _, _ => m

/-- The checks of CKPT_BEGIN that need no step boundary (R294). -/
def ckBeginGo (m : Mod) (p : Fin 16) (t : Taken) : Mod :=
  let e := t.entry
  match resolve m p e with
  | .error r => turnedAway m p t r
  | .ok (idx, d) =>
    let m := cacheUse m p idx
    if d.own == .importing || d.own == .restoring then complete m p t.tag (rSt stBusy)
    else if d.life != .active && d.life != .parked then complete m p t.tag rBadNone
    else if flg e 28 2 && m.pol[p].sealed then complete m p t.tag (rBad 28)
    else if flg e 28 2 && fld e 32 0 6 != 0 then complete m p t.tag (rBad 32)
    else if ckBusy m.pol[p] d.sid then complete m p t.tag (rSt stBusy)
    else if m.pol[p].sec.locked then complete m p t.tag (rSt stTierLost)
    else if !m.pol[p].ck.store.rebuilt && !flg e 28 2 then complete m p t.tag (rSt stRetry)
    else atBoundary m p idx t.tag .ckpt (fun m => ckBeginNow m p idx t.tag)

/-- CKPT_BEGIN without HOST. -/
def ckptBegin (m : Mod) (p : Fin 16) (tag : Nat) : Mod :=
  ringRowIf m p tag 0x60 (fun e => !flg e 28 2) (fun t m => ckBeginGo m p t)

/-- CKPT_BEGIN with HOST: an export. -/
def ckptExport (m : Mod) (p : Fin 16) (tag : Nat) : Mod :=
  ringRowIf m p tag 0x60 (fun e => flg e 28 2) (fun t m => ckBeginGo m p t)

/-- The result of CKPT_COMMIT (Table 09-4). -/
def ckCommitRes (j : CkJob) : Res :=
  let ok := (j.repl.filter (fun r => r.st == .done)).length
  let bad := (j.repl.filter (fun r => r.st == .failed)).length
  { rOk (j.ck.seq % 2 ^ 32 + at8 4 (cdiv j.newBytes 1024 % 2 ^ 32) + at8 8 (j.ck.epoch % 2 ^ 32) + at8 12 (ok + 256 * bad)) with
    status := if bad == 0 then stOk else stPartial }

/-- A checkpoint whose local and replica commits are settled answers its commands (R295 step 8, R298). -/
def ckFinish (m : Mod) (p : Fin 16) (sid : Nat) : Mod :=
  match ckJobOf m.pol[p] sid with
  | none => m
  | some j =>
    if ckOpen j then m
    else
      let m1 := match j.begin with
        | some t => complete m p t { ckBeginRes j with status := (ckCommitRes j).status }
        | none => m
      let m2 := match j.commit with
        | some t => complete m1 p t (ckCommitRes j)
        | none => m1
      if j.auto || j.commit.isSome || j.begin.isSome then
        modCk m2 p (fun c => { c with jobs := c.jobs.filter (fun x => x.ck.sid != sid) })
      else m2

def ckptCommit (m : Mod) (p : Fin 16) (tag : Nat) : Mod := ringRow m p tag 0x61 (fun t m =>
  match resolve m p t.entry with
  | .error r => turnedAway m p t r
  | .ok (idx, d) =>
    let m := cacheUse m p idx
    if d.own == .importing || d.own == .restoring then complete m p tag (rSt stBusy)
    else if d.life != .active && d.life != .parked then complete m p tag rBadNone
    else match ckJobOf m.pol[p] d.sid with
      | none => complete m p tag (rBad 28)
      | some j =>
        if j.ck.seq != fld t.entry 28 0 32 || j.commit.isSome || j.host.isSome then complete m p tag (rBad 28)
        else ckFinish (modJob m p d.sid (fun j => { j with commit := some tag })) p d.sid)

/-- The distinct digests of a checkpoint in batches of 2,048 (Table 16-6). -/
def ckDigests (c : Ck) : List Nat := dedup (c.recs.map CkRec.digest)
def ckBatches (c : Ck) : List (List Nat) := let d := ckDigests c; chunks 2048 (d.length / 2048 + 1) d

/-- A replica target's progress set. -/
def modRepl (m : Mod) (p : Fin 16) (sid mod pol : Nat) (f : ReplJob → ReplJob) : Mod :=
  modJob m p sid (fun j => { j with repl := updWhere j.repl (fun r => r.mod == mod && r.pol == pol) f })

/-- A replica that failed (R298). -/
def replFail (m : Mod) (p : Fin 16) (sid mod pol : Nat) : Mod :=
  ckFinish (pinc (modRepl m p sid mod pol (fun r => { r with st := .failed })) p Ctr.replFailed 1) p sid

/-- A batch of a checkpoint's digests is offered to a target (R297). -/
def replBatch (m : Mod) (p : Fin 16) (j : CkJob) (r : ReplJob) (n : Nat) : Mod :=
  send (modRepl m p j.ck.sid r.mod r.pol (fun r => { r with st := .offered, batch := n })) r.mod r.pol p.val
    (.replDigests j.ck.sid j.ck.epoch j.ck.seq (((ckBatches j.ck)[n]?).getD []))

/-- The local commit stands: replica targets are offered the digests (Table 09-6 step 7, R375). -/
def replOffer (m : Mod) (p : Fin 16) (j : CkJob) : Mod :=
  j.repl.foldl (fun m r =>
    if peerFailed m r.mod || (j.ck.sealed && !(tkOf m p r.mod r.pol).live) then replFail m p j.ck.sid r.mod r.pol
    else
      replBatch m p j r 0) m

/-- Checkpoints beyond RETAIN dropped after a local commit (R301). -/
def ckRetain (m : Mod) (p : Fin 16) (sid : Nat) : Mod :=
  modCk m p (fun c =>
    let keep := retained c.store sid c.conf.retain
    { c with store := removeCks c.store (c.store.cks.filter (fun x => x.sid == sid && !keep.contains x)) })

/-- A checkpoint that has committed locally: its counters, CKPT_REF, RETAIN, and the offer to its replica targets (Table 09-6 steps 5 to 7). -/
def ckCommitted (m1 : Mod) (p : Fin 16) (sid : Nat) (j : CkJob) (new : Nat) : Mod :=
  let total := (j.ck.recs.map CkRec.bytes).sum
  let m2 := pinc (pinc (pinc (pincIf m1 p j.ck.base Ctr.ckptBases) p Ctr.ckptCommitted 1) p Ctr.ckptChunkBytes new)
    p Ctr.ckptDedupBytes (total - new)
  let m3 := ckOpEnd (modJob m2 p sid (fun j => { j with localDone := true, copied := true, copying := [], newBytes := new, engine := false })) p j
  let m4 := match findSid m3 p.val sid with
    | some (i, _) => changeDesc m3 i (fun d => { d with ckptRef := j.ck.seq })
    | none => m3
  let m5 := ckRetain m4 p sid
  let m6 := storeGauge ((fitStore m5 p).toOption.getD m5) p
  ckFinish (replOffer m6 p j) p sid

/-- CKPT_COPY_DONE: every chunk and record of a checkpoint is acknowledged, and it commits locally (Table 09-6 step 6), or an export's stream
is written (R306). A LOST page of the copy set or a refused frame abandons it (R298). -/
def ckCopyDone (m : Mod) (p : Fin 16) (sid : Nat) : Mod :=
  match ckJobOf m.pol[p] sid with
  | none => m
  | some j =>
    if j.localDone || !j.beginAcked then m
    else if j.lost then ckAbandon m p sid (rSt stTierLost)
    else match j.refused with
      | some t => ckAbandon m p sid (rQuota t)
      | none =>
        if !j.units.isEmpty then m
        else
          let m0 := toeReads (pinc m p Ctr.ckptReadBytes j.readBytes) p (j.copying.map (·.1))
          match j.host with
          | some (addr, _) =>
            let img := streamImage (selfId m) p.val { j.ck with hosted := true }
            let m1 := hostServe (emit m0 (.host addr img.length (ofBytes img))) p img.length
            let m2 := ckOpEnd (modJob m1 p sid (fun j => { j with localDone := true, copying := [], engine := false })) p j
            ckFinish (modJob m2 p sid (fun j => { j with auto := true })) p sid
          | none =>
            let m1 := modCk m0 p (fun c => { c with store := { c.store with
              cks := c.store.cks ++ [j.ck]
              begins := c.store.begins.filter (fun b => b.1 != sid || decide (j.ck.seq ≤ b.2.1)) } })
            ckCommitted m1 p sid j j.newBytes

/-- The job and target a replica message of a peer polder concerns. -/
def replJobOf (q : Polder) (mod pol : Nat) (st : ReplState) : Option (CkJob × ReplJob) :=
  q.ck.jobs.findSome? (fun j => (j.repl.find? (fun r => r.mod == mod && r.pol == pol && r.st == st)).map (fun r => (j, r)))

/-- The bulk lane to a peer has nothing unacknowledged: a target whose chunks have arrived is offered the next batch, then it gets the records,
then the commit record (R297). -/
def replAcked (m : Mod) (src : Nat) : Mod :=
  let l := laneOf m (laneKey src 1)
  if !(l.unacked.isEmpty && l.queue.isEmpty) then m
  else (List.range 16).foldl (fun m i =>
    let p := pn i
    m.pol[p].ck.jobs.foldl (fun m j =>
      (j.repl.filter (fun r => r.mod == src && r.st == .shipping)).foldl (fun m r =>
        let n := (ckBatches j.ck).length
        if r.batch + 1 < n then replBatch m p j r (r.batch + 1)
        else if r.batch + 1 == n then
          (chunks 1024 (j.ck.recs.length / 1024 + 1) j.ck.recs).foldl (fun m rs =>
            send m r.mod r.pol p.val (.replRecords j.ck.sid j.ck.epoch j.ck.seq rs))
            (modRepl m p j.ck.sid r.mod r.pol (fun r => { r with batch := n }))
        else send (modRepl m p j.ck.sid r.mod r.pol (fun r => { r with st := .committing })) r.mod r.pol p.val (.replCommit j.ck)) m) m) m

/-- A received REPL_LACKS over the batch offered last: only the lacking chunks are shipped (R297). -/
def recvReplLacks (m : Mod) (src srcPol : Nat) (p : Fin 16) (bits : List Bool) : Mod :=
  match (match replJobOf m.pol[p] src srcPol .offered with
    | some x => some x
    | none => replJobOf m.pol[p] src srcPol .shipping) with
  | none => m
  | some (j, r) =>
    let bs := ckBatches j.ck
    let ds := ((((bs[min r.batch (bs.length - 1)]?).getD []).zip bits).filter (fun x => x.2)).map (fun x => x.1)
    let m1 := ds.foldl (fun m d =>
      match j.ck.recs.find? (fun x => x.digest == d) with
      | some x => send (readChunks (pinc m p Ctr.replShippedBytes x.bytes) p [d]) src srcPol p.val (.replChunk d x.bytes x.pay)
      | none => m) m
    replAcked (modRepl m1 p j.ck.sid src srcPol (fun r => { r with st := .shipping })) src

/-- A received REPL_ACK (R298). -/
def recvReplAck (m : Mod) (src srcPol : Nat) (p : Fin 16) (sid epoch seq : Nat) (failed : Bool) : Mod :=
  match ckJobOf m.pol[p] sid with
  | none => m
  | some j =>
    if j.ck.epoch != epoch || j.ck.seq != seq || !j.repl.any (fun r => r.mod == src && r.pol == srcPol) then m
    else if failed then replFail m p sid src srcPol
    else ckFinish (pinc (modRepl m p sid src srcPol (fun r => { r with st := .done })) p Ctr.replCommitted 1) p sid

/-- Replicas to a peer declared failed fail (R298). -/
def replPeerFail (m : Mod) (src : Nat) : Mod :=
  (List.range 16).foldl (fun m i =>
    let p := pn i
    m.pol[p].ck.jobs.foldl (fun m j =>
      (j.repl.filter (fun r => r.mod == src && r.st != .done && r.st != .failed && r.st != .waiting)).foldl (fun m r =>
        replFail m p j.ck.sid r.mod r.pol) m) m) m

-- The target's side.

/-- The key of the replica store a target keeps for a source polder. -/
def replKey (src srcPol : Nat) : Nat := 16 * src + srcPol % 16
def replStore (q : Polder) (key : Nat) : CkStore := (q.ck.repl.get key).getD ckStoreEmpty
def putReplStore (m : Mod) (p : Fin 16) (key : Nat) (st : CkStore) : Mod := modCk m p (fun c => { c with repl := c.repl.put key st })

/-- The records and unreferenced chunks of an uncommitted replica reclaimed (R299). -/
def replReclaimOne (m : Mod) (p : Fin 16) (x : ReplIn) : Mod :=
  let st := dropChunks (replStore m.pol[p] x.src) x.recs
  let kept (d : Nat) : Bool := m.pol[p].ck.ins.any (fun y => y.src == x.src && y != x && y.held.contains d)
  let st1 := { st with chunks := st.chunks.filter (fun c => !(c.refs == 0 && x.held.contains c.digest && !kept c.digest)) }
  modCk (putReplStore m p x.src st1) p (fun c => { c with ins := c.ins.filter (fun y => y != x) })

/-- A replica that cannot be taken: it is reclaimed and answered as failed. -/
def replRefuse (m : Mod) (p : Fin 16) (src srcPol : Nat) (x : ReplIn) : Mod :=
  send (replReclaimOne m p x) src srcPol p.val (.replAck x.sid x.epoch x.seq true)

/-- A received REPL_DIGESTS is answered with those the store lacks (R297). -/
def recvReplDigests (m : Mod) (src srcPol : Nat) (p : Fin 16) (sid epoch seq : Nat) (ds : List Nat) : Mod :=
  let key := replKey src srcPol
  let st := replStore m.pol[p] key
  if !m.pol[p].composed || !st.rebuilt then send m src srcPol p.val (.replAck sid epoch seq true)
  else
    let is (x : ReplIn) : Bool := x.src == key && x.sid == sid && x.epoch == epoch && x.seq == seq
    let m1 := if m.pol[p].ck.ins.any is then
        modCk m p (fun c => { c with ins := updWhere c.ins is (fun x => { x with digests := ds, held := x.held ++ ds, last := m.pol[p].clk }) })
      else
        let x : ReplIn := { src := key, sid := sid, epoch := epoch, seq := seq, digests := ds, held := ds, recs := [], last := m.pol[p].clk,
                            retries := [], failed := false, commit := none }
        modCk m p (fun c => { c with ins := c.ins ++ [x] })
    send (putReplStore m1 p key st) src srcPol p.val (.replLacks (ds.map (fun d => !st.chunks.any (fun c => c.digest == d))))

/-- A received chunk is digest-checked and stored, or asked for again up to three times (R297). -/
def recvReplChunk (m : Mod) (src srcPol : Nat) (p : Fin 16) (digest bytes : Nat) (pay : CkPay) : Mod :=
  let key := replKey src srcPol
  match (m.pol[p].ck.ins.filter (fun x => x.src == key)).getLast? with
  | none => m
  | some x =>
    if payDigest pay != digest then
      let n := ((x.retries.find? (fun r => r.1 == digest)).map (fun r => r.2)).getD 0
      if 3 ≤ n then replRefuse m p src srcPol x
      else send (modCk m p (fun c => { c with ins := updWhere c.ins (fun y => y == x) (fun y => { y with
          retries := (digest, n + 1) :: y.retries.filter (fun r => r.1 != digest) }) })) src srcPol p.val
        (.replLacks (x.digests.map (fun d => d == digest)))
    else
      let st := replStore m.pol[p] key
      let st1 := if st.chunks.any (fun c => c.digest == digest) then st else
        { st with chunks := st.chunks ++ [{ digest := digest, pay := pay, bytes := bytes, refs := 0 }] }
      let m1 := putReplStore (modCk m p (fun c => { c with
        ins := updWhere c.ins (fun y => y == x) (fun y => { y with last := m.pol[p].clk }) })) p key st1
      match writeStore m1 p with
      | .ok (_, m2) => storeGauge m2 p
      | .error t => replRefuse (pinc m p (Ctr.quotaRefused t) 1) p src srcPol x

/-- Received checkpoint records are stored in the replica store (R297). -/
def recvReplRecords (m : Mod) (src srcPol : Nat) (p : Fin 16) (sid epoch seq : Nat) (rs : List CkRec) : Mod :=
  let key := replKey src srcPol
  match m.pol[p].ck.ins.find? (fun x => x.src == key && x.sid == sid && x.epoch == epoch && x.seq == seq) with
  | none => m
  | some x =>
    let st := replStore m.pol[p] key
    if !rs.all (fun r => st.chunks.any (fun c => c.digest == r.digest)) then replRefuse m p src srcPol x
    else
      let (_, st1) := addChunks st rs
      let m1 := putReplStore (modCk m p (fun c => { c with
        ins := updWhere c.ins (fun y => y == x) (fun y => { y with recs := y.recs ++ rs, last := m.pol[p].clk }) })) p key st1
      match writeStore m1 p with
      | .ok (_, m2) => storeGauge m2 p
      | .error t => replRefuse (pinc m p (Ctr.quotaRefused t) 1) p src srcPol x

/-- A replica whose chunks, records and commit record are acknowledged commits, and older uncommitted ones of the session are reclaimed
(R297, R299). -/
def replCommitted (m : Mod) (p : Fin 16) (x : ReplIn) (c : Ck) : Mod :=
  let m1 := modCk (putReplStore m p x.src (let st := replStore m.pol[p] x.src; { st with cks := st.cks ++ [{ c with recs := x.recs }] })) p
    (fun k => { k with ins := k.ins.filter (fun y => y != x) })
  let old := m1.pol[p].ck.ins.filter (fun y => y.src == x.src && y.sid == c.sid)
  send (storeGauge (old.foldl (fun m y => replReclaimOne m p y) m1) p) (x.src / 16) (x.src % 16) p.val (.replAck c.sid c.epoch c.seq false)

/-- Replicas whose commit record has arrived commit once the store is acknowledged (R297). -/
def replCommits (m : Mod) (p : Fin 16) : Mod :=
  if !storeAcked m p then m
  else m.pol[p].ck.ins.foldl (fun m x => match x.commit with
    | some c => if m.pol[p].ck.ins.contains x then replCommitted m p x c else m
    | none => m) m

/-- A received commit record is written to the replica store, and commits the checkpoint there (R297). -/
def recvReplCommit (m : Mod) (src srcPol : Nat) (p : Fin 16) (c : Ck) : Mod :=
  let key := replKey src srcPol
  match m.pol[p].ck.ins.find? (fun x => x.src == key && x.sid == c.sid && x.epoch == c.epoch && x.seq == c.seq) with
  | none => send m src srcPol p.val (.replAck c.sid c.epoch c.seq true)
  | some x =>
    if recsDigest x.sid x.epoch x.seq x.recs != c.recsDigest then replRefuse m p src srcPol x
    else
      let m1 := modCk m p (fun k => { k with ins := updWhere k.ins (fun y => y == x) (fun y => { y with commit := some c }) })
      match writeStore m1 p with
      | .error t => replRefuse (pinc m p (Ctr.quotaRefused t) 1) p src srcPol x
      | .ok (_, m2) => replCommits m2 p

/-- A Toe unit is acknowledged: checkpoints of the polder that await it go on once they await none (Table 09-6). -/
def ckUnitAcked (m : Mod) (p : Fin 16) (u : Nat) : Mod :=
  let m1 := modCk m p (fun c => { c with jobs := c.jobs.map (fun j => { j with units := j.units.filter (fun k => k != u) }) })
  let m2 := (m1.pol[p].ck.jobs.filter (fun j => !j.beginAcked && j.units.isEmpty)).foldl (fun m j => ckBegun m p j) m1
  replCommits m2 p

/-- An uncommitted replica with no record for 600 s is reclaimed (R299). -/
def replicaReclaim (m0 : Mod) (p : Fin 16) (t : Nat) : Mod :=
  let m := tickPol m0 p t
  (m.pol[p].ck.ins.filter (fun x => decide (x.last + 600 * 1000000000 ≤ m.pol[p].clk))).foldl (fun m x => replReclaimOne m p x) m

-- Drop and restore.

/-- The checkpoints of a chain a restore reads. -/
def restoreReads (q : Polder) (c : Ck) : Bool :=
  q.ck.restores.any (fun r => (!r.loaded || !r.left.isEmpty) && r.ck.sid == c.sid && decide (c.seq ≤ r.ck.seq))

/-- CKPT_REF after its checkpoint is dropped: the nearest remaining ancestor, or 0 (R301). -/
def refAfter (st : CkStore) (gone : List Ck) (ref : Nat) (sid : Nat) : Nat :=
  match (st.cks.reverse).find? (fun c => c.sid == sid && c.seq == ref) with
  | none => ref
  | some c =>
    if !gone.contains c then ref
    else ((((chain st c).getD [c]).reverse.find? (fun x => !gone.contains x)).map Ck.seq).getD 0

/-- CKPT_DROP (R299, R301). -/
def ckptDrop (m : Mod) (p : Fin 16) (tag : Nat) : Mod := ringRow m p tag 0x63 (fun t m =>
  let e := t.entry
  let sid := fld e 16 0 64
  let ep := fld e 24 0 32
  let seq := fld e 28 0 32
  let all := flg e 32 0
  let repl := flg e 32 1
  let key := replKey (fld e 34 0 12) (fld e 34 12 4)
  let st := if repl then replStore m.pol[p] key else m.pol[p].ck.store
  let done (m : Mod) (freed n : Nat) : Mod := complete m p tag (rOk (at8 4 (freed / 1024 % 2 ^ 32) + at8 12 (n % 2 ^ 32)))
  let inProg := if repl then none else (ckJobOf m.pol[p] sid).filter (fun j => !j.localDone && (all || (j.ck.epoch == ep && j.ck.seq == seq)))
  let named := if all then st.cks.filter (fun c => c.sid == sid) else
    ((findCk st sid ep seq).map (fun c => descendants st (st.cks.length + 1) [c])).getD []
  if !st.rebuilt then complete m p tag (rSt stRetry)
  else if named.any (fun c => restoreReads m.pol[p] c) then complete m p tag (rSt stBusy)
  else if named.isEmpty && inProg.isNone then complete m p tag (rBad 16)
  else
    let m1 := if inProg.isSome then ckAbandon m p sid (rSt stAborted) else m
    let st1 := removeCks st named
    let freed := chunkBytes st - chunkBytes st1
    let m2 := if repl then putReplStore m1 p key st1 else modCk m1 p (fun c => { c with store := st1 })
    let m3 := if repl then m2 else
      match findSid m2 p.val sid with
      | some (i, d) => let r := refAfter st named d.ckptRef sid
                       if r == d.ckptRef then m2 else changeDesc m2 i (fun d => { d with ckptRef := r })
      | none => m2
    done (storeGauge ((fitStore m3 p).toOption.getD m3) p) freed (named.length + b2n inProg.isSome))

/-- The store a restore names, and its checkpoint (R302). -/
def restoreSource (m : Mod) (p : Fin 16) (t : Taken) (sid : Nat) (stream : Block) : Except Res (Ck × List CkRec) :=
  let e := t.entry
  let src := fld e 36 0 2
  let key := replKey (fld e 48 0 12) (fld e 48 12 4)
  let pick (st : CkStore) : Except Res (Ck × List CkRec) :=
    if m.pol[p].sec.locked then .error (rSt stTierLost)
    else if !st.rebuilt then .error (rSt stRetry)
    else
      let seq := fld e 28 0 32
      let c := if seq == 0 then (st.cks.reverse).find? (fun c => c.sid == sid) else findCk st sid (fld e 32 0 32) seq
      match c with
      | none => .error (rBad 28)
      | some c =>
        match chain st c with
        | none => .error (rSt stTierLost)
        | some l => if l.all (fun x => recsDigest x.sid x.epoch x.seq x.recs == x.recsDigest) then .ok (c, assemble l) else .error (rSt stTierLost)
  match src with
  | 0 => pick m.pol[p].ck.store
  | 1 => pick (replStore m.pol[p] key)
  | 2 =>
    match m.pol[p].slots.get (fld e 37 0 8) with
    | none => .error (rBad 37)
    | some sl => match (bulkIn m.pol[p] p.val (fld e 40 0 64) t stream).bind (streamCk sl.man.main) with
      | none => .error (rBad 40)
      | some c => if !c.base || c.sid != sid then .error (rBad 40) else .ok (c, c.recs)
  | _ => .error (rBad 36)

/-- The geometry checks of R302 against the slot's manifest. -/
def restoreFits (g : Prog) (c : Ck) : Bool :=
  let geo := geoOf g
  let attr := ((g.layer.find? (fun k => k.op == 3)).map Kernel.attr).getD 0
  c.modelDigest == g.digest && c.layers == geo.layers && c.groups == geo.groups && c.w == geo.w && c.fmt == geo.fmt &&
  c.headDim == attr % 4

/-- The modules a restore asserts T to: the owner that the checkpoint names, and the buddy where the module held no descriptor, or where the
owner is declared failed (Table 03-9, R304, R392). The buddy of another module is not known here: this module's own stands for it (log entry 66). -/
def restoreAsks (m : Mod) (c : Ck) (created : Bool) : List Nat :=
  let other := c.ownerMod != selfId m
  let bud := if created || (other && peerFailed m c.ownerMod) then m.jr.buddy.toList else []
  dedup ((if other then [c.ownerMod] else []) ++ bud)

/-- Step 1 of a restore (Table 09-7): the prior state is kept aside, T is asserted. -/
def restoreStart (m : Mod) (p : Fin 16) (tag idx : Nat) (created : Bool) (prior : Desc) (c : Ck) (recs : List CkRec)
    (tEp slot : Nat) (parked : Bool) : Mod :=
  let asks := restoreAsks m c created
  let m1 := ckAbandon (endSessReqs m p idx stAborted 5) p c.sid (rSt stAborted)
  let m2 := changeDesc m1 idx (fun d => { d with
    own := .restoring, pend := tEp, peerMod := c.ownerMod, peerPol := c.ownerPol
    lease := leaseAt m.pol[p].clk m.own.leaseMs })
  let r : Restore := { tag := tag, idx := idx, created := created, prior := prior, ck := c, recs := recs, parked := parked,
                       slot := slot, asked := asks, owned := false, loaded := false, left := [], adopted := none, replay := [] }
  let m3 := modCk (cacheInstall m2 p idx) p (fun k => { k with restores := k.restores.filter (fun r => r.idx != idx) ++ [r] })
  let m4 := asks.foldl (fun m a =>
    if peerFailed m a then { m with peers := m.peers.upd a (fun x => { x with asserts := x.asserts ++ [(c.ownerPol, c.sid, tEp)] }) }
    else sendOwn m a c.ownerPol p.val .assert c.sid tEp) m3
  if asks.isEmpty then restoreOwn m4 p idx else m4

/-- A CKPT_RESTORE at its session's step boundary: R302 and R303 (the epoch check of R106 has passed). -/
def restoreNow (m : Mod) (p : Fin 16) (t : Taken) (stream : Block) (found : Option (Nat × Desc)) (sid : Nat) : Mod :=
  let e := t.entry
  let slot := fld e 37 0 8
  match restoreSource m p t sid stream with
  | .error r => complete m p t.tag r
  | .ok (c, recs) =>
    let q := m.pol[p]
    match q.slots.get slot with
    | none => complete m p t.tag (rBad 37)
    | some sl =>
      let tEp := max (max c.epoch (fld e 24 0 32)) ((found.map (fun f => f.2.epoch)).getD 0) + 1
      if !restoreFits sl.man.main c then complete m p t.tag (rBad 37)
      else if (c.cls == .lc && c.sparse) || (q.sealed && (c.sparse || slot != 0)) then complete m p t.tag (rBad 37)
      else if c.sealed && !(q.sealed && (c.ownerMod == selfId m && c.ownerPol == p.val || (tkOf m p c.ownerMod c.ownerPol).live)) then
        complete m p t.tag rBadNone
      else if modeMax c.sparse < c.tokens then complete m p t.tag (rSt stCtxLimit)
      else if 2 ^ 32 ≤ tEp then complete m p t.tag (rBad 24)
      else if !kvComplete c.layers c.groups c.fmt c.tokens recs then complete m p t.tag (rSt stTierLost)
      else match found with
        | some (idx, d) => restoreStart m p t.tag idx false d c recs tEp slot (flg e 36 3)
        | none =>
          if dirShare m ≤ liveEntries m p.val then complete m p t.tag (rQuota 3)
          else match takeEntry m (fun i => { Desc.blank 0 with
              life := .parked, own := .restoring, cls := c.cls, sparse := c.sparse, sealed := q.sealed, pol := p.val, slot := slot
              sid := sid, ctxMax := c.ctxMax, fam := i, job := t.job }) with
            | none => complete m p t.tag (rQuota 3)
            | some (idx, m1) => restoreStart m1 p t.tag idx true (Desc.blank 0) c recs tEp slot (flg e 36 3)

/-- A CKPT_RESTORE that waited for the step boundary. -/
def restoreWaited (m : Mod) (p : Fin 16) (idx tag : Nat) : Mod :=
  let st := ((m.pol[p].ck.streams.find? (fun x => x.1 == tag)).map (fun x => x.2)).getD 0
  let m1 := modCk m p (fun c => { c with streams := c.streams.filter (fun x => x.1 != tag) })
  match findTaken m1.pol[p] tag, desc? m1 idx with
  | some t, some d => restoreNow m1 p t st (some (idx, d)) d.sid
  | _, _ => m1

/-- CKPT_RESTORE (R302): by handle, or by SESSION_ID in this polder. -/
def ckptRestore (m : Mod) (p : Fin 16) (tag : Nat) (stream : Block) : Mod := ringRow m p tag 0x62 (fun t m =>
  let e := t.entry
  let byId := flg e 36 2
  if pumpFenced m p then complete m p tag (rSt stFenced) else
  let go (m : Mod) (idx : Nat) (d : Desc) : Mod :=
    if busyOwn d then complete m p tag (rSt stBusy)
    else if d.life != .active && d.life != .parked then complete m p tag rBadNone
    else atBoundary (modCk (setJob m idx t.job) p (fun c => { c with
        streams := c.streams ++ [(tag, stream)] })) p idx tag .restore
      (fun m => restoreWaited m p idx tag)
  if byId then
    let sid := fld e 16 0 64
    match lookupSid m p sid with
    | .error r => complete m p tag r
    | .ok (some (idx, d)) =>
      if d.own == .relinquished then complete (cacheUse m p idx) p tag (rForward d)
      else if fld e 24 0 32 != 0 && fld e 24 0 32 != d.epoch then complete (cacheUse m p idx) p tag (rSt stStale)
      else go (cacheUse m p idx) idx d
    | .ok none =>
      if (findSidAny m sid).isSome then complete m p tag (rBad 16) else restoreNow m p t stream none sid
  else
    match resolve m p e with
    | .error r => turnedAway m p t r
    | .ok (idx, d) => go (cacheUse m p idx) idx d)

/-- A restore whose session is loaded: LIFE and CKPT_REF are set, CKPT_RESTORE completes and the bodies stream on (Table 09-7
steps 3 to 5, R305). -/
def restoreLoaded (m2 : Mod) (p : Fin 16) (idx : Nat) (r : Restore) (d : Desc) : Mod :=
  let root := ((m2.pol[p].sess.get idx).map (fun s => ssaOf p s.rootPg)).getD 0
  let life := match r.recs.findSome? (fun x => match x.pay with
      | .desc y => some y.life
      | _ => none) with
    | some .active => if r.parked then Life.parked else Life.active
    | _ => Life.parked
  let m3 := changeDesc m2 idx (fun x => { x with
    life := life, cls := r.ck.cls, sparse := r.ck.sparse, slot := r.slot, tokens := r.ck.tokens, step := r.ck.step
    ctxMax := r.ck.ctxMax, ckptRef := r.ck.seq, root := root })
  let bodies := loadOrder m3.pol[p] r.ck.groups r.ck.tokens r.recs
  let m4 := modCk m3 p (fun c => { c with
    restores := updWhere c.restores (fun x => x.idx == idx) (fun x => { x with loaded := true, left := bodies }) })
  let m5 := if r.ck.sparse && life == .active then coarseHome m4 p idx true else m4
  let m6 := complete (pinc m5 p Ctr.ckptRestores 1) p r.tag (rSess (handleOf idx p.val d.gen) d.epoch bodies.length)
  restoreStream m6 p idx

/-- A restore that cannot load ends: an entry it made is freed, one that stood before is OWNED as it was (R305). -/
def restoreFail (m : Mod) (p : Fin 16) (idx : Nat) (r : Restore) (res : Res) : Mod :=
  let m1 := modCk m p (fun c => { c with restores := c.restores.filter (fun x => x.idx != idx) })
  let m2 := if r.created then
      (match desc? m1 idx with
       | some d => journalFree (freeDesc m1 p idx) idx d
       | none => m1)
    else changeDesc m1 idx (fun x => { r.prior with gen := x.gen, epoch := x.epoch, own := .owned, pend := 0 })
  complete m2 p r.tag res

/-- The non-layer chunks are loaded: LIFE and CKPT_REF are set, CKPT_RESTORE completes and the bodies stream on
(Table 09-7 steps 3 to 5, R305). -/
def restoreLoadDone (m : Mod) (p : Fin 16) (idx : Nat) : Mod :=
  match m.pol[p].ck.restores.find? (fun r => r.idx == idx && r.owned && !r.loaded && r.adopted.isNone), desc? m idx with
  | some r, some d =>
    match m.pol[p].slots.get r.slot with
    | none => restoreFail m p idx r (rSt stTierLost)
    | some sl =>
      let old := m.pol[p].sess.get idx
      let oldPages := (sessPages m.pol[p] idx).filter (fun n => !(sharedBodies m.pol[p] idx).contains n)
      match loadSession m p idx r.ck.cls r.ck.sparse sl.man.main r.ck.ctxMax r.ck.tokens (restoreGet m p r) r.recs with
      | .error t => if t == errWait then beginRoom m p else restoreFail (countRefused m p t) p idx r (rQuota t)
      | .ok none => restoreFail m p idx r (rSt stTierLost)
      | .ok (some m1) =>
        let m2 := readChunks m1 p ((r.recs.filter (fun x => x.kind != 5)).map CkRec.digest)
        restoreLoaded (if old.isSome then releasePages m2 p oldPages else m2) p idx r d
  | _, _ => m

end Sys2Proof.Machine
end

