-- ==== Sys2Proof/Machine/Flash.lean ====
section
/-! DEFINITION. The flash translation layer (R69 to R80): reads and their marks, programming and acknowledgement, wear, bad blocks,
relocation, collection, and the rebuild of a fenced channel. -/

namespace Sys2Proof.Machine

/-- A block of a channel the FTL chooses for a unit: any that is not retired; which one is open (log entry 32). -/
def freshBlk (m : Mod) (ch : Nat) : Nat × Mod :=
  let (h, m1) := takeHint m
  match m.ftl.chans.get ch with
  | none => (0, m1)
  | some c => ((freeFrom h (max 1 c.good) (fun b => !(blkOf c b).retired)).getD 0, m1)

/-- STRIPE_ROW_CLOSE (R71): 10 ms after its first unit entered, a row closes and its parity is written. -/
def stripeRowClose (m0 : Mod) (row t : Nat) : Mod :=
  let m := tickHvl m0 t
  match m.ftl.rows.find? (fun r => r.id == row) with
  | none => m
  | some r => if r.closed || r.units.isEmpty || decide (m.hvl < r.start + 10000000) then m else closeRow m r

/-- Units that lie in a block, acknowledged or as the old contents of a rewrite. -/
def blkUnits (f : Ftl) (ch blk : Nat) : List Nat :=
  (f.units.filter (fun e => (e.2.acked && e.2.ch == ch && e.2.blk == blk) ||
    e.2.old.elim false (fun o => o.ch == ch && o.blk == blk))).map (·.1)

/-- The parity unit of a row has its contents from the first acknowledgement on (R71, R72). -/
def programRow (m : Mod) (row : Nat) : Mod :=
  { m with ftl := { m.ftl with rows := updWhere m.ftl.rows (fun r => r.id == row && r.par.isNone) (fun r => { r with par := some (rowParity m r) }) } }

/-- A unit is acknowledged in a block: its old contents are free (R72). -/
def ackUnit (m : Mod) (u blk : Nat) : Mod :=
  match m.ftl.units.get u with
  | none => m
  | some x =>
    let m0 := programRow m x.row
    let m1 := { m0 with ftl := { m0.ftl with units := m0.ftl.units.put u { x with acked := true, blk := blk, old := none } } }
    let m2 := match x.old with
      | none => m1
      | some o => { m1 with ftl := { m1.ftl with rows := (m1.ftl.rows.map (fun r =>
          if r.id == o.row && o.row != x.row then { r with units := r.units.filter (fun k => k != u) } else r)).filter (fun r => !r.units.isEmpty) } }
    modChan m2 x.ch (fun c =>
      let b := blkOf c blk
      putBlk c blk (if b.used then b else { b with since := m.hvl, age := 0, used := true }))

/-- A unit can be acknowledged in a block: its row is closed, no collection holds it, and the channel and the block take writes
(R72, R77, R78, R79). -/
def canAck (m : Mod) (u blk : Nat) : Bool :=
  match m.ftl.units.get u with
  | none => false
  | some x => match m.ftl.chans.get x.ch with
    | none => false
    | some c => !x.acked && (m.ftl.rows.find? (fun r => r.id == x.row)).elim false StripeRow.closed && !c.waiting.contains u &&
        chanOpen m x.ch && !(blkOf c blk).retired

/-- TOE_WRITE_ACK (R72): the unit, its row's parity and the map-log record are programmed. `blk` is the block the FTL chose. -/
def toeWriteAck (m : Mod) (u blk : Nat) : Mod :=
  if canAck m u blk then
    match m.ftl.units.get u with
    | some x => ckUnitAcked (ackUnit m u blk) (pn x.pol) u
    | none => m
  else m

/-- A channel's mean wear as a percentage of rated endurance (R76). -/
def wearPct (c : Chan) : Nat := (c.blks.map (fun e => e.2.pe)).sum * 100 / max 1 (c.good * c.endurance)

/-- Wear crossings counted and the read-only rule applied; what waited to be written on a channel that turns read-only goes to the others
(R76, R78). -/
def judgeWear (m : Mod) (ch : Nat) : Mod :=
  match m.ftl.chans.get ch with
  | none => m
  | some c =>
    let w := wearPct c
    let k := if 100 ≤ w then 3 else if 95 ≤ w then 2 else if 80 ≤ w then 1 else 0
    let ro := c.readOnly || decide (100 ≤ w) || decide (64 * c.spare < c.good)
    let m1 := minc (modChan m ch (fun c => { c with crossed := max c.crossed k, readOnly := ro })) (Ctr.wearEvents ch) (k - c.crossed)
    if ro && !c.readOnly then movePending m1 ch else m1

/-- A block retired after format (R79). -/
def retireBlk (m : Mod) (ch blk : Nat) : Mod :=
  judgeWear (minc (modChan m ch (fun c => { putBlk c blk { blkOf c blk with retired := true } with spare := c.spare - 1 })) (Ctr.grownBad ch) 1) ch

/-- PROGRAM_FAILURE (R79): the block is retired; the unit stays in the write buffer until it is programmed in another block. -/
def programFailure (m : Mod) (u blk : Nat) : Mod :=
  match m.ftl.units.get u with
  | none => m
  | some x => if x.acked then m else match m.ftl.chans.get x.ch with
    | none => m
    | some c => if (blkOf c blk).retired then m else retireBlk m x.ch blk

/-- ERASE_FAILURE (R79). -/
def eraseFailure (m : Mod) (ch blk : Nat) : Mod :=
  match m.ftl.chans.get ch with
  | none => m
  | some c => if (blkOf c blk).retired then m else retireBlk m ch blk

/-- A block's units can go to another block of the channel: it takes writes, and that block is another one and not retired (R74, R78, R79). -/
def canMove (m : Mod) (ch blk dst : Nat) : Bool :=
  match m.ftl.chans.get ch with
  | none => false
  | some c => chanOpen m ch && blk != dst && !(blkOf c blk).retired && !(blkOf c dst).retired

/-- A block's units go to another block of the channel, and the block is erased and free; writes that waited go on (R74, R77). -/
def relocate (m : Mod) (ch blk dst : Nat) : Mod :=
  let us := blkUnits m.ftl ch blk
  let go (x : ToeUnit) : ToeUnit :=
    if x.acked then { x with blk := dst } else { x with old := x.old.map (fun o => if o.ch == ch && o.blk == blk then { o with blk := dst } else o) }
  let m1 := { m with ftl := { m.ftl with units := m.ftl.units.mapKV (fun k x => if us.contains k then go x else x) } }
  let m2 := modChan m1 ch (fun c =>
    let b := blkOf c blk
    let c1 := putBlk c blk { b with reads := 0, pe := b.pe + 1, marked := false, used := false, age := 0 }
    let d := blkOf c1 dst
    let c2 := if us.isEmpty then c1 else putBlk c1 dst (if d.used then d else { d with since := m.hvl, age := 0, used := true })
    { c2 with waiting := if freeBlocks c2 == 0 then c2.waiting else [] })
  judgeWear m2 ch

/-- Powered time since a block's data was programmed, on the HVL counter (R75). -/
def blkAge (m : Mod) (b : FlashBlk) : Nat := b.age + (m.hvl - b.since)

/-- RETENTION_RELOCATE (R75): a block whose data has reached the retention interval of powered time. -/
def retentionRelocate (m0 : Mod) (ch blk dst t : Nat) : Mod :=
  let m := tickHvl m0 t
  match m.ftl.chans.get ch with
  | none => m
  | some c =>
    if !canMove m ch blk dst || (blkUnits m.ftl ch blk).isEmpty ||
       decide (blkAge m (blkOf c blk) < m.ftl.retentionDays * 86400 * 1000000000) then m
    else minc (relocate m ch blk dst) (Ctr.retReloc ch) 1

/-- After a mount the FTL reads every programmed block once; it is free to do so at once (R75, log entry 62). -/
def scanBlocks (m : Mod) (ch : Nat) : Mod :=
  match m.ftl.chans.get ch with
  | none => m
  | some c => (c.blks.filter (fun e => e.2.used && !e.2.retired)).foldl (fun m e =>
      modChan { m with free := m.free + 1 } ch (fun c => { c with blks := c.blks.upd e.1 (fun b => { b with
        reads := b.reads + 1, marked := b.marked || bit (Config.openNat m.free) 0 || decide (m.ftl.rdLimit ≤ b.reads + 1) }) })) m

/-- Blocks in use that hold units, fewest program/erase cycles first, and the spread of cycles over the channel's blocks; a block not listed has none. -/
def coldBlocks (f : Ftl) (ch : Nat) (c : Chan) : List Nat :=
  (sortBy (fun a b => decide (a.2.pe < b.2.pe)) (c.blks.filter (fun e => !e.2.retired && !(blkUnits f ch e.1).isEmpty))).map (·.1)
def peSpread (c : Chan) : Nat :=
  let l := (c.blks.filter (fun e => !e.2.retired)).map (fun e => e.2.pe)
  l.foldl max 0 - (if l.length < c.good then 0 else l.foldl min (l.headD 0))

/-- Static levelling (R76): where the spread is above 5 % of the rated endurance, the units of the coldest block move to block `lvl`. -/
def levelWear (m : Mod) (ch lvl : Nat) : Mod :=
  match m.ftl.chans.get ch with
  | none => m
  | some c => match coldBlocks m.ftl ch c with
    | [] => m
    | b :: _ => if c.endurance == 0 || decide (20 * peSpread c ≤ c.endurance) || !canMove m ch b lvl then m else relocate m ch b lvl

/-- A block of the channel is marked for relocation (R74). -/
def marksLeft (c : Chan) : Bool := c.blks.any (fun e => e.2.marked && !e.2.retired)

/-- GARBAGE_COLLECTION (R74, R76, R77, R79): a block is reclaimed and waiting foreground writes go on; a marked block counts as a
read-disturb relocation and comes before any other, and a suspect one that fails its verify read is retired; wear is levelled. -/
def garbageCollection (m : Mod) (ch blk dst lvl : Nat) (verify : Bool) : Mod :=
  match m.ftl.chans.get ch with
  | none => m
  | some c =>
    let b := blkOf c blk
    if !canMove m ch blk dst || (marksLeft c && !b.marked) then m
    else
      let m1 := relocate m ch blk dst
      let m2 := if b.marked then minc m1 (Ctr.rdReloc ch) 1 else m1
      let m3 := if b.suspect then modChan m2 ch (fun c => putBlk c blk { blkOf c blk with suspect := false }) else m2
      levelWear (if b.suspect && !verify then retireBlk m3 ch blk else m3) ch lvl

/-- Frames that the open channels of a slice can still take (R80). -/
def toeRoom (m : Mod) (q : Polder) : Bool :=
  decide (toeOnOpen m q < (((toeChans q).filter (chanOpen m)).map (fun c => ((m.ftl.chans.get c).map Chan.exported).getD 0)).sum)

/-- A rebuilt unit written to a new location on the polder's open channels, in a new row whose parity is written with it (R73, R80). -/
def moveUnit (m : Mod) (u : Nat) : Mod :=
  match m.ftl.units.get u with
  | none => m
  | some x => match toeChannel m m.pol[pn x.pol] with
    | none => m
    | some ch =>
      let m1 := rowAdd { m with ftl := { m.ftl with
        rows := (m.ftl.rows.map (fun r => { r with units := r.units.filter (fun k => k != u) })).filter (fun r => !r.units.isEmpty) } } u ch
        { x with old := none }
      let m2 := match (m1.ftl.units.get u).bind (fun y => m1.ftl.rows.find? (fun r => r.id == y.row && !r.closed)) with
        | some r => closeRow m1 r
        | none => m1
      let (b, m3) := freshBlk m2 ch
      ackUnit m3 u b

/-- REBUILD_COMPLETE (R80): the units of a fenced channel move onto the polder's other channels, as far as these have
room. -/
def rebuildComplete (m : Mod) (p : Fin 16) (ch : Nat) : Mod :=
  if !fencedBit m.fence.toe ch || !(toeChans m.pol[p]).contains ch then m
  else
    let us := (m.ftl.units.filter (fun e => e.2.ch == ch && e.2.pol == p.val && e.2.acked)).map (·.1)
    us.foldl (fun m u => if toeRoom m m.pol[p] then minc (moveUnit m u) (Ctr.reconReads ch) 1 else m) m

/-- The rows in which a second unit cannot be read: data units and parity on fenced channels (R80). `also` is a unit found unreadable. -/
def brokenRows (m : Mod) (also : Option Nat) : List Nat :=
  (m.ftl.rows.filter (fun r =>
    let bad := (m.ftl.units.filter (fun e => e.2.row == r.id && (fencedBit m.fence.toe e.2.ch || also == some e.1))).length
    decide (2 ≤ bad + b2n (r.parity.elim false (fencedBit m.fence.toe))))).map StripeRow.id

/-- The units that cannot be rebuilt: in a broken row, those on fenced channels, and the one found unreadable (R80). -/
def deadUnits (m : Mod) (also : Option Nat) : List Nat :=
  let rows := brokenRows m also
  (m.ftl.units.filter (fun e => rows.contains e.2.row && (fencedBit m.fence.toe e.2.ch || also == some e.1))).map (·.1)

end Sys2Proof.Machine
end

