-- ==== Sys2Proof/Machine/Model.lean ====
section
/-! DEFINITION. Model slots: the checks of MODEL_LOAD (R148, R157, R160, R190, R238), the images in Berm and Crest (R161 to
R168), and the model cache (R163, R167). -/

namespace Sys2Proof.Machine

/-- The largest weight tile of a slot's MATMUL_W and LOGITS kernels, the draft's included (R148). -/
def tileMax (mf : Manifest) : Nat :=
  let ks (g : Prog) : List Kernel := (g.pro ++ g.layer ++ g.epi).filter (fun k => k.op == 1 || k.op == 6)
  ((ks mf.main ++ (mf.draft.elim [] ks)).map (fun k => tileBytes k.fmtS k.fmtT)).foldl max 0

/-- A header field or tensor entry out of range (Tables 05-1, 05-2, R160). -/
def headBad (g : Prog) : Bool :=
  let logits := (g.pro ++ g.layer ++ g.epi).any (fun k => k.op == 6)
  g.version != 1 || g.layers == 0 || decide (1024 < g.layers) || decide (g.tensors.length < 2) || decide (4096 < g.tensors.length) ||
  decide (64 < g.pro.length) || g.layer.isEmpty || decide (64 < g.layer.length) || g.epi.isEmpty || decide (64 < g.epi.length) ||
  decide (64 < g.kvGroups) || (g.kvGroups != 0 && !(g.kvFmt == 0 || g.kvFmt == 1 || g.kvFmt == 2 || g.kvFmt == 7)) ||
  decide (262144 < g.vocab) || (logits && g.vocab == 0) || g.tensors.any (fun t => t.width % 32 != 0 || decide (0xD < t.fmt))

def widthOf (g : Prog) (t : Nat) : Nat := ((g.tensors[t]?).map Tensor.width).getD 0
def fmtOf (g : Prog) (t : Nat) : Nat := ((g.tensors[t]?).map Tensor.fmt).getD 0

/-- The bytes a kernel reads at CS_OFF or BIAS_OFF: an FP32 vector over the output columns; of ROTARY's angle table at least one
value (R158, log entry 58). -/
def vectorBytes (g : Prog) (k : Kernel) (bias : Bool) : Nat :=
  if k.op == 1 || k.op == 2 || k.op == 6 then 4 * k.n
  else if k.op == 4 && bias && k.attr % 256 == 5 then 4
  else 4 * widthOf g k.out

/-- The bytes a kernel reads at W_OFF: weight tiles, or the rows of a GATHER table: VOCAB of them, at least one (R147, R158). -/
def weightBytes (g : Prog) (k : Kernel) : Nat :=
  if k.op == 1 || k.op == 6 then k.k / max 1 (tileK k.fmtS k.fmtT) * (k.n / 64) * tileBytes k.fmtS k.fmtT
  else if k.op == 5 then tableBytes k.fmtS (widthOf g k.out) (max 1 g.vocab)
  else 0

/-- An offset with its extent lies past the image, for every layer of a layer kernel (R156, R160). -/
def extentBad (g : Prog) (image : Nat) (lay : Bool) (k : Kernel) : Bool :=
  let base := if lay then (g.layers - 1) * g.layerStride else 0
  ((k.op == 1 || k.op == 5 || k.op == 6) && decide (image < base + k.wOff + weightBytes g k)) ||
  (k.csOff != 0 && decide (image < base + k.csOff + vectorBytes g k false)) ||
  (k.biasOff != 0 && decide (image < base + k.biasOff + vectorBytes g k true))

/-- An output format of a kernel (Table 05-3): BIN is an operand only, and 0xE and 0xF are reserved (R126). -/
def fmtIsOutput (code : Nat) : Bool := code != 0xB && decide (code ≤ 0xD)

/-- A tensor that a kernel reads in a format that cannot be an operand (R126); the token ids that GATHER selects by are no operand. -/
def operandBad (g : Prog) (k : Kernel) : Bool :=
  k.op != 5 && ((k.inA :: k.inB :: k.res :: []).any (fun t => match g.tensors[t]? with
    | some x => !fmtIsOperand x.fmt
    | none => false))

/-- The rules of one kernel descriptor (R160, R190, R238). `lay` marks a layer kernel, `last` the last of the epilogue. -/
def kernelBad (g : Prog) (image : Nat) (lay last : Bool) (k : Kernel) : Bool :=
  let att := k.op == 3 || k.op == 8
  let w := kvHeads k.attr * headDim k.attr
  let one (f : Nat) : Bool := f == 0 || f == 1 || f == 2
  k.op == 0 || decide (8 < k.op) || !pairOk k.fmtS k.fmtT || k.n % 64 != 0 || k.k % max 1 (tileK k.fmtS k.fmtT) != 0 || decide (262144 < k.k) ||
  extentBad g image lay k || !fmtIsOutput k.fmtO || operandBad g k || (last && k.op != 6 && k.op != 7) ||
  (k.op == 6 && (k.fmtO != 0xC || k.n != 64 * cdiv g.vocab 64)) ||
  (att && (g.kvGroups == 0 || !lay || k.fmtS != 0 || k.fmtT != 0 || k.func != 0 || k.csOff != 0 || k.biasOff != 0)) ||
  (k.op == 3 && (decide (1024 < w) || (g.layer.find? (fun x => x.op == 8)).elim false (fun x => x.attr != k.attr) ||
    widthOf g k.inA != g.kvGroups * w * qPerKv k.attr || widthOf g k.out != g.kvGroups * w * qPerKv k.attr || k.inB != 0xFFFF ||
    (if g.kvFmt == 0 then fmtOf g k.inA != 0 else fmtOf g k.inA != 1 && fmtOf g k.inA != 2))) ||
  (k.op == 8 && (widthOf g k.inA != g.kvGroups * w || widthOf g k.inB != g.kvGroups * w || !one (fmtOf g k.inA) ||
    !one (fmtOf g k.inB) || k.out != 0xFFFF || k.res != 0xFFFF || k.fmtO != g.kvFmt))

/-- The layer program holds one KV_APPEND, then one ATTN (R190): the index, within the layer, of the kernel at fault. -/
def layerRule (g : Prog) : Option Nat :=
  let ops := g.layer.map Kernel.op
  let bad (i : Nat) : Bool :=
    let before := ops.take i
    match ops[i]? with
    | some 3 => before.contains 3 || !before.contains 8
    | some 8 => before.contains 8
    | _ => false
  match (List.range ops.length).find? bad with
  | some i => some i
  | none => if g.kvGroups != 0 && !(ops.contains 3 && ops.contains 8) then some (ops.length - 1) else none

/-- The first failing descriptor of one program in its own order (R160). -/
def progFail (g : Prog) (image : Nat) : Option Nat :=
  let np := g.pro.length
  let ks := (g.pro.map (fun k => (k, false, false))) ++ (g.layer.map (fun k => (k, true, false))) ++
    (g.epi.zipIdx.map (fun e => (e.1, false, e.2 + 1 == g.epi.length)))
  let a := ks.findIdx? (fun k => kernelBad g image k.2.1 k.2.2 k.1)
  let b := (layerRule g).map (fun i => np + i)
  match a, b with
  | some x, some y => some (min x y)
  | some x, none => some x
  | none, some y => some y
  | none, none => none

/-- The failing kernel index of a manifest as R160 gives it; 0xFFFF_FFFF for a header, table or draft header. -/
def manifestFail (mf : Manifest) : Option Nat :=
  let g := mf.main
  if headBad g || (g.draftOff == 0) != mf.draft.isNone then some 0xFFFFFFFF
  else match progFail g g.imageBytes with
    | some i => some i
    | none => match mf.draft with
      | none => none
      | some d =>
        if headBad d || d.draftOff != 0 || d.digest != 0 || d.vocab != g.vocab then some 0xFFFFFFFF
        else (progFail d g.imageBytes).map (fun i => g.pro.length + g.layer.length + g.epi.length + i)

/-- n pages of a slot's image taken from unused page numbers as home pages of class LC. -/
def imagePages (m : Mod) (p : Fin 16) (o : Owner) (t : Tier) (n : Nat) : Except Nat Mod := do
  let (s, m) ← takeRun m p n .lc o
  (List.range n).foldlM (fun (m : Mod) i => do
    let (f, m) ← (match t with
      | .crest => (match takeFrame m p .crest with
          | some x => Except.ok x
          | none => .error 0)
      | _ => allocBerm m p .lc)
    pure (modPage (settleAt m p (s + i) t f) p (s + i) (fun g => { g with home := true }))) m

def imageFrames (mf : Manifest) : Nat := cdiv mf.main.imageBytes 65536

/-- A Crest image dropped: its frames are released (R163, R166). -/
def dropCrest (m : Mod) (p : Fin 16) (slot : Nat) (counted : Bool) : Mod :=
  let ns := (m.pol[p].pages.filter (fun e => e.2.owner == .crestImage slot)).map (·.1)
  let m1 := modPol (releasePages m p ns) p (fun q => { q with
    slots := q.slots.upd slot (fun s => { s with
      crest := false, pinned := false, dropAtBoundary := false, closing := false, evictCrest := none }) })
  pincIf m1 p counted Ctr.modelCacheDrop

/-- Passes of the slot that form now stage their tiles from its Crest image (R164, R166). -/
def Slot.fromCrest (s : Slot) : Bool := s.crest && !s.closing

/-- A decode or job pass of the slot is in flight. -/
def slotBusy (q : Polder) (slot : Nat) : Bool := q.passes.any (fun x => x.slot == slot)

/-- The unpinned Crest image of another slot used longest ago (R163). -/
def lruImage (q : Polder) (slot : Nat) : Option Nat :=
  ((q.slots.filter (fun e => e.1 != slot && e.2.crest && !e.2.pinned && !e.2.dropAtBoundary)).foldl (fun (b : Option (Nat × Nat)) e =>
    match b with
    | none => some (e.1, e.2.lastPass)
    | some x => if e.2.lastPass < x.2 then some (e.1, e.2.lastPass) else b) none).map (·.1)

/-- How a Crest image's room turned out. -/
inductive CacheRoom where
  | ok (m : Mod)
  | wait (m : Mod)
  | full (m : Mod)

/-- Images are dropped, least recently used first, until n frames fit; one whose slot has a pass in flight is dropped at that
slot's step boundary (R163, R187). -/
def cacheRoom (m : Mod) (p : Fin 16) (slot n : Nat) : Nat → CacheRoom
  | 0 => .full m
  | k + 1 =>
    if crestFits m m.pol[p] true n then .ok m
    else if m.pol[p].slots.any (fun e => e.2.dropAtBoundary) then .wait m
    else match lruImage m.pol[p] slot with
      | none => .full m
      | some v =>
        if slotBusy m.pol[p] v then
          .wait (modPol m p (fun q => { q with slots := q.slots.upd v (fun s => { s with dropAtBoundary := true }) }))
        else cacheRoom (dropCrest m p v true) p slot n k

/-- A slot's Crest image pages pinned or unpinned. A pinned image is no longer one that the model cache drops (R163). -/
def pinImage (m : Mod) (p : Fin 16) (slot : Nat) (on : Bool) : Mod :=
  modPol m p (fun q => { q with
    pages := q.pages.mapKV (fun _ g => if g.owner == .crestImage slot then { g with pin := on, pinTier := .crest } else g)
    slots := q.slots.upd slot (fun s =>
      let keep := on && s.evictCrest.isNone
      { s with pinned := on, dropAtBoundary := s.dropAtBoundary && !keep, closing := s.closing && !keep }) })

def crestImageFrames (q : Polder) (slot : Nat) : Nat := (q.pages.filter (fun e => e.2.owner == .crestImage slot)).length

/-- Both images of a slot freed. -/
def freeSlot (m : Mod) (p : Fin 16) (slot : Nat) : Mod :=
  let ns := (m.pol[p].pages.filter (fun e => e.2.owner == .crestImage slot || e.2.owner == .weights slot)).map (·.1)
  modPol (releasePages m p ns) p (fun q => { q with slots := q.slots.del slot })

/-- The end of a MODEL_LOAD or MODEL_PIN once its Crest image could be built, or not (R163, R165). -/
def imageEnd (m : Mod) (p : Fin 16) (w : ModelWait) (ok : Bool) : Mod :=
  match m.pol[p].slots.get w.slot with
  | none => complete m p w.tag rBadNone
  | some s =>
    let n := imageFrames s.man
    let bytes := at8 0 (s.man.main.imageBytes % 2 ^ 64)
    let bad (m : Mod) : Mod :=
      if w.load then
        (if w.pin then quotaEnd (freeSlot m p w.slot) p w.tag 0
         else complete (countRefused m p 0) p w.tag { rOk bytes with status := stPartial })
      else quotaEnd m p w.tag 0
    if !ok then bad m
    else
      let built := if s.crest then Except.ok m else (imagePages m p (.crestImage w.slot) .crest n).map (fun m =>
        modPol m p (fun q => { q with slots := q.slots.upd w.slot (fun s => { s with crest := true }) }))
      match built with
      | .error _ => bad m
      | .ok m1 =>
        if w.pin then
          (if m1.pol[p].dCrest.pinMax < pinnedIn m1.pol[p] .crest + (if s.pinned then 0 else n) then
            bad (if s.crest then m1 else dropCrest m1 p w.slot false)
           else complete (pinImage m1 p w.slot true) p w.tag (rOk ((if w.load then bytes else 0) + at8 8 (n % 2 ^ 32))))
        else complete m1 p w.tag (rOk (bytes + at8 8 (n % 2 ^ 32)))

/-- A Crest image is built when there is room, waits for a drop, or fails (R163). -/
def buildImage (m : Mod) (p : Fin 16) (w : ModelWait) : Mod :=
  match m.pol[p].slots.get w.slot with
  | none => complete m p w.tag rBadNone
  | some s =>
    if s.crest then imageEnd m p w true
    else match cacheRoom m p w.slot (imageFrames s.man) 33 with
      | .ok m1 => imageEnd m1 p w true
      | .full m1 => imageEnd m1 p w false
      | .wait m1 => modPol m1 p (fun q => { q with modelWaits := q.modelWaits ++ [w] })

/-- Commands that wait for room in the model cache look again (R187). -/
def retryWaits (m : Mod) (p : Fin 16) : Mod :=
  m.pol[p].modelWaits.foldl (fun m w => buildImage m p w) (modPol m p (fun q => { q with modelWaits := [] }))

/-- A marked Crest image is unpinned and its use ends once no decode pass of the slot flies; it is dropped when no pass that stages
from it is left, and the MODEL_EVICT that asked for it completes (R166, Table 05-9). -/
def dropMarked (m : Mod) (p : Fin 16) (slot : Nat) (s : Slot) : Mod :=
  let flying (f : Pass → Bool) : Bool := m.pol[p].passes.any (fun x => x.slot == slot && f x)
  if !s.dropAtBoundary || (!s.closing && flying (fun x => x.job.isNone)) then m
  else if flying Pass.fromCrest then
    modPol (pinImage m p slot false) p (fun q => { q with slots := q.slots.upd slot (fun s => { s with closing := true }) })
  else
    let n := crestImageFrames m.pol[p] slot
    let m1 := dropCrest m p slot s.evictCrest.isNone
    retryWaits (match s.evictCrest with
      | some t => complete m1 p t (rOk (at8 8 (n % 2 ^ 32)))
      | none => m1) p

/-- A slot's step boundary (R166, R187). -/
def slotBoundary (m : Mod) (p : Fin 16) (slot : Nat) : Mod :=
  match m.pol[p].slots.get slot with
  | none => m
  | some s => dropMarked m p slot s

/-- The checks of MODEL_LOAD that need no manifest (R148, R155, R162, R168). -/
def loadBad (m : Mod) (p : Fin 16) (e : Block) (mf : Manifest) : Option Res :=
  let slot := fld e 32 0 8
  let ahead := if fld e 34 0 8 == 0 then 16 else fld e 34 0 8
  if 31 < slot || (m.pol[p].sealed && slot != 0) || m.pol[p].slots.has slot then some (rBad 32)
  else if ahead < 2 || 64 < ahead || 524288 < ahead * tileMax mf then some (rBad 34)
  else none

/-- A slot as MODEL_LOAD fills it (R155, R162). -/
def newSlot (e : Block) (mf : Manifest) (img : Nat) : Slot :=
  { man := mf, img := img % 2 ^ (8 * mf.main.imageBytes), ahead := if fld e 34 0 8 == 0 then 16 else fld e 34 0 8, crest := false, pinned := false, lastPass := 0, evictCrest := none
    dropAtBoundary := false, closing := false }

/-- A kernel descriptor (Table 05-3). -/
def kernelAt (b : Block) (o : Nat) : Kernel :=
  { op := fld b o 0 8, fmtS := fld b (o + 1) 0 4, fmtT := fld b (o + 1) 4 4, fmtO := fld b (o + 2) 0 4, outSat := flg b (o + 2) 4
    func := fld b (o + 3) 0 8, k := fld b (o + 4) 0 32, n := fld b (o + 8) 0 32, inA := fld b (o + 12) 0 16, inB := fld b (o + 14) 0 16
    out := fld b (o + 16) 0 16, res := fld b (o + 18) 0 16, tscale := BitVec.ofNat 32 (fld b (o + 20) 0 32), wOff := fld b (o + 24) 0 64
    csOff := fld b (o + 32) 0 64, biasOff := fld b (o + 40) 0 64, attr := fld b (o + 48) 0 32 }

/-- One manifest at a byte offset: header, tensor table, kernels in program order (R156, Tables 05-1 and 05-2). -/
def progAt (b : Block) (o : Nat) : Prog :=
  let tn := fld b (o + 6) 0 16
  let np := fld b (o + 8) 0 16
  let nl := fld b (o + 10) 0 16
  let ks (from' n : Nat) : List Kernel := (List.range n).map (fun i => kernelAt b (o + 128 + 8 * tn + 64 * (from' + i)))
  { version := fld b o 0 32, layers := fld b (o + 4) 0 16
    tensors := (List.range tn).map (fun i => ⟨fld b (o + 128 + 8 * i) 0 32, fld b (o + 132 + 8 * i) 0 4⟩)
    pro := ks 0 np, layer := ks np nl, epi := ks (np + nl) (fld b (o + 12) 0 16), kvGroups := fld b (o + 14) 0 8, kvFmt := fld b (o + 15) 0 4
    layerStride := fld b (o + 16) 0 64, imageBytes := fld b (o + 24) 0 64, vocab := fld b (o + 32) 0 32, actRowBytes := fld b (o + 36) 0 32
    draftOff := fld b (o + 40) 0 32, manifestBytes := fld b (o + 44) 0 32, digest := fld b (o + 64) 0 256 }

/-- A manifest of MANIFEST_BYTES with its nested draft (R156, R157). -/
def manifestOf (b : Block) : Manifest :=
  let v := b % 2 ^ (8 * fld b 44 0 32)
  let d := fld v 40 0 32
  ⟨progAt v 0, if d == 0 then none else some (progAt v d)⟩

/-- The digest a manifest must name: SHA3-256 over the manifest with DIGEST zeroed, then the image (Table 05-1). -/
def imageDigest (man img : Block) : Nat :=
  let n := fld man 44 0 32
  sha3Bytes (toBytes (man % 2 ^ 512 + (man >>> 768) <<< 768) n ++ toBytes img (fld man 24 0 64))

/-- MODEL_LOAD (R162, R163): `man` and `img` are the bytes the companion holds at MANIFEST and IMAGE. -/
def modelLoad (m : Mod) (p : Fin 16) (tag : Nat) (man img : Block) : Mod := ringRow m p tag 0x31 (fun t m =>
  let e := t.entry
  let mf := manifestOf man
  let slot := fld e 32 0 8
  let failed (i : Nat) : Res := { rBadNone with result := at8 12 i }
  match loadBad m p e mf with
  | some r => complete m p tag r
  | none => match manifestFail mf with
    | some i => complete m p tag (failed i)
    | none =>
      if imageDigest man img != mf.main.digest then complete m p tag (failed 0xFFFFFFFF)
      else match imagePages m p (.weights slot) .berm (imageFrames mf) with
        | .error t => quotaEnd m p tag t
        | .ok m1 =>
          let m2 := modPol m1 p (fun q => { q with slots := q.slots.put slot (newSlot e mf img) })
          if flg e 33 0 || flg e 33 1 then buildImage m2 p ⟨tag, slot, flg e 33 1, true⟩
          else complete m2 p tag (rOk (mf.main.imageBytes % 2 ^ 64)))

/-- The slot is named by a descriptor that is not FREE, or by a job in flight (R166). -/
def slotInUse (m : Mod) (p : Fin 16) (slot : Nat) : Bool :=
  m.dir.any (fun e => e.2.pol == p.val && e.2.own != .none && e.2.life != .free && e.2.slot == slot) ||
  m.pol[p].jobs.any (fun j => j.slot == slot)

/-- MODEL_EVICT with CREST_ONLY clear (R166, R168). -/
def modelEvict (m : Mod) (p : Fin 16) (tag : Nat) : Mod := ringRowIf m p tag 0x32 (fun e => !flg e 33 0) (fun t m =>
  let slot := fld t.entry 32 0 8
  if 31 < slot || m.pol[p].sealed || !m.pol[p].slots.has slot then complete m p tag (rBad 32)
  else if slotInUse m p slot || m.pol[p].modelWaits.any (fun w => w.slot == slot) then complete m p tag (rSt stBusy)
  else
    let c := crestImageFrames m.pol[p] slot
    let b := (m.pol[p].pages.filter (fun e => e.2.owner == .weights slot)).length
    complete (freeSlot m p slot) p tag (rOk (at8 8 (c % 2 ^ 32) + at8 12 (b % 2 ^ 32))))

/-- MODEL_EVICT with CREST_ONLY set (R166). -/
def modelEvictCrest (m : Mod) (p : Fin 16) (tag : Nat) : Mod := ringRowIf m p tag 0x32 (fun e => flg e 33 0) (fun t m =>
  let slot := fld t.entry 32 0 8
  match m.pol[p].slots.get slot with
  | none => complete m p tag (rBad 32)
  | some s =>
    if 31 < slot || m.pol[p].sealed then complete m p tag (rBad 32)
    else if !s.crest then complete m p tag (rOk 0)
    else if s.evictCrest.isSome then complete m p tag (rSt stBusy)
    else slotBoundary (modPol m p (fun q => { q with
      slots := q.slots.upd slot (fun s => { s with dropAtBoundary := true, evictCrest := some tag }) })) p slot)

/-- A KRN_SUBMIT names a slot whose MODEL_EVICT is pending: the evict completes with BUSY and the image stays (R187). -/
def keepImage (m : Mod) (p : Fin 16) (slot : Nat) : Mod :=
  match (m.pol[p].slots.get slot).bind Slot.evictCrest with
  | none => m
  | some t => complete (modPol m p (fun q => { q with
      slots := q.slots.upd slot (fun s => { s with dropAtBoundary := false, closing := false, evictCrest := none }) })) p t (rSt stBusy)

/-- MODEL_PIN with PIN 1 (R165). -/
def modelPin (m : Mod) (p : Fin 16) (tag : Nat) : Mod := ringRowIf m p tag 0x33 (fun e => flg e 33 0) (fun t m =>
  let slot := fld t.entry 32 0 8
  if 31 < slot || !m.pol[p].slots.has slot then complete m p tag (rBad 32)
  else retryWaits (buildImage m p ⟨tag, slot, true, false⟩) p)

/-- MODEL_PIN with PIN 0 (R165). -/
def modelUnpin (m : Mod) (p : Fin 16) (tag : Nat) : Mod := ringRowIf m p tag 0x33 (fun e => !flg e 33 0) (fun t m =>
  let slot := fld t.entry 32 0 8
  match m.pol[p].slots.get slot with
  | none => complete m p tag (rBad 32)
  | some s => complete (pinImage m p slot false) p tag (rOk (at8 8 ((if s.pinned then crestImageFrames m.pol[p] slot else 0) % 2 ^ 32))))

/-- Crest occupancy once the copies down in progress and the drops of marked images are over (R167). -/
def crestSettled (q : Polder) : Nat :=
  occ q .crest - leaving q .crest - ((q.slots.filter (fun e => e.2.dropAtBoundary)).map (fun e => crestImageFrames q e.1)).sum

/-- The model cache drops unpinned images, least recently used first, until occupancy will be at or below the low watermark; one whose
slot has a pass in flight is marked for its step boundary (R167, R187). -/
def cacheTrim (m : Mod) (p : Fin 16) : Nat → Mod
  | 0 => m
  | n + 1 =>
    if crestSettled m.pol[p] ≤ lowMark m.pol[p].dCrest then m
    else match lruImage m.pol[p] 32 with
      | none => m
      | some v =>
        if slotBusy m.pol[p] v then
          cacheTrim (modPol m p (fun q => { q with slots := q.slots.upd v (fun s => { s with dropAtBoundary := true }) })) p n
        else cacheTrim (dropCrest m p v true) p n

end Sys2Proof.Machine
end

