-- ==== Sys2Proof/Machine/Sampler.lean ====
section
/-! DEFINITION. The sampler unit: its order of operations (R239), its random words (R241), acceptance (R233) and the cuts at
EOS, stop sequences and MAX_TOKENS (R237). -/

namespace Sys2Proof.Machine

/-- A row's distribution after step 12: the reported log-probabilities, the kept tokens by probability descending with
ties to the lower token id, renormalised, and whether the temperature is 0. -/
structure Dist where
  lp : List F32
  kept : List (Nat × F32)
  greedy : Bool
deriving DecidableEq, Repr

/-- The last n elements of a list. -/
def lastN (n : Nat) (l : List Nat) : List Nat := l.drop (l.length - n)

/-- Token i is allowed by the static mask and the step's mask (R242). -/
def allowed (s : SampPage) (step : Option Nat) (i : Nat) : Bool :=
  (!s.maskStatic || bit s.mask i) && (match step with
    | none => true
    | some b => bit b i)

/-- Steps 1 to 4 on one logit: mask, bias, repetition, presence and frequency. -/
def adjust (s : SampPage) (step : Option Nat) (win : List Nat) (i : Nat) (z : F32) : F32 :=
  let z1 := if allowed s step i then z else f32NegInf
  let z2 := (s.bias.filter (fun b => b.1 == i)).foldl (fun z b => f32Add z b.2) z1
  let h := win.count i
  if h == 0 then z2
  else
    let z3 := if f32Lt 0#32 z2 then f32Div z2 s.pr.repPen else f32Mul z2 s.pr.repPen
    f32Sub (f32Sub z3 s.pr.presPen) (f32Mul s.pr.freqPen (toF32 (.fin false h 0)))

/-- A NaN after step 4 is taken as a free value (log entry 9). -/
def freeNan (n i : Nat) (z : F32) : F32 :=
  if f32IsNan z then (let w := Config.nanLogit n i; if f32IsNan w then f32NegInf else w) else z

/-- The first position of the greatest value: ties to the lower id (step 7). -/
def argmax (z : List F32) : Nat :=
  (z.zipIdx.foldl (fun (best : Option (F32 × Nat)) e =>
    match best with
    | none => some e
    | some b => if f32Lt b.1 e.1 then some e else best) none).elim 0 (·.2)

/-- By value descending, ties to the lower token id. -/
def sortDist (l : List (Nat × F32)) : List (Nat × F32) :=
  sortBy (fun a b => f32Lt b.2 a.2 || (!f32Lt a.2 b.2 && decide (a.1 < b.1))) l

/-- The shortest prefix whose sum is at least top_p (step 11). -/
def nucleus (topP : F32) : F32 → List (Nat × F32) → List (Nat × F32)
  | _, [] => []
  | acc, e :: t =>
    let s := f32Add acc e.2
    if f32Lt s topP then e :: nucleus topP s t else [e]

/-- The exponentials of a row less its maximum, and their sum (log entry 8). -/
def softExp (n : Nat) (l : List F32) : List F32 × F32 :=
  let mx := rowMax l
  let ex := l.map (fun w => Fn.exp.run n (f32Sub w mx))
  (ex, rowSum (Config.sumOrder n) ex)

/-- softmax of R239: exp within the bound of Table 04-2, divided by the sum. -/
def softmax (n : Nat) (l : List F32) : List F32 :=
  let e := softExp n l
  e.1.map (fun w => f32Div w e.2)

/-- log_softmax of R239: each value less the maximum and the logarithm of the sum, log within the bound of Table 04-2. -/
def logSoftmax (n : Nat) (l : List F32) : List F32 :=
  let mx := rowMax l
  let lg := Fn.log.run n (softExp n l).2
  l.map (fun w => f32Sub (f32Sub w mx) lg)

def sumF32 (l : List F32) : F32 := l.foldl f32Add 0#32

/-- Probabilities divided by their sum. -/
def renorm (l : List (Nat × F32)) : List (Nat × F32) :=
  let s := sumF32 (l.map (·.2))
  l.map (fun e => (e.1, f32Div e.2 s))

/-- Steps 1 to 12 of R239 on one row; none for an empty row (step 5). `hist` is the history ring followed by the row's
ancestor tokens, `n` names the free values. -/
def distribution (n vocab : Nat) (s : SampPage) (step : Option Nat) (hist : List Nat) (row : List F32) : Option Dist :=
  let win := lastN s.pr.window hist
  let z := (row.take vocab).zipIdx.map (fun e => freeNan n e.2 (adjust s step win e.2 e.1))
  if z.all (fun x => x == f32NegInf) then none
  else
    let zero := s.pr.temp.toNat % 2 ^ 31 == 0
    let lp := logSoftmax n (z.map (fun x => f32Div x (if zero then f32One else s.pr.temp)))
    if zero then some ⟨lp, [(argmax z, f32One)], true⟩
    else
      let y := z.zipIdx.map (fun e => (e.2, f32Div e.1 s.pr.temp))
      let live := sortDist (y.filter (fun e => e.2 != f32NegInf))
      let keep := if s.pr.topK == 0 then live else live.take s.pr.topK
      let prob := sortDist (((keep.map (·.1)).zip (softmax n (keep.map (·.2)))))
      let keep := if f32Lt s.pr.topP f32One then nucleus s.pr.topP 0#32 prob else prob
      let cut := f32Mul s.pr.minP ((keep.head?.map (·.2)).getD 0#32)
      some ⟨lp, renorm (keep.filter (fun e => !f32Lt e.2 cut)), false⟩

/-- A probability in a distribution. -/
def probOf (l : List (Nat × F32)) (t : Nat) : F32 := ((l.find? (fun e => e.1 == t)).map (·.2)).getD 0#32

/-- A polder's DRBG seeded afresh: 384 bits that the derivation function makes of the secure element's entropy. While the source is not healthy a
reseed is due (R241). -/
def reseed (m : Mod) (p : Fin 16) : Mod :=
  if !m.entropyOk then modPol m p (fun q => { q with drbg := { q.drbg with reqs := 2 ^ 20 } })
  else
    let m1 := modPol m p (fun q =>
      let x := drbgUpdate q.drbg.key q.drbg.v (Config.seed m.free).toNat
      { q with drbg := { key := x.1, v := x.2, words := [], reqs := 0 } })
    { m1 with free := m1.free + 1 }

/-- A DRBG with a word to give: a generate request yields 16 (R241). -/
def drbgFill (d : Drbg) : Drbg :=
  if d.words.isEmpty then
    let x := drbgGenerate d.key d.v 16
    { key := x.2.1, v := x.2.2, words := x.1, reqs := d.reqs + 1 }
  else d

/-- One fresh word of a polder's DRBG: none when a reseed is due and the source has no healthy entropy (R241). -/
def takeWord (m : Mod) (p : Fin 16) : Option (BitVec 32) × Mod :=
  let d := m.pol[p].drbg
  if 2 ^ 20 ≤ d.reqs && !m.entropyOk then (none, m)
  else
    let m1 := if 2 ^ 20 ≤ d.reqs then pinc (reseed m p) p Ctr.drbgReseed 1 else m
    let d1 := drbgFill m1.pol[p].drbg
    (some (BitVec.ofNat 32 ((d1.words.head?).getD 0)), modPol m1 p (fun q => { q with drbg := { d1 with words := d1.words.tail } }))

/-- draw(): word / 2^32. -/
def wordNum (w : BitVec 32) : Num := .fin false w.toNat (-32)

/-- The first token of the list whose running sum exceeds u (step 13). -/
def pick (u : Num) : F32 → List (Nat × F32) → Option Nat
  | _, [] => none
  | acc, e :: t =>
    let s := f32Add acc e.2
    if u.lt (ofF32 s) then some e.1 else pick u s t

/-- Step 13 on renormalised probabilities. Where rounding leaves every running sum at or below u, R239 names no token: a
free one of the list is taken (log entry 9). -/
def pickFree (n : Nat) (u : Num) (l : List (Nat × F32)) : Nat :=
  (pick u 0#32 l).getD (((l[Config.hint n % max 1 l.length]?).map (·.1)).getD 0)

/-- sample(p): the argmax at temperature 0, else a draw; none when no word can be had (R233, R241). -/
def sample (m : Mod) (p : Fin 16) (d : Dist) : Option Nat × Mod :=
  if d.greedy then (some ((d.kept.head?.map (·.1)).getD 0), m)
  else
    match takeWord m p with
    | (none, m1) => (none, m1)
    | (some w, m1) => (some (pickFree m.free (wordNum w) d.kept), m1)

/-- The residual of R233: max(0, p - q), by value descending. -/
def residual (pd q : List (Nat × F32)) : List (Nat × F32) :=
  sortDist ((pd.map (fun e => (e.1, f32Sub e.2 (probOf q e.1)))).filter (fun e => f32Lt 0#32 e.2))

/-- What acceptance decides: the accepted nodes in order and the bonus token, or that no word could be had. -/
structure Accept where
  path : List Nat
  bonus : Option Nat
deriving DecidableEq, Repr

/-- Linear acceptance from draft j on (R233): `pd` are the target rows, `qd` what proposed each draft token. -/
def acceptLinear (m : Mod) (p : Fin 16) (greedy : Bool) (pd : List Dist) (qd : Nat → List (Nat × F32)) :
    Nat → Nat → List (Option Nat) → Accept × Mod
  | 0, _, _ => (⟨[], none⟩, m)
  | fuel + 1, j, ds =>
    match pd[j]? with
    | none => (⟨List.range' 1 j, none⟩, m)
    | some row =>
      match ds with
      | [] =>
        let r := sample m p row
        (⟨List.range' 1 j, r.1⟩, r.2)
      | d :: rest =>
        if greedy then
          let r := sample m p row
          if r.1.isSome && r.1 == d then acceptLinear r.2 p greedy pd qd fuel (j + 1) rest
          else (⟨List.range' 1 j, r.1⟩, r.2)
        else
          match takeWord m p with
          | (none, m1) => (⟨List.range' 1 j, none⟩, m1)
          | (some w, m1) =>
            let u := wordNum w
            let reject := match d with
              | none => true
              | some t =>
                let r := f32Div (probOf row.kept t) (probOf (qd j) t)
                !u.lt (ofF32 r) && !f32IsNan r
            if reject then
              let res := residual row.kept (qd j)
              if res.isEmpty then
                let r := sample m1 p row
                (⟨List.range' 1 j, r.1⟩, r.2)
              else
                let r := sample m1 p { row with kept := renorm res }
                (⟨List.range' 1 j, r.1⟩, r.2)
            else acceptLinear m1 p greedy pd qd fuel (j + 1) rest

/-- Tree acceptance from a node on, greedy match (R233): `pd` gives each node's target row. -/
def acceptTree (m : Mod) (p : Fin 16) (pd : Nat → Option Dist) (parents : List Nat) (toks : List (Option Nat)) :
    Nat → Nat → List Nat → Accept × Mod
  | 0, _, path => (⟨path, none⟩, m)
  | fuel + 1, v, path =>
    match pd v with
    | none => (⟨path, none⟩, m)
    | some row =>
      match sample m p row with
      | (none, m1) => (⟨path, none⟩, m1)
      | (some x, m1) =>
        match (List.range' 1 parents.length).find? (fun c => parents[c - 1]? == some v && (toks[c]?).getD none == some x) with
        | none => (⟨path, some x⟩, m1)
        | some c => acceptTree m1 p pd parents toks fuel c (path ++ [c])

/-- The depth of node i (R229). -/
def depthOf (parents : List Nat) : Nat → Nat → Nat
  | 0, _ => 0
  | _, 0 => 0
  | fuel + 1, i => 1 + depthOf parents fuel ((parents[i - 1]?).getD 0)

def nodeDepth (parents : List Nat) (i : Nat) : Nat := depthOf parents (parents.length + 1) i

/-- Nodes from the root (left out) down to node v itself. -/
def pathTo (parents : List Nat) : Nat → Nat → List Nat
  | 0, _ => []
  | _, 0 => []
  | fuel + 1, i => pathTo parents fuel ((parents[i - 1]?).getD 0) ++ [i]

/-- The tokens a row adds to the history: its own and its ancestors', the root's left out because it is in the history
already. -/
def pathToks (parents : List Nat) (toks : List (Option Nat)) (v : Nat) : List Nat :=
  (pathTo parents (parents.length + 1) v).filterMap (fun i => (toks[i]?).getD none)

/-- Children of a node in ascending order. -/
def kids (parents : List Nat) (v : Nat) : List Nat :=
  (List.range' 1 parents.length).filter (fun c => parents[c - 1]? == some v)

/-- The index of a stop sequence that the emitted tokens end with. -/
def stopHit (stops : List (List Nat)) (emitted : List Nat) : Option Nat :=
  stops.findIdx? (fun s => !s.isEmpty && lastN s.length emitted == s)

/-- One emitted token with the flags of its entry and the row it was emitted at. -/
structure Emit where
  tok : Nat
  node : Nat
  draft : Bool
  eos : Bool
  stop : Option Nat
  last : Option Nat
deriving DecidableEq, Repr

/-- The step's tokens cut at the first EOS, stop match or MAX_TOKENS (R237), `left` tokens before MAX_TOKENS; END in the
order of Table 07-2. -/
def cut (eos : Nat) (stops : List (List Nat)) (left : Nat) : List Nat → List (Nat × Nat × Bool) → List Emit
  | _, [] => []
  | sofar, (t, node, dr) :: rest =>
    let now := sofar ++ [t]
    let e := eos != 0xFFFFFFFF && t == eos
    let st := stopHit stops now
    let last := if left ≤ 1 then some 1 else if e then some 2 else if st.isSome then some 3 else none
    let x : Emit := { tok := t, node := node, draft := dr, eos := e, stop := st, last := last }
    if last.isSome then [x] else x :: cut eos stops (left - 1) now rest

end Sys2Proof.Machine
end

