-- ==== Sys2Proof/Machine/Pass.lean ====
section
/-! DEFINITION. Passes as programs of strips: kernel instances in program order (R156), strips and their handshakes (R170,
R174, R207), the pages a sequence attends (R205, R209, R212), readiness (R171), and the dispatcher (R172, R173). -/

namespace Sys2Proof.Machine

/-- Kernel instances of a program: prologue, every layer, epilogue (R156). -/
def progCount (g : Prog) : Nat := g.pro.length + g.layers * g.layer.length + g.epi.length

/-- Instance i: its kernel and its layer. -/
def progInst (g : Prog) (i : Nat) : Option (Kernel × Option Nat) :=
  if i < g.pro.length then (g.pro[i]?).map (fun k => (k, none))
  else
    let j := i - g.pro.length
    if j < g.layers * g.layer.length then (g.layer[j % g.layer.length]?).map (fun k => (k, some (j / g.layer.length)))
    else (g.epi[j - g.layers * g.layer.length]?).map (fun k => (k, none))

/-- The instance of a layer's kernel of an operation. -/
def layerInst (g : Prog) (l op : Nat) : Option Nat :=
  (g.layer.findIdx? (fun k => k.op == op)).map (fun j => g.pro.length + l * g.layer.length + j)

def passOf (q : Polder) (id : Nat) : Option Pass := q.passes.find? (fun x => x.id == id)

def modPass (m : Mod) (p : Fin 16) (id : Nat) (f : Pass → Pass) : Mod :=
  modPol m p (fun q => { q with passes := updWhere q.passes (fun x => x.id == id) f })

def modPassSeq (m : Mod) (p : Fin 16) (id i : Nat) (f : PassSeq → PassSeq) : Mod :=
  modPass m p id (fun x => { x with seqs := x.seqs.modify i f })

/-- The program a pass runs at its level: the draft's below the last level, or the job's (R184, R232). -/
def passProg (q : Polder) (x : Pass) : Option Prog :=
  match q.slots.get x.slot with
  | none => none
  | some sl =>
    match x.job with
    | some t => if (q.jobs.find? (fun j => j.tag == t)).elim false Job.draft then sl.man.draft else some sl.man.main
    | none => if x.level + 1 < x.levels then sl.man.draft else some sl.man.main

/-- The pass is at its target level. -/
def Pass.target (x : Pass) : Bool := decide (x.levels ≤ x.level + 1)

/-- A sequence takes part at a layer: it has neither ended nor been held there, and it has entered (R65, R179). -/
def PassSeq.at (s : PassSeq) (layer : Nat) : Bool :=
  s.ended.isNone && decide (s.entry ≤ layer) && (match s.held with
    | none => true
    | some k => decide (layer < k))

/-- The rows of a pass at its level in order: sequence and node; a job's rows are its tokens (R179, R186, R231, R232). -/
def passRows (q : Polder) (x : Pass) : List (Nat × Nat) :=
  match x.job with
  | some t => (List.range (x.items * ((q.jobs.find? (fun j => j.tag == t)).elim 0 Job.itemTokens))).map (fun r => (0, r))
  | none => x.seqs.zipIdx.flatMap (fun e =>
      let nodes := List.range (e.1.parents.length + 1)
      let ns := if x.target then nodes
        else if e.1.entry == 0 then nodes.filter (fun v => nodeDepth e.1.parents v == x.level && !(kids e.1.parents v).isEmpty)
        else []
      ns.map (fun v => (e.2, v)))

/-- The layer number an instance counts as for holds: prologue 0, epilogue past the last layer. -/
def instLayer (g : Prog) (i : Nat) : Nat :=
  match progInst g i with
  | some (_, some l) => l
  | _ => if i < g.pro.length then 0 else g.layers

/-- The rows, by position, that take part in an instance. -/
def activeRows (q : Polder) (x : Pass) (g : Prog) (i : Nat) : List Nat :=
  ((passRows q x).zipIdx.filter (fun e => match x.job with
    | some _ => true
    | none => match x.seqs[e.1.1]? with
      | none => false
      | some s => if x.target then (if i < g.pro.length then s.entry == 0 && s.at 0 else s.at (instLayer g i))
          else s.ended.isNone)).map (·.2)

/-- One strip: its index, the rows it covers, its handshakes, and the sequence and KV group of an attention strip. -/
structure Strip where
  idx : Nat
  lo : Nat
  hi : Nat
  hs : Nat
  seq : Option Nat
  grp : Nat
deriving DecidableEq, Repr

/-- Pages sink and window of R212 for a step whose first row lies in page o. -/
def sinkWindow (r : Recall) (o : Nat) : List Nat :=
  (List.range (o + 1)).filter (fun i => decide (i < r.sink) || decide (o < i + r.window))

/-- The page of the step's first row. -/
def openPage (d : Desc) : Nat := d.tokens / 16

/-- The pages of the step's own rows. -/
def ownPages (d : Desc) (s : PassSeq) : List Nat :=
  (List.range ((d.tokens + s.parents.length) / 16 + 1)).filter (fun i => decide (d.tokens / 16 ≤ i))

/-- The pages a sequence attends in a layer-group, in order: all of them in Bounded mode, else those chosen, and those of the step's own rows;
pages left out at the deadline are not among them (R205, R209, R212, R215, R216, R231). -/
def attended (m : Mod) (s : PassSeq) (lg : Nat) : List Nat :=
  match desc? m s.sess with
  | none => []
  | some d =>
    let sel := (s.sel.get lg).getD []
    (List.range ((d.tokens + s.parents.length) / 16 + 1)).filter (fun i =>
      (!d.sparse || sel.contains i || decide (openPage d < i)) && !s.late.contains (lg, i))

/-- The body pages of KV pages that hold committed rows or the step's own. -/
def bodyPagesOf (ses : Sess) (lg : Nat) (is : List Nat) : List Nat :=
  dedup (is.filterMap (fun i => (ses.kv.get (kvIdx ses.geo i lg)).map bodyPage))

/-- Attended tokens: the committed rows of the attended pages and the step's rows (R205, R207). -/
def attTokens (d : Desc) (s : PassSeq) (is : List Nat) : Nat :=
  (is.map (fun i => min 16 (d.tokens - 16 * i))).sum + s.parents.length + 1

/-- Rows cut into chunks of at most n. -/
def cutRows (n lo hi : Nat) : List (Nat × Nat) :=
  (List.range (cdiv (hi - lo) (max 1 n))).map (fun c => (lo + c * max 1 n, min hi (lo + (c + 1) * max 1 n)))

/-- R174: a BE strip of `per` handshakes a row is cut so that each chunk stays at or below BE_STRIP_HS. -/
def chunk (lc : Bool) (lim per lo hi : Nat) : List (Nat × Nat) :=
  if lc || decide (per * (hi - lo) ≤ lim) then [(lo, hi)] else cutRows (lim / max 1 per) lo hi

/-- The span of a set of rows. -/
def rowSpan (rs : List Nat) : Nat × Nat :=
  match rs with
  | [] => (0, 0)
  | r :: _ => (r, (rs.getLast?.getD r) + 1)

/-- The row span of a sequence at the target level. -/
def seqSpan (q : Polder) (x : Pass) (i : Nat) : Nat × Nat :=
  rowSpan (((passRows q x).zipIdx.filter (fun e => e.1.1 == i)).map (·.2))

/-- The strips of an instance (Table 05-6, R170, R174, R207): rows are cut by their place in the pass, so that a strip keeps its number when
a sequence leaves; a strip without an active row is no strip, and handshakes count the active rows. -/
def stripsOf (m : Mod) (p : Fin 16) (x : Pass) (g : Prog) (i : Nat) : List Strip :=
  let q := m.pol[p]
  match progInst g i with
  | none => []
  | some (k, lay) =>
    let rows := activeRows q x g i
    let n := (passRows q x).length
    let live (lo hi : Nat) : Nat := (rows.filter (fun r => decide (lo ≤ r) && decide (r < hi))).length
    let keep (l : List Strip) : List Strip := l.filter (fun s => decide (0 < live s.lo s.hi))
    match k.op with
    | 3 =>
      keep ((x.seqs.zipIdx.filter (fun e => e.1.at (lay.getD 0))).flatMap (fun e =>
        match desc? m e.1.sess with
        | none => []
        | some d =>
          let (a, b) := seqSpan q x e.2
          (List.range g.kvGroups).flatMap (fun grp =>
            let t := attTokens d e.1 (attended m e.1 (lay.getD 0 * g.kvGroups + grp))
            let per := 2 * cdiv t 64 * (headDim k.attr / 64) * qPerKv k.attr * kvHeads k.attr * (if g.kvFmt == 0 then 4 else 1)
            (chunk x.lc q.beStripHs per a b).map (fun c =>
              { idx := (e.2 * g.kvGroups + grp) * 64 + (c.1 - a), lo := c.1, hi := c.2, hs := per * (c.2 - c.1), seq := some e.2, grp := grp }))))
    | 8 =>
      keep ((x.seqs.zipIdx.filter (fun e => e.1.at (lay.getD 0))).flatMap (fun e =>
        let (a, b) := seqSpan q x e.2
        let per := 2 * g.kvGroups * (kvHeads k.attr * headDim k.attr) / 64
        (chunk x.lc q.beStripHs per a b).map (fun c =>
          { idx := e.2 * 64 + (c.1 - a), lo := c.1, hi := c.2, hs := per * (c.2 - c.1), seq := some e.2, grp := 0 })))
    | 4 | 5 | 7 =>
      let w := ((g.tensors[k.out]?).map Tensor.width).getD 0
      keep ((cutRows 64 0 n).map (fun c => { idx := c.1, lo := c.1, hi := c.2, hs := w, seq := none, grp := 0 }))
    | _ =>
      let per := k.k / max 1 (tileK k.fmtS k.fmtT) * (if k.fmtS == 0 then 4 else 1)
      keep ((List.range (k.n / 64)).flatMap (fun cb =>
        (chunk x.lc q.beStripHs per 0 n).map (fun c =>
          { idx := cb * 2 ^ 20 + c.1, lo := c.1, hi := c.2, hs := per * live c.1 c.2, seq := none, grp := cb })))

/-- The tensors a kernel reads. KV_APPEND and ATTN read activations too; a MATMUL's weights are no tensor. -/
def reads (k : Kernel) : List Nat := [k.inA] ++ (if k.inB == 0xFFFF then [] else [k.inB]) ++ (if k.res == 0xFFFF then [] else [k.res])

/-- The latest earlier writer of a tensor in program order (R171). -/
def writerOf (g : Prog) (i t : Nat) : Option Nat :=
  ((List.range i).filter (fun j => match progInst g j with
    | some (k, _) => k.op != 8 && k.out == t
    | none => false)).getLast?

def isDone (x : Pass) (key : StripKey) : Bool := x.done.any (fun e => e.1 == key)

/-- Every strip of an instance that covers a row of a range has completed. -/
def coveredBy (m : Mod) (p : Fin 16) (x : Pass) (g : Prog) (j lo hi : Nat) : Bool :=
  (stripsOf m p x g j).all (fun s => decide (s.hi ≤ lo) || decide (hi ≤ s.lo) || isDone x ⟨x.id, x.level, j, s.idx, false⟩)

/-- The strip's tensors are written (R171). -/
def tensorsReady (m : Mod) (p : Fin 16) (x : Pass) (g : Prog) (i : Nat) (k : Kernel) (s : Strip) : Bool :=
  (reads k).all (fun t => match writerOf g i t with
    | none => true
    | some j => coveredBy m p x g j s.lo s.hi)

/-- The sequence's KV_APPEND of a layer has completed. -/
def appended (m : Mod) (p : Fin 16) (x : Pass) (g : Prog) (l seq : Nat) : Bool :=
  match layerInst g l 8 with
  | none => true
  | some j => (stripsOf m p x g j).all (fun s => s.seq != some seq || isDone x ⟨x.id, x.level, j, s.idx, false⟩)

/-- The body pages an ATTN strip reads that are not in Crest or Berm. -/
def missing (m : Mod) (p : Fin 16) (s : PassSeq) (lg : Nat) : List Nat :=
  match m.pol[p].sess.get s.sess with
  | none => []
  | some ses => (bodyPagesOf ses lg (attended m s lg)).filter (fun n => match getPage m p n with
      | some pg => !present pg
      | none => false)

/-- The body pages into which a sequence's KV_APPEND of a layer writes (R198). -/
def appendPages (m : Mod) (p : Fin 16) (s : PassSeq) (groups l : Nat) : List Nat :=
  match m.pol[p].sess.get s.sess, desc? m s.sess with
  | some ses, some d => dedup ((List.range groups).flatMap (fun g => bodyPagesOf ses (l * groups + g) (ownPages d s)))
  | _, _ => []

/-- A selection strip waits for a sequence and layer: no layer-group of the layer has its pages chosen yet (R212). -/
def selPending (s : PassSeq) (groups l : Nat) : Bool := (List.range groups).any (fun g => !s.sel.has (l * groups + g))

/-- The PROBE_BLOCKS blocks with most matches, ties to the higher block (R212). -/
def bestBlocks (q : Polder) (ses : Sess) (lg : Nat) : List Nat :=
  let qs := (ses.querySk.get lg).getD 0
  let score (b : Nat) : Nat := 256 - popcount (qs ^^^ ((ses.blockSk.get (kvIdx ses.geo b lg)).getD 0)) 256
  (sortBy (fun a b => decide (score b < score a) || (score a == score b && decide (b < a))) (List.range ses.blocks)).take q.recallCfg.probe

/-- The candidates of stage 2 (R212). -/
def candidates (q : Polder) (ses : Sess) (d : Desc) (lg : Nat) : List Nat :=
  let o := openPage d
  let sw := sinkWindow q.recallCfg o
  ((List.range o).filter (fun i => (bestBlocks q ses lg).contains (i / 256) || decide (256 * ses.blocks ≤ i))).filter (fun i =>
    !sw.contains i && ((ses.kv.get (kvIdx ses.geo i lg)).map KvPage.sketched).getD false)

/-- Selection of a layer-group: sinks, window and the RECALL_PAGES candidates with most matches, ties to the higher page
(R212). -/
def selectPages (q : Polder) (ses : Sess) (d : Desc) (lg : Nat) : List Nat :=
  let qs := (ses.querySk.get lg).getD 0
  let score (i : Nat) : Nat := 256 - popcount (qs ^^^ ((ses.sketch.get (kvIdx ses.geo i lg)).getD 0)) 256
  let cs := (sortBy (fun a b => decide (score b < score a) || (score a == score b && decide (b < a)))
    (candidates q ses d lg)).take q.recallCfg.pages
  let sw := sinkWindow q.recallCfg (openPage d)
  (List.range (openPage d + 1)).filter (fun i => sw.contains i || cs.contains i)

/-- Handshakes of a selection strip (R207). -/
def selHs (q : Polder) (ses : Sess) (d : Desc) (l : Nat) : Nat :=
  ((List.range ses.geo.groups).map (fun g =>
    cdiv ses.blocks 64 + cdiv (candidates q ses d (l * ses.geo.groups + g)).length 64)).sum

/-- The sketch and coarse pages a selection strip reads. -/
def selReads (q : Polder) (ses : Sess) (l : Nat) : List Nat :=
  dedup ((List.range ses.geo.groups).flatMap (fun g =>
    let lg := l * ses.geo.groups + g
    (List.range ses.blocks).map (fun b => coarsePageOf ses b lg) ++
    (bestBlocks q ses lg).map (fun b => sketchPageOf ses (256 * b) lg)))

/-- Every page of a list is in Crest or Berm, or holds zeros. -/
def allPresent (m : Mod) (p : Fin 16) (ns : List Nat) : Bool :=
  ns.all (fun n => match getPage m p n with
    | some pg => present pg
    | none => true)

/-- Selection strips of a pass that are ready: layer, sequence. -/
def selReady (m : Mod) (p : Fin 16) (x : Pass) (g : Prog) : List (Nat × Nat) :=
  if !x.target || x.deadlineDone then [] else
  x.seqs.zipIdx.flatMap (fun e => match m.pol[p].sess.get e.1.sess with
    | none => []
    | some ses => if !((desc? m e.1.sess).map Desc.sparse).getD false then [] else ((List.range g.layers).filter (fun l => e.1.at l && selPending e.1 g.kvGroups l &&
        allPresent m p (selReads m.pol[p] ses l))).map (fun l => (l, e.2)))

/-- A strip of the dispatcher's queues: its key, its place in program order, and its handshakes. -/
structure ReadyStrip where
  key : StripKey
  order : Nat
  hs : Nat
deriving DecidableEq, Repr

/-- The strips of a pass that are ready and neither placed nor done (R171). -/
def readyOf (m : Mod) (p : Fin 16) (x : Pass) : List ReadyStrip :=
  let free (k : StripKey) : Bool := !isDone x k && !x.placed.contains k
  match x.vec with
  | some v => (((List.range v.n).map (fun i => (⟨x.id, 0, 0, i, false⟩ : StripKey))).filter free).map (fun k => ⟨k, 0, v.hs⟩)
  | none => match passProg m.pol[p] x with
  | none => []
  | some g =>
    let sels := (selReady m p x g).filterMap (fun e =>
      let key : StripKey := ⟨x.id, x.level, e.1, e.2, true⟩
      match layerInst g e.1 8, x.seqs[e.2]? with
      | some o, some s => match m.pol[p].sess.get s.sess, desc? m s.sess with
        | some ses, some d => if free key then some (⟨key, 2 * o, selHs m.pol[p] ses d e.1⟩ : ReadyStrip) else none
        | _, _ => none
      | _, _ => none)
    sels ++ (List.range (progCount g)).flatMap (fun i => match progInst g i with
      | none => []
      | some (k, lay) => ((stripsOf m p x g i).filter (fun s =>
          free ⟨x.id, x.level, i, s.idx, false⟩ && tensorsReady m p x g i k s &&
          (if k.op == 3 then
            (match s.seq.bind (fun n => x.seqs[n]?) with
             | none => false
             | some sq =>
               let lg := lay.getD 0 * g.kvGroups + s.grp
               let sparse := ((desc? m sq.sess).map Desc.sparse).getD false
               appended m p x g (lay.getD 0) (s.seq.getD 0) && (!sparse || sq.sel.has lg) && (missing m p sq lg).isEmpty)
           else if k.op == 8 then
            (match s.seq.bind (fun n => x.seqs[n]?) with
             | none => false
             | some sq => allPresent m p (appendPages m p sq g.kvGroups (lay.getD 0)))
           else true))).map (fun s => ⟨⟨x.id, x.level, i, s.idx, false⟩, 2 * i + 1, s.hs⟩))

/-- The queue order of one job or class: pass start, program order, strip index (R173). -/
def candLt (q : Polder) (a b : ReadyStrip) : Bool :=
  let st (c : ReadyStrip) : Nat := ((passOf q c.key.pass).map Pass.start).getD 0
  let ka := (st a, a.key.pass, a.order, a.key.idx)
  let kb := (st b, b.key.pass, b.order, b.key.idx)
  if ka.1 != kb.1 then decide (ka.1 < kb.1)
  else if ka.2.1 != kb.2.1 then decide (ka.2.1 < kb.2.1)
  else if ka.2.2.1 != kb.2.2.1 then decide (ka.2.2.1 < kb.2.2.1)
  else decide (ka.2.2.2 < kb.2.2.2)

/-- A class's ready strips in queue order, those returned to the head first (R172, R187). -/
def readyList (m : Mod) (p : Fin 16) (lc : Bool) : List ReadyStrip :=
  let q := m.pol[p]
  let all := sortBy (candLt q) ((q.passes.filter (fun x => x.lc == lc)).flatMap (readyOf m p))
  (q.front.filterMap (fun k => all.find? (fun c => c.key == k))) ++ all.filter (fun c => !q.front.contains c.key)

/-- The head of the LC queue. -/
def headLc (m : Mod) (p : Fin 16) : Option ReadyStrip := (readyList m p true).head?

/-- The head of the BE queue: a returned strip, else the first strip of the next job in turn (R173). -/
def headBe (m : Mod) (p : Fin 16) : Option ReadyStrip :=
  let q := m.pol[p]
  let l := readyList m p false
  match l.find? (fun c => q.front.contains c.key) with
  | some c => some c
  | none =>
    let jobOf (c : ReadyStrip) : Nat := ((passOf q c.key.pass).map Pass.jobId).getD 0
    let after := l.filter (fun c => decide (q.lastJob < jobOf c))
    let pool := if after.isEmpty then l else after
    let j := (pool.map jobOf).foldl (fun (b : Option Nat) v => some (min v (b.getD v))) none
    pool.find? (fun c => some (jobOf c) == j)

def arrOf (q : Polder) (a : Nat) : ArrSlots := (q.arrays.get a).getD ArrSlots.blank

/-- A strip is put in a slot of an array; its waiting time counts when it is LC. -/
def place (m : Mod) (p : Fin 16) (a : Nat) (next : Bool) (lc : Bool) (c : ReadyStrip) : Mod :=
  let jid := ((passOf m.pol[p] c.key.pass).map Pass.jobId).getD 0
  let since := ((passOf m.pol[p] c.key.pass).bind (fun x => (x.since.find? (fun e => e.1 == c.key)).map (·.2))).getD m.pol[p].clk
  let m1 := modPol m p (fun q =>
    let s := arrOf q a
    { q with
      arrays := q.arrays.put a (if next then { s with nxt := some c.key } else { s with run := some c.key })
      front := q.front.filter (fun k => k != c.key)
      lastJob := if lc || q.front.contains c.key then q.lastJob else jid
      pw := { q.pw with stripAt := some m.hvl } })
  let m2 := modPass m1 p c.key.pass (fun x => { x with
    placed := x.placed ++ [c.key], since := x.since.filter (fun e => e.1 != c.key) })
  if lc then pinc m2 p Ctr.lcWaitNs (m.pol[p].clk - since) else m2

/-- Arrays by rank with those fenced left out. -/
def liveArrays (m : Mod) (p : Fin 16) : List (Nat × Nat) :=
  (m.pol[p].arrayList.zipIdx).filter (fun e => !arrayFenced m e.1)

/-- The class of a strip. -/
def keyLc (q : Polder) (k : StripKey) : Bool := ((passOf q k.pass).map Pass.lc).getD false

/-- The first half of R172: strips handed to arrays by rank. -/
def fillArrays (m : Mod) (p : Fin 16) : List (Nat × Nat) → Mod
  | [] => m
  | (a, rank) :: rest =>
    let s := arrOf m.pol[p] a
    if s.run.isSome && s.nxt.isSome then fillArrays m p rest
    else match headLc m p with
      | some c => fillArrays (place m p a s.run.isSome true c) p rest
      | none =>
        if m.pol[p].lcArrays ≤ rank && !m.sys.pw.beGate then
          match headBe m p with
          | some c => fillArrays (place m p a s.run.isSome false c) p rest
          | none => m
        else m

/-- The second half of R172: an LC strip takes the next slot of the highest-ranked array that stages a BE strip. -/
def withdraw (m : Mod) (p : Fin 16) : Nat → Mod
  | 0 => m
  | n + 1 =>
    match headLc m p with
    | none => m
    | some c =>
      match ((liveArrays m p).reverse).find? (fun e => match (arrOf m.pol[p] e.1).nxt with
          | some k => !keyLc m.pol[p] k
          | none => false) with
      | none => m
      | some (a, _) =>
        match (arrOf m.pol[p] a).nxt with
        | none => m
        | some k =>
          let m1 := modPol m p (fun q => { q with
            front := k :: q.front, arrays := q.arrays.upd a (fun s => { s with staged := s.staged.filter (fun e => e.1 != k) }) })
          let m2 := modPass m1 p k.pass (fun x => { x with placed := x.placed.filter (fun y => y != k) })
          withdraw (place (pinc m2 p Ctr.beWithdrawn 1) p a true true c) p n

/-- Strips that became ready are stamped. -/
def stampReady (m : Mod) (p : Fin 16) : Mod :=
  (readyList m p true).foldl (fun m c => modPass m p c.key.pass (fun x =>
    if x.since.any (fun e => e.1 == c.key) then x else { x with since := x.since ++ [(c.key, m.pol[p].clk)] })) m

/-- One run of the dispatcher of R172 fills at most one slot of each array. -/
def dispatchOnce (m : Mod) (p : Fin 16) : Mod :=
  let l := liveArrays m p
  withdraw (fillArrays (stampReady m p) p l) p l.length

/-- Weight tiles of a strip: its slot, whether a Crest image holds them, its kernel, the byte offset of the first, and their number (R147, R149). -/
def stripTiles (q : Polder) (key : StripKey) : Option (Nat × Bool × Kernel × Nat × Nat) :=
  match passOf q key.pass with
  | none => none
  | some x => if x.vec.isSome || key.select then none else match passProg q x with
    | none => none
    | some g => match progInst g key.inst with
      | none => none
      | some (k, lay) =>
        if k.op == 1 || k.op == 6 then
          let n := k.k / max 1 (tileK k.fmtS k.fmtT)
          some (x.slot, x.fromCrest, k, k.wOff + lay.getD 0 * g.layerStride + tileOff k (key.idx / 2 ^ 20) 0, n)
        else none

/-- The pages that hold bytes of a slot's image: of the Crest image, or of the Berm one. -/
def imagePagesAt (q : Polder) (slot : Nat) (crest : Bool) (off len : Nat) : List Nat :=
  let ns := (q.pages.filter (fun e => e.2.owner == (if crest then Owner.crestImage slot else Owner.weights slot))).map (·.1)
  ((List.range (ns.length)).filter (fun i => decide (off / 65536 ≤ i) && decide (i * 65536 < off + len))).filterMap (fun i => ns[i]?)

/-- Tiles number `lo` on of a strip read: their pages are accessed, and bytes from Berm pass the pump (R45, R149, R164). -/
def readTiles (m : Mod) (p : Fin 16) (key : StripKey) (lo n : Nat) : Mod :=
  match stripTiles m.pol[p] key with
  | none => m
  | some (slot, crest, k, off, _) =>
    if n == 0 then m
    else
      let tb := tileBytes k.fmtS k.fmtT
      let m1 := (imagePagesAt m.pol[p] slot crest (off + lo * tb) (n * tb)).foldl (fun m g => touch m p g) m
      if crest then m1 else pinc m1 p Ctr.pumpBytes (n * tb)

/-- Tiles of one strip staged on an array up to WEIGHT_AHEAD in its staging region (R148, R149). -/
def stageStrip (m : Mod) (p : Fin 16) (a : Nat) (key : StripKey) : Mod :=
  let s := arrOf m.pol[p] a
  match stripTiles m.pol[p] key with
  | none => m
  | some (slot, _, _, _, n) =>
    let have' := (s.staged.filter (fun e => e.1 == key)).length
    let room := ((m.pol[p].slots.get slot).map Slot.ahead).getD 0 - s.staged.length
    let k := min (n - have') room
    if k == 0 then m
    else
      let m1 := readTiles m p key have' k
      modPol m1 p (fun q => { q with arrays := q.arrays.upd a (fun s => { s with
        staged := s.staged ++ (List.range' have' k).map (fun i => (key, i)) }) })

/-- The pump and the fabric stage tiles for every array, its running strip before the next (R149, R164). -/
def stageAll (m : Mod) (p : Fin 16) : Mod :=
  (liveArrays m p).foldl (fun m e =>
    let s := arrOf m.pol[p] e.1
    (s.run.toList ++ s.nxt.toList).foldl (fun m k => stageStrip m p e.1 k) m) m

/-- The dispatcher runs until no slot changes: each array has two slots (R172). It starts no strip while issue is gated (R335, R340) or inside a
polder fence (R389). -/
def dispatch (m : Mod) (p : Fin 16) : Mod :=
  if m.pol[p].passes.isEmpty || m.pol[p].fenced || m.sys.pw.gate then m else stageAll (dispatchOnce (dispatchOnce m p) p) p

end Sys2Proof.Machine
end

