-- ==== Sys2Proof/Machine/Compute.lean ====
section
/-! DEFINITION. What a strip computes: its operands from activations, weight tiles, KV pages and tables (R134, R147, R158, R206), the
reductions (R135, R136, R205), and the edge unit's steps in the order of R159. A value the spec leaves open is free (log entries 10,
56 and 58); the order in which terms arrive is the command's operand (R140). -/

namespace Sys2Proof.Machine

/-- Elements whose value the spec does not state, in a format. -/
def openElems (n fmt w : Nat) : ERow :=
  ⟨fmt, (List.range w).map (fun i => Config.openCode n i % 2 ^ fmtBits fmt),
    if fmtIsMx fmt then (List.range (w / 32)).map (fun i => Config.openCode n (w + i) % 256) else []⟩

/-- Bytes of session space from an address on, as a little-endian number (R15); a page without contents reads as zero. -/
def readSpace (q : Polder) (ssa len : Nat) : Nat :=
  (List.range (cdiv (ssaByte ssa + len) 65536)).foldl (fun v i =>
    v + ((q.pages.get (ssaPage ssa + i)).map (fun g => g.body % 2 ^ 524288)).getD 0 * 2 ^ (524288 * i)) 0 >>> (8 * ssaByte ssa) % 2 ^ (8 * len)

/-- The activations of a sequence, or of a job's rows. -/
def actsOf (x : Pass) (seq : Nat) : List Act := if x.job.isSome then x.acts else ((x.seqs[seq]?).map PassSeq.acts).getD []

/-- A row put together from the parts its strips wrote, by column block. -/
def joinActs (l : List Act) : Option ERow :=
  match sortBy (fun a b : Act => decide (a.blk < b.blk)) l with
  | [] => none
  | a :: t => some (t.foldl (fun r b => r.append ⟨b.fmt, b.codes, b.scales⟩) ⟨a.fmt, a.codes, a.scales⟩)

/-- The row a kernel instance wrote for a node. -/
def actRow (x : Pass) (level inst : Nat) (sn : Nat × Nat) : Option ERow :=
  joinActs ((actsOf x sn.1).filter (fun a => a.level == level && a.inst == inst && a.node == sn.2))

/-- The token id of a row of a pass: tensor 0, the pass input (R156, R184, R231, R232). -/
def rowToken (q : Polder) (x : Pass) (sn : Nat × Nat) : Nat :=
  match x.job with
  | some t =>
    match q.jobs.find? (fun j => j.tag == t) with
    | none => 0
    | some j => readSpace q (((findTaken q t).map (fun t => fld t.entry 16 0 64)).getD 0 + 4 * (x.first * j.itemTokens + sn.2)) 4
  | none => (((x.seqs[sn.1]?).bind (fun s => (s.toks[sn.2]?).getD none))).getD 0

/-- The parent of a node. -/
def nodeParent (s : PassSeq) (v : Nat) : Nat := (s.parents[v - 1]?).getD 0

/-- Tensor 2 of a draft row: the stored feature row at the root, else the draft's tensor 1 for the parent row (R229, R232). -/
def draftFeature (m : Mod) (p : Fin 16) (x : Pass) (g : Prog) (sn : Nat × Nat) : Option ERow :=
  match x.seqs[sn.1]? with
  | none => none
  | some s =>
    if sn.2 == 0 then
      match m.pol[p].sess.get s.sess, g.tensors[2]? with
      | some ses, some t => some ⟨t.fmt, ses.gen.feature.take t.width, ses.gen.feature.drop t.width⟩
      | _, _ => none
    else match writerOf g (g.pro.length + g.layers * g.layer.length) 1 with
      | none => none
      | some j => actRow x (x.level - 1) j (sn.1, nodeParent s sn.2)

/-- A row of a tensor as kernel instance i reads it (R171); what no kernel wrote, or with another width, is open. -/
def tensorRow (m : Mod) (p : Fin 16) (x : Pass) (g : Prog) (i t : Nat) (sn : Nat × Nat) : ERow :=
  let w := widthOf g t
  let r := match writerOf g i t with
    | some j => actRow x x.level j sn
    | none => if t == 2 && !x.target then draftFeature m p x g sn else none
  match r with
  | some r => if r.codes.length == w then r else openElems m.free (fmtOf g t) w
  | none => openElems m.free (fmtOf g t) w

/-- A row as an array operand of a format and a length; a row written in another format is open there. -/
def asOperand (n fmt k : Nat) (r : ERow) : ERow := if r.fmt == fmt && r.codes.length == k then r else openElems n fmt k

/-- A layer kernel's byte offsets take the layer's stride (R156). -/
def layOff (g : Prog) (lay : Option Nat) (o : Nat) : Nat := o + lay.getD 0 * g.layerStride

/-- What a kernel instance works on. -/
structure KEnv where
  m : Mod
  p : Fin 16
  x : Pass
  g : Prog
  inst : Nat
  k : Kernel
  lay : Option Nat
  img : Nat
  order : List (List Nat)

def KEnv.free (e : KEnv) : Nat := e.m.free
def KEnv.ord (e : KEnv) (i : Nat) : List Nat := (e.order[i]?).getD []
def KEnv.row (e : KEnv) (t : Nat) (sn : Nat × Nat) : ERow := tensorRow e.m e.p e.x e.g e.inst t sn

/-- The edge unit's steps on column results that begin at column c0 (R159): TSCALE, the column scale, the bias, FUNC and RES, each
rounded to FP32 (R119). -/
def edgeSteps (e : KEnv) (c0 : Nat) (res : Option (List F32)) (vs : List F32) : List F32 :=
  let k := e.k
  let bias := k.biasOff != 0 && !(k.op == 4 && k.attr % 256 == 5)
  vs.zipIdx.map (fun v =>
    let c := c0 + v.2
    let a := eMul v.1 k.tscale
    let b := if k.csOff != 0 then eMul a (f32At e.img (layOff e.g e.lay k.csOff) c) else a
    let d := if bias then eAdd b (f32At e.img (layOff e.g e.lay k.biasOff) c) else b
    let f := runFunc k.func e.free d
    match res with
    | some l => eAdd f ((l[c]?).getD (Config.openF32 e.free))
    | none => f)

/-- RES of a row, as FP32 (R158). -/
def resOf (e : KEnv) (sn : Nat × Nat) : Option (List F32) :=
  if e.k.res == 0xFFFF then none else some ((e.row e.k.res sn).f32)

/-- One row of results ready to leave: the FP32 values, what they are converted to, and the column results they came from. -/
structure OutRow where
  vals : List F32
  conv : ConvRow
  cols : List ColVal
deriving DecidableEq, Repr

/-- Output conversion (R141 to R143): an INT32 result passes to INT32 unchanged; an FP32 value has no conversion to INT32, so its code
there is open. -/
def outRow (e : KEnv) (c0 : Nat) (res : Option (List F32)) (cols : List ColVal) : OutRow :=
  if e.k.fmtO == 0xD then
    ⟨cols.map ColVal.f32, ⟨cols.zipIdx.map (fun c => match c.1 with
      | .i v => v % 2 ^ 32
      | .f _ => Config.openCode e.free (c0 + c.2) % 2 ^ 32), [], 0, (cols.filter (fun c => f32IsNan c.f32)).length⟩, cols⟩
  else
    let vs := edgeSteps e c0 res (cols.map ColVal.f32)
    ⟨vs, convRow e.k.fmtO e.k.outSat vs, cols⟩

/-- A row of a streaming operand against the columns of a stationary one. -/
def dotRow (e : KEnv) (row : Nat) (a : ERow) (cols : List ERow) : List ColVal :=
  cols.zipIdx.map (fun c => dot (e.ord (row * 64 + c.2)) c.1 a e.k.k)

/-- The rows of one item, or of one sequence: what MATMUL_A reads together (Table 05-4). -/
def itemRows (e : KEnv) (sn : Nat × Nat) : List (Nat × Nat) :=
  match e.x.job with
  | some t =>
    let n := ((e.m.pol[e.p].jobs.find? (fun j => j.tag == t)).map Job.itemTokens).getD 1
    (List.range n).map (fun i => (0, sn.2 / max 1 n * n + i))
  | none => (passRows e.m.pol[e.p] e.x).filter (fun r => r.1 == sn.1)

/-- Column c of the stationary operand of MATMUL_A: row c of IN_A where its width is K, else element c of each of its K rows
(log entry 59). -/
def actColumn (e : KEnv) (sn : Nat × Nat) (c : Nat) : ERow :=
  let rows := itemRows e sn
  if widthOf e.g e.k.inA == e.k.k then
    match rows[c]? with
    | some r => asOperand e.free e.k.fmtS e.k.k (e.row e.k.inA r)
    | none => openElems e.free e.k.fmtS e.k.k
  else
    let cs := (rows.take e.k.k).map (fun r => ((e.row e.k.inA r).codes[c]?).getD 0)
    asOperand e.free e.k.fmtS e.k.k ⟨if fmtIsMx e.k.fmtS then 0xE else fmtOf e.g e.k.inA, cs, []⟩

/-- A MATMUL strip: one block of 64 columns for some rows (R134 to R139, Table 05-6). -/
def matmulRows (e : KEnv) (blk : Nat) (rows : List (Nat × Nat)) : List OutRow :=
  let cols := if e.k.op == 2 then [] else
    (List.range 64).map (fun c => weightColumn e.img (layOff e.g e.lay e.k.wOff) e.k (64 * blk + c))
  rows.zipIdx.map (fun r =>
    let a := asOperand e.free e.k.fmtT e.k.k (e.row (if e.k.op == 2 then e.k.inB else e.k.inA) r.1)
    let cs := if e.k.op == 2 then (List.range 64).map (fun c => actColumn e r.1 (64 * blk + c)) else cols
    outRow e (64 * blk) (resOf e r.1) (dotRow e r.2 a cs))

/-- The mean of n values, from their sum (log entry 58). -/
def meanOf (s : F32) (n : Nat) : F32 := flushF32 (toF32 ((ofF32 s).div (.fin false n 0)))

/-- The rotary position of a row (R231). -/
def rowPos (e : KEnv) (sn : Nat × Nat) : Nat :=
  match e.x.job with
  | some t => sn.2 % max 1 (((e.m.pol[e.p].jobs.find? (fun j => j.tag == t)).map Job.itemTokens).getD 1)
  | none => match e.x.seqs[sn.1]? with
    | none => 0
    | some s => ((desc? e.m s.sess).map Desc.tokens).getD 0 + nodeDepth s.parents sn.2

/-- An EDGE operation on a row (Table 05-4): `i` numbers the row's sums. A sub-operation the table does not list gives open values. -/
def edgeOp (e : KEnv) (i : Nat) (sn : Nat × Nat) (a b : List F32) : List F32 :=
  let n := a.length
  let norm (l : List F32) : List F32 :=
    let r := Fn.rsqrt.run e.free (eAdd (meanOf (rowSum (e.ord (2 * i)) (l.map (fun w => eMul w w))) n) Config.normEps)
    l.map (fun w => eMul w r)
  match e.k.attr % 256 with
  | 0 => norm a
  | 1 => let mu := meanOf (rowSum (e.ord (2 * i + 1)) a) n
         norm (a.map (fun w => eSub w mu))
  | 2 =>
    let mx := rowMax a
    let ex := a.map (fun w => Fn.exp.run e.free (eSub w mx))
    let r := Fn.recip.run e.free (rowSum (e.ord (2 * i)) ex)
    ex.map (fun w => eMul w r)
  | 3 => a.zipWith eAdd b
  | 4 => a.zipWith eMul b
  | 5 => (List.range n).map (fun j => ((Config.rotary a (rowPos e sn) (e.img >>> (8 * layOff e.g e.lay e.k.biasOff)))[j]?).getD
      (Config.openF32 e.free))
  | _ => (List.range n).map (fun j => Config.edgeValue e.free (32 + j) 0#32)

/-- An EDGE strip (Table 05-6). -/
def edgeRows (e : KEnv) (rows : List (Nat × Nat)) : List OutRow :=
  rows.zipIdx.map (fun r =>
    let a := (e.row e.k.inA r.1).f32
    let b := if e.k.inB == 0xFFFF then List.replicate a.length (Config.openF32 e.free) else (e.row e.k.inB r.1).f32
    outRow e 0 (resOf e r.1) ((edgeOp e r.2 r.1 a b).map ColVal.f))

/-- A GATHER strip: the rows of the image's table that the token ids select (Table 05-4, log entry 59). A row past the image is open. -/
def gatherRows (e : KEnv) (rows : List (Nat × Nat)) : List OutRow :=
  rows.map (fun r =>
    let id := rowToken e.m.pol[e.p] e.x r
    let w := widthOf e.g e.k.out
    let off := layOff e.g e.lay e.k.wOff
    let row := if off + tableBytes e.k.fmtS w (id + 1) ≤ e.g.imageBytes then tableRow e.img off e.k.fmtS w id
      else openElems e.free e.k.fmtS w
    outRow e 0 (resOf e r) (row.f32.map ColVal.f))

/-- A POOL_OUT item: the mean of its rows (Table 05-4). -/
def poolItem (e : KEnv) (i item n : Nat) : OutRow :=
  let rows := (List.range n).map (fun j => (e.row e.k.inA (0, item * n + j)).f32)
  let w := widthOf e.g e.k.inA
  outRow e 0 (resOf e (0, item * n + n - 1)) ((List.range w).map (fun c =>
    .f (meanOf (rowSum (e.ord (i * w + c)) (rows.map (fun r => (r[c]?).getD 0#32))) n)))

/-- The K and V rows of a KV_APPEND row: each element times TSCALE (R191). -/
def appendVals (e : KEnv) (sn : Nat × Nat) : List F32 × List F32 :=
  ((e.row e.k.inA sn).f32.map (fun w => eMul w e.k.tscale), (e.row e.k.inB sn).f32.map (fun w => eMul w e.k.tscale))

/-- The KV row of a position of a layer-group. -/
def kvRowAt (s : Sess) (pos lg : Nat) : Option KvRow := (s.kv.get (kvIdx s.geo (pos / 16) lg)).bind (fun k => k.rows.get (pos % 16))

/-- A node is itself or an ancestor of node v (R205, R231). -/
def inPath (parents : List Nat) (v u : Nat) : Bool := u == 0 || (pathTo parents (parents.length + 1) v).contains u

/-- A token an ATTN row looks at: its position, and whether the speculation mask excludes it (R205, R231). -/
def attnTokens (d : Desc) (s : PassSeq) (node : Nat) (pages : List Nat) : List (Nat × Bool) :=
  pages.flatMap (fun i => (List.range 16).filterMap (fun t =>
    let pos := 16 * i + t
    if pos < d.tokens then some (pos, false)
    else if pos - d.tokens ≤ s.parents.length then some (pos, !inPath s.parents node (pos - d.tokens))
    else none))

/-- The running values of R205. -/
structure AttnAcc where
  mx : F32
  l : F32
  acc : List F32
deriving DecidableEq, Repr

/-- What the attention of one query head reads: the query, the KV head's first element and HEAD_DIM, the format of the rows, TSCALE, and
the format of p. -/
structure AttnEnv where
  q : ERow
  base : Nat
  dim : Nat
  fmt : Nat
  tscale : F32
  free : Nat

/-- HEAD_DIM elements of a K or V row from an element on. -/
def ERow.slice (r : ERow) (lo n : Nat) : ERow := ⟨r.fmt, (r.codes.drop lo).take n, (r.scales.drop (lo / 32)).take (cdiv n 32)⟩

/-- One 64-token tile of R205: scores with K stationary, then p·v with V stationary, each V element with its own block scale (R206).
`ord` numbers the tile's reductions: 64 scores, the row sum, one per element. -/
def attnTile (a : AttnEnv) (ord : Nat → List Nat) (z : AttnAcc) (tile : List (Bool × KvRow)) : AttnAcc :=
  let s := tile.zipIdx.map (fun e => if e.1.1 then f32NegInf
    else eMul a.tscale (dotF32 (ord e.2) ((kRow a.fmt e.1.2).slice a.base a.dim) a.q a.dim))
  let m2 := eMax z.mx (rowMax s)
  let c := if z.mx == f32NegInf then 0#32 else Fn.exp.run a.free (eSub z.mx m2)
  let ps := (s.zip tile).map (fun e => if e.2.1 then 0#32 else Fn.exp.run a.free (eSub e.1 m2))
  let pr : ERow := ⟨a.q.fmt, (convRow a.q.fmt true ps).codes, []⟩
  let pv (j : Nat) : F32 := (arrange (ord (65 + j)) ((tile.zipIdx.filter (fun e => !e.1.1)).map (fun e =>
    (pr.at e.2).mul ((vRow a.fmt e.1.2).at (a.base + j))))).foldl accAdd 0#32
  { mx := m2, l := eAdd (eMul z.l c) (rowSum (ord 64) ps)
    acc := z.acc.zipIdx.map (fun e => eAdd (eMul e.1 c) (pv e.2)) }

/-- The attention of one query head over its tokens (R205). -/
def attnHead (a : AttnEnv) (ord : Nat → List Nat) (toks : List (Bool × KvRow)) : List F32 :=
  let tiles := chunks 64 (toks.length / 64 + 1) toks
  let z := tiles.zipIdx.foldl (fun z t => attnTile a (fun i => ord (t.2 * (65 + a.dim) + i)) z t.1)
    { mx := f32NegInf, l := 0#32, acc := List.replicate a.dim 0#32 }
  let r := Fn.recip.run a.free z.l
  z.acc.map (fun w => eMul w r)

/-- The query elements of a KV group in a row of IN_A: group-major, then KV head, then query head (R190). -/
def groupQuery (k : Kernel) (grp : Nat) (r : ERow) : ERow :=
  let n := kvHeads k.attr * qPerKv k.attr * headDim k.attr
  r.slice (grp * n) n

/-- An ATTN strip: the query heads of one KV group for some rows of one sequence (R205 to R207, R190). -/
def attnRows (e : KEnv) (grp : Nat) (rows : List (Nat × Nat)) : List OutRow :=
  let dim := headDim e.k.attr
  let per := qPerKv e.k.attr
  let heads := kvHeads e.k.attr
  rows.zipIdx.map (fun r =>
    match (e.x.seqs[r.1.1]?).bind (fun s => (e.m.pol[e.p].sess.get s.sess).bind (fun ses => (desc? e.m s.sess).map (fun d => (s, ses, d)))) with
    | none => outRow e 0 none []
    | some (s, ses, d) =>
      let lg := e.lay.getD 0 * e.g.kvGroups + grp
      let toks := (attnTokens d s r.1.2 (attended e.m s lg)).filterMap (fun t => (kvRowAt ses t.1 lg).map (fun kv => (t.2, kv)))
      let q := groupQuery e.k grp (e.row e.k.inA r.1)
      let tiles := toks.length / 64 + 1
      let out := (List.range (heads * per)).flatMap (fun h => attnHead
        { q := q.slice (h * dim) dim, base := h / per * dim, dim := dim, fmt := ses.geo.fmt, tscale := e.k.tscale, free := e.free }
        (fun i => e.ord (((r.2 * heads * per + h) * tiles) * (65 + dim) + i)) toks)
      let c0 := grp * (heads * per * dim)
      let vs := match resOf e r.1 with
        | some l => out.zipIdx.map (fun v => eAdd v.1 ((l[c0 + v.2]?).getD (Config.openF32 e.free)))
        | none => out
      ⟨vs, convRow e.k.fmtO e.k.outSat vs, vs.map ColVal.f⟩)

/-- The result rows of a strip that writes a tensor or logits. -/
def stripValues (e : KEnv) (s : Strip) (rows : List (Nat × Nat)) : List OutRow :=
  match e.k.op with
  | 3 => attnRows e s.grp rows
  | 4 => edgeRows e rows
  | 5 => gatherRows e rows
  | 7 => []
  | 8 => []
  | _ => matmulRows e s.grp rows

/-- The bytes of a row of an output tile (R144). -/
def rowTile (fmt : Nat) (c : ConvRow) : Nat := pack (c.codes.map (fun v => (fmtBits fmt, v)) ++ c.scales.map (fun v => (8, v)))

/-- The output tile is checked before it leaves the array (R144): an error in its bytes that its residue shows is a mismatch, and the
recomputed tile leaves (R145); one that the residue does not show leaves with the tile. The tile and the mismatch. -/
def checkTile (tile flip : Nat) : Nat × Bool :=
  let t := tile ^^^ flip
  if residue t == residue tile then (t, false) else (tile, true)

/-- A row as it leaves the array. -/
def leaveTile (fmt flip : Nat) (c : ConvRow) : ConvRow × Bool :=
  let b := fmtBits fmt
  let n := c.codes.length
  let len := n * b + 8 * c.scales.length
  let (t, bad) := checkTile (rowTile fmt c) (flip % 2 ^ len)
  ({ c with codes := (List.range n).map (fun i => bitsAt t (b * i) b)
            scales := (List.range c.scales.length).map (fun i => bitsAt t (b * n + 8 * i) 8) }, bad)

end Sys2Proof.Machine
end

