-- ==== Sys2Proof/Machine/GenStep.lean ====
section
/-! DEFINITION. What the sampler unit and the dispatcher do as strips of a pass finish: draft picks (R232), the decided step
and its commit (R233, R234, R237, Table 07-4), and the step boundary with the commands and settings that waited for it
(R31, R178, R236). -/

namespace Sys2Proof.Machine

def reqOf (q : Polder) (tag : Nat) : Option Req := q.reqs.find? (fun r => r.tag == tag)
def modReq (m : Mod) (p : Fin 16) (tag : Nat) (f : Req → Req) : Mod :=
  modPol m p (fun q => { q with reqs := updWhere q.reqs (fun r => r.tag == tag) f })

/-- The LOGITS row of a node at a level, its column blocks in order. -/
def logitsRow (s : PassSeq) (level node : Nat) : List F32 :=
  (sortBy (fun a b => decide (a.1 < b.1)) ((s.logits.filter (fun e => e.1 == level && e.2.1 == node)).map (fun e => e.2.2))).flatMap (·.2)

/-- A row's distribution with its ancestors' tokens (R232, R239). -/
def rowDist (m : Mod) (vocab : Nat) (sp : SampPage) (s : PassSeq) (level node : Nat) : Option Dist :=
  distribution m.free vocab sp s.mask (sp.hist ++ pathToks s.parents s.toks node) (logitsRow s level node)

/-- The children of a node take their tokens from its draft distribution (R232). -/
def pickKids (m : Mod) (p : Fin 16) (g : Gen) (d : Dist) (ks : List Nat) : Option (List (Nat × Nat)) × Mod :=
  if g.specMode == 1 && !g.greedy then
    let r := sample m p d
    (r.1.map (fun t => ks.map (fun c => (c, t))), r.2)
  else (some (ks.zip ((d.kept.filter (fun e => f32Lt 0#32 e.2)).map (·.1))), m)

/-- The sampler unit reads the sampler page for a row, and a draft's root row reads the feature region: accesses (R45, R229). -/
def readHead (m : Mod) (p : Fin 16) (s : Sess) (feat : Bool) : Mod :=
  let m1 := accessPage m p s.sampPg
  if feat then (List.range s.featN).foldl (fun m i => accessPage m p (s.featPg + i)) m1 else m1

/-- One draft row processed. -/
def draftNode (p : Fin 16) (id i level vocab : Nat) (m : Mod) (v : Nat) : Mod :=
  match (passOf m.pol[p] id).bind (fun x => x.seqs[i]?) with
  | none => m
  | some s =>
    match m.pol[p].sess.get s.sess with
    | none => m
    | some ses =>
      if s.ended.isSome || ((s.toks[v]?).getD none).isNone then m
      else
        let m0 := readHead { m with free := m.free + 1 } p ses (v == 0)
        let m1 := pinc m0 p Ctr.samplerRows 1
        match rowDist m vocab ses.samp s level v with
        | none => modPassSeq m1 p id i (fun s => { s with ended := some stBadCmd })
        | some d =>
          match pickKids m1 p ses.gen d (kids s.parents v) with
          | (none, m2) => modPassSeq m2 p id i (fun s => { s with ended := some stRetry })
          | (some cs, m2) => modPassSeq m2 p id i (fun s => { s with
              toks := cs.foldl (fun t c => t.set c.1 (some c.2)) s.toks
              qdist := if ses.gen.greedy then s.qdist else s.qdist ++ cs.map (fun c => (c.1, d.kept)) })

/-- A draft level done: its rows are processed in row order of the pass (R232, R240). -/
def draftLevel (m : Mod) (p : Fin 16) (x : Pass) : Mod :=
  let vocab := ((m.pol[p].slots.get x.slot).map (fun s => s.man.main.vocab)).getD 0
  (passRows m.pol[p] x).foldl (fun m r => draftNode p x.id r.1 x.level vocab m r.2) m

/-- The decision of a step (Table 07-4 steps 4 and 5): the emitted tokens, the accepted path, and the log-probabilities. -/
structure Decision where
  emits : List Emit
  path : List Nat
  lps : List Nat
deriving DecidableEq, Repr

/-- The target rows of a sequence processed and decided (R233, R237, R239). The error is the status the step ends with. -/
def decideStep (m : Mod) (p : Fin 16) (x : Pass) (s : PassSeq) (ses : Sess) (r : Req) : Except Nat Decision × Mod :=
  let vocab := ((m.pol[p].slots.get x.slot).map (fun s => s.man.main.vocab)).getD 0
  let nodes := (List.range (s.parents.length + 1)).filter (fun v => ((s.toks[v]?).getD none).isSome)
  let ds := nodes.map (fun v => (v, rowDist m vocab ses.samp s x.level v))
  let m1 := pinc (readHead { m with free := m.free + 1 } p ses false) p Ctr.samplerRows nodes.length
  if ds.any (fun e => e.2.isNone) then (.error stBadCmd, m1)
  else
    let dist (v : Nat) : Option Dist := (ds.find? (fun e => e.1 == v)).bind (·.2)
    let res := if ses.gen.specMode == 2 && !s.parents.isEmpty then
        acceptTree m1 p dist s.parents s.toks (s.parents.length + 2) 0 []
      else acceptLinear m1 p ses.gen.greedy (ds.filterMap (·.2)) (fun j => ((s.qdist.find? (fun e => e.1 == j + 1)).map (·.2)).getD [])
        (s.parents.length + 2) 0 (s.toks.drop 1)
    match res.1.bonus with
    | none => (.error stRetry, res.2)
    | some b =>
      let path := res.1.path
      let drafts := path.zipIdx.map (fun e => (((s.toks[e.1]?).getD none).getD 0, if e.2 == 0 then 0 else (path[e.2 - 1]?).getD 0, true))
      let es := cut ses.samp.eos ses.samp.stops (r.maxTok - r.emitted) r.toks (drafts ++ [(b, path.getLast?.getD 0, false)])
      let lps := es.map (fun e => match dist e.node with
        | some d => f32ToF16 ((d.lp[e.tok]?).getD 0#32)
        | none => 0)
      (.ok ⟨es, path, lps⟩, res.2)

/-- A KV row written at a position of a layer-group (R198): a write to its body page. -/
def writeKvRow (m : Mod) (p : Fin 16) (idx pos lg : Nat) (r : KvRow) : Mod :=
  match m.pol[p].sess.get idx with
  | none => m
  | some s =>
    let d := kvIdx s.geo (pos / 16) lg
    let m1 := modSess m p idx (fun s => { s with kv := s.kv.upd d (fun k => { k with rows := k.rows.put (pos % 16) r }) })
    match s.kv.get d with
    | some k => writeBlocks m1 p (bodyPage k) (blocksAt (ssaByte k.body) s.geo.bodyBytes) id
    | none => m1

/-- Accepted tree rows moved into consecutive positions, in ascending order (R234). -/
def moveRows (m : Mod) (p : Fin 16) (idx base lgs : Nat) (nodes : List Nat) : Mod :=
  nodes.zipIdx.foldl (fun m e =>
    if e.1 == e.2 then m else (List.range lgs).foldl (fun m lg =>
      match (m.pol[p].sess.get idx).bind (fun s => kvRowAt s (base + e.1) lg) with
      | some r => writeKvRow m p idx (base + e.2) lg r
      | none => m) m) m

/-- A step's tokens journaled: they are released when the buddy holds them (Table 07-4 step 6, R111, R243). A record that cannot be sent holds
nothing back, but tokens leave in order (R32): behind a step that still waits they wait with it. -/
def journalStep (m : Mod) (p : Fin 16) (idx step : Nat) (toks : List Nat) (x : Release) : Mod :=
  match desc? m idx with
  | none => m
  | some d =>
    if m.jr.buddy.isNone then actTokens (modPol m p (fun q => { q with releases := q.releases ++ [{ x with jseq := 0 }] })) p 0
    else
      let (n, m1) := sendRec m idx { recOf 4 d.pol d with step := step, toks := toks }
      let before := (m1.pol[p].releases.filter (fun y => y.req == x.req)).getLast?
      let m2 := modPol m1 p (fun q => { q with releases := q.releases ++ [{ x with jseq := if n == 0 then (before.map Release.jseq).getD 0 else n }] })
      if m1.jr.down || (n == 0 && before.isNone) then actTokens m2 p n
      else if n == 0 then m2
      else { m2 with jr := { m2.jr with acts := m2.jr.acts ++ [(n, .tokens p.val)] } }

/-- The session's state after k committed rows at a step: positions, generation state, history and feature (R199, R226,
R234, Table 07-4 step 7). -/
def commitState (m : Mod) (p : Fin 16) (idx job k step : Nat) (toks : List Nat) (feat : Option (List Nat)) : Mod :=
  match desc? m idx with
  | none => m
  | some d =>
    let m1 := commitKv m p idx d.sparse d.tokens (d.tokens + k) step
    let m2 := modDesc m1 idx (fun d => { d with tokens := d.tokens + k, step := step, job := job })
    let m3 := modSess m2 p idx (fun s => { s with
      qsValid := s.qsValid || (d.sparse && (List.range s.geo.lgs).all (fun lg => s.querySk.has lg))
      samp := { s.samp with hist := lastN 4096 (s.samp.hist ++ toks), head := (s.samp.head + toks.length) % 4096 }
      gen := { s.gen with
        pendTok := (toks.getLast?).getD s.gen.pendTok, pendValid := true, nextSeq := (s.gen.nextSeq + toks.length) % 2 ^ 32
        featValid := s.gen.featValid || feat.isSome, feature := feat.getD s.gen.feature } })
    match m3.pol[p].sess.get idx with
    | none => m3
    | some s =>
      let m4 := writePage (writeBlocks m3 p s.rootPg 1 id) p s.sampPg id
      if feat.isSome then (List.range s.featN).foldl (fun m i => writePage m p (s.featPg + i) id) m4 else m4

/-- The instance that writes the last layer's tensor 1 (R229, R234). -/
def featInst (g : Prog) : Option Nat := writerOf g (g.pro.length + g.layers * g.layer.length) 1

/-- The feature row of a node: the target's last-layer tensor 1 at its row, elements then block scales (R229, R234). -/
def featRow (x : Pass) (g : Prog) (i node : Nat) : List Nat :=
  match (featInst g).bind (fun j => actRow x x.level j (i, node)) with
  | some r => r.codes ++ r.scales
  | none => []

/-- A decided step committed and its tokens journaled (Table 07-4 steps 6 to 8, R234, R237). -/
def commitStep (m : Mod) (p : Fin 16) (x : Pass) (i : Nat) (s : PassSeq) (r : Req) (dn : Decision) : Mod :=
  match desc? m s.sess, m.pol[p].sess.get s.sess with
  | some d, some ses =>
    let k := dn.emits.length
    let rows := 0 :: dn.path.take (k - 1)
    let m1 := moveRows m p s.sess d.tokens ses.geo.lgs rows
    let job := ((findTaken m.pol[p] r.tag).map Taken.job).getD d.job
    let toks := dn.emits.map Emit.tok
    let m2 := commitState m1 p s.sess job k (d.step + 1) toks (some (match (m.pol[p].slots.get x.slot).map (fun z => z.man.main) with
      | some g => featRow x g i ((rows.getLast?).getD 0)
      | none => []))
    let drafts := (dn.emits.filter Emit.draft).length
    let spec := !s.parents.isEmpty
    let m3 := pincIf m2 p spec Ctr.specSteps
    let m4 := if spec then pinc (pinc m3 p Ctr.specDrafted ((s.toks.drop 1).filter Option.isSome).length) p Ctr.specAccepted drafts else m3
    let m5 := pincIf m4 p s.short Ctr.recallShortSteps
    let entries := dn.emits.zipIdx.map (fun e =>
      { tok := e.1.tok, seq := (ses.gen.nextSeq + e.2) % 2 ^ 32, lpValid := ses.samp.logprob, draft := e.1.draft, eos := e.1.eos,
        stop := e.1.stop.isSome, last := e.1.last.isSome, short := s.short, first := r.emitted == 0 && e.2 == 0, phase := false,
        logprob := if ses.samp.logprob then (dn.lps[e.2]?).getD 0 else 0, step := (d.step + 1) % 2 ^ 32 : TokEntry })
    let m6 := modReq m5 p r.tag (fun r => { r with
      emitted := r.emitted + k, accepted := r.accepted + drafts, toks := lastN 32 (r.toks ++ toks), short := r.short || s.short })
    let m7 := journalStep m6 p s.sess (d.step + 1) toks { jseq := 0, req := r.tag, entries := entries }
    match dn.emits.getLast? with
    | some e => match e.last with
      | some c => endReq m7 p r.tag stOk c (e.stop.getD 0)
      | none => m7
    | none => m7
  | _, _ => m

/-- A sequence of a finished target level: decided and committed, or ended. -/
def sampleSeq (p : Fin 16) (id : Nat) (m : Mod) (i : Nat) : Mod :=
  match passOf m.pol[p] id with
  | none => m
  | some x =>
    match x.seqs[i]? with
    | none => m
    | some s =>
      if s.ended.isSome || s.held.isSome then m
      else match m.pol[p].sess.get s.sess, reqOf m.pol[p] s.req with
        | some ses, some r =>
          (match decideStep m p x s ses r with
           | (.error st, m1) => modPassSeq m1 p id i (fun s => { s with ended := some st })
           | (.ok dn, m1) => commitStep m1 p x i s r dn)
        | _, _ => m

/-- A settings change applied (R228, R236). -/
def applySetting (s : Sess) (x : Setting) : Sess :=
  match x with
  | .spec mode greedy len nodes parents => { s with
      gen := { s.gen with specMode := mode, greedy := greedy, draftLen := len, treeNodes := nodes, treeParent := parents } }
  | .samp pr none => { s with samp := { s.samp with
      pr := pr, logprob := false, eos := 0xFFFFFFFF, bias := [], stops := [], maskStatic := false, mask := 0 } }
  | .samp pr (some b) => { s with samp := { s.samp with
      pr := pr, logprob := b.logprob, maskStatic := b.maskStatic, eos := b.eos, bias := b.bias, stops := b.stops,
      mask := if b.maskStatic then b.mask else s.samp.mask } }

/-- GEN_STOP takes effect (R225): the running request and every queued one end with ABORTED. -/
def stopNow (m : Mod) (p : Fin 16) (idx tag : Nat) : Mod := complete (endSessReqs m p idx stAborted 5) p tag (rOk 0)

/-- One waiting command of a session takes effect, if the session can still take it (R31, Table 03-13). -/
def runWait (m : Mod) (p : Fin 16) (w : Wait) : Mod :=
  let e := ((findTaken m.pol[p] w.tag).map Taken.entry).getD 0
  match desc? m w.idx with
  | none => complete m p w.tag (rSt stAborted)
  | some d =>
    if d.own == .relinquished then complete m p w.tag (rForward d)
    else if busyOwn d then complete m p w.tag (rSt stBusy)
    else match w.what with
      | .park => if d.life == .parked then complete m p w.tag rBadNone else parkNow m p w.idx w.tag
      | .retire => retireNow m p w.idx w.tag
      | .fork => forkNow m p w.idx w.tag
      | .move => moveNow m p w.idx w.tag e
      | .handoff => handoffOutNow m p w.idx w.tag e
      | .stop => stopNow m p w.idx w.tag
      | .ckpt => ckBeginNow m p w.idx w.tag
      | .restore => restoreWaited m p w.idx w.tag

/-- The commands of a session that wait for its step boundary, in the order they came. -/
def runWaits (m : Mod) (p : Fin 16) (idx : Nat) : Nat → Mod
  | 0 => m
  | n + 1 =>
    match m.pol[p].waits.find? (fun w => w.idx == idx) with
    | none => m
    | some w => runWaits (runWait (modPol m p (fun q => { q with waits := q.waits.filter (fun x => x.tag != w.tag) })) p w) p idx n

/-- A session's step boundary: new settings apply, then scheduled checkpoints and the commands that waited for it. -/
def sessBoundary (m : Mod) (p : Fin 16) (idx : Nat) : Mod :=
  if stepInFlight m.pol[p] idx then m
  else
    let m1 := modSess m p idx (fun s => { s.settings.foldl applySetting s with settings := [] })
    runWaits (ckAtBoundary m1 p idx) p idx (m1.pol[p].waits.length + 1)

/-- How a sequence leaves a pass: held at a layer, ended with a status, or with its step committed. -/
def leavePass (p : Fin 16) (m : Mod) (s : PassSeq) : Mod :=
  let m1 := modReq m p s.req (fun r => { r with inPass := false, heldLayer := if s.ended.isNone then s.held else none })
  match s.ended, s.held with
  | some st, _ => if st == stAborted then endReq m1 p s.req st 5 0 else endReq m1 p s.req st 6 (if st == stQuota then 1 else 0)
  | none, some _ => modPol m1 p (fun q => { q with heldSeqs := q.heldSeqs ++ [s] })
  | none, none => m1

/-- A decode pass ends: the slot reaches its step boundary (R178). -/
def endDecodePass (m : Mod) (p : Fin 16) (id : Nat) : Mod :=
  match passOf m.pol[p] id with
  | none => m
  | some x =>
    let m1 := (List.range x.seqs.length).foldl (sampleSeq p id) m
    match passOf m1.pol[p] id with
    | none => m1
    | some y =>
      let m2 := modPol m1 p (fun q => { q with passes := q.passes.filter (fun z => z.id != id) })
      let m3 := y.seqs.foldl (leavePass p) m2
      let rows := (y.seqs.map (fun s => s.parents.length + 1)).sum
      let m4 := pinc (pinc m3 p (Ctr.passes x.slot) 1) p (Ctr.passRows x.slot) rows
      slotBoundary (y.seqs.foldl (fun m s => sessBoundary m p s.sess) m4) p x.slot

end Sys2Proof.Machine
end

