-- ==== Sys2Proof/Machine/Form.lean ====
section
/-! DEFINITION. The formation of passes (R178 to R183, R200, R201, R209, R242, R244), job passes (R184 to R186), and the
progress of a pass through its layers and levels (R65, R209, R214, R215). -/

namespace Sys2Proof.Machine

/-- Activation-region bytes of a polder's unfenced arrays for a slot, less what passes in flight claim (R148, R181). -/
def regionFree (m : Mod) (p : Fin 16) (sl : Slot) : Nat :=
  (liveArrays m p).length * (1048576 - sl.ahead * tileMax sl.man) - (m.pol[p].passes.map Pass.region).sum

/-- Units that end a GEN_STEP of a slot: the sampler unit, every array, and the pump where the model streams from Berm
(Table 13-3). -/
def genFenced (m : Mod) (p : Fin 16) (sl : Slot) : Bool :=
  fencedBit m.fence.units p.val || (liveArrays m p).isEmpty || (fencedBit m.fence.units (16 + p.val) && !sl.fromCrest)

/-- A page of a slot's weights is LOST (Table 04-12). -/
def weightsLost (q : Polder) (slot : Nat) (crest : Bool) : Bool :=
  q.pages.any (fun e => e.2.owner == (if crest then Owner.crestImage slot else Owner.weights slot) && e.2.st == .lost)

/-- The parents of a step's draft nodes: none where the step does not speculate (R230, R231). -/
def stepParents (d : Desc) (g : Gen) (r : Req) : List Nat :=
  let room := d.ctxMax - d.tokens
  if g.specMode == 0 || !g.featValid || r.noSpec || r.maskStep then []
  else if g.specMode == 1 then (if 2 ≤ room then List.range (min g.draftLen (room - 1)) else [])
  else if g.treeNodes < room then g.treeParent.take g.treeNodes else []

/-- The most tokens a step can emit (R244). -/
def mostTokens (parents : List Nat) : Nat := ((List.range (parents.length + 1)).map (nodeDepth parents)).foldl max 0 + 1

/-- Draft levels of a step: the depth of its deepest node (R232). -/
def draftDepth (parents : List Nat) : Nat := mostTokens parents - 1

/-- Free entries of a request's token ring, CONS as read when the pass forms; entries decided and not yet written count as
written, so that a decided step always has room (R244, Table 07-11). -/
def ringRoom (q : Polder) (hv : HostGen) (r : Req) : Nat :=
  let cons := ((hv.cons.find? (fun e => e.1 == r.ring)).map (·.2)).getD 0
  let queued := r.prod + ((q.releases.filter (fun x => x.req == r.tag)).map (fun x => x.entries.length)).sum
  2 ^ r.order - (queued % 2 ^ 32 + 2 ^ 32 - cons % 2 ^ 32) % 2 ^ 32

/-- The mask slot of a request as read when the pass forms: MASK_SEQ and the bitmap (R242). -/
def maskSlot (hv : HostGen) (r : Req) : Option (Nat × Nat) :=
  ((hv.masks.find? (fun e => e.1 == r.maskHost)).map (·.2))

/-- The pages of a session's non-layer state that a step reads. -/
def headPages (q : Polder) (idx : Nat) : List Nat :=
  (q.pages.filter (fun e => match e.2.owner with
    | .sess i .root => i == idx
    | .sess i .kvMap => i == idx
    | .sess i .sampler => i == idx
    | .sess i .feature => i == idx
    | _ => false)).map (·.1)

/-- Pages fetched towards Berm or Crest in order; whether room was refused. -/
def fetchAll (m : Mod) (p : Fin 16) (ns : List Nat) : Bool × Mod :=
  ns.foldl (fun (a : Bool × Mod) n => let r := fetchPage a.2 p n; (a.1 || r.1, r.2)) (false, m)

/-- The body pages of a session in layer order. -/
def allBodies (ses : Sess) : List Nat :=
  (List.range ses.geo.lgs).flatMap (fun lg => bodyPagesOf ses lg (List.range (ses.kv.length / max 1 ses.geo.lgs + 1)))

/-- Every KV page, map page and region page that the rows and their commit can need takes its frame (R200). -/
def takeStepFrames (m : Mod) (p : Fin 16) (idx : Nat) (d : Desc) (rows : Nat) : Except Nat Mod := do
  match m.pol[p].sess.get idx with
  | none => pure m
  | some s =>
    let is := (List.range ((d.tokens + rows - 1) / 16 + 1)).filter (fun i => decide (d.tokens / 16 ≤ i))
    let m ← is.foldlM (fun (m : Mod) i => (List.range s.geo.lgs).foldlM (fun (m : Mod) lg => openKv m p idx d.cls i lg) m) m
    let m ← (List.range s.featN).foldlM (fun (m : Mod) i => ensureFrame m p (s.featPg + i)) m
    if d.sparse then
      let full := is.filter (fun i => decide (16 * (i + 1) ≤ d.tokens + rows))
      let m ← full.foldlM (fun (m : Mod) i => (List.range s.geo.lgs).foldlM (fun (m : Mod) lg => do
        let m ← ensureFrame m p (sketchPageOf s i lg)
        if i % 256 == 255 then ensureFrame m p (coarsePageOf s (i / 256) lg) else pure m) m) m
      (List.range s.geo.lgs).foldlM (fun (m : Mod) lg => ensureFrame m p (s.coarsePg + lg * 32 / 65536)) m
    else pure m

/-- A sequence that can join a pass. -/
structure Joiner where
  req : Req
  d : Desc
  seq : PassSeq
  fresh : Bool
deriving DecidableEq, Repr

/-- A new sequence of a pass: one row, or one per node of its draft. -/
def newSeq (r : Req) (g : Gen) (parents : List Nat) (mask : Option Nat) : PassSeq :=
  { sess := r.idx, req := r.tag, parents := parents, entry := 0, held := none,
    toks := some g.pendTok :: parents.map (fun _ => none), qdist := [], logits := [], acts := [], sel := [], late := [],
    mask := mask, short := false, cold := false, ended := none }

/-- A session whose replay cannot go on: a page its forced passes read is LOST (R66, R235). -/
def replayStuck (m : Mod) (p : Fin 16) (idx : Nat) (ses : Sess) : Bool :=
  !ses.replay.isEmpty && anyLost m p (headPages m.pol[p] idx ++ allBodies ses)

/-- The sequences of a slot that can run at all, in the order of R179: LC first, each group as its GEN_STEP arrived. -/
def candidatesOf (m : Mod) (p : Fin 16) (slot : Nat) : List Req :=
  let q := m.pol[p]
  let ok (r : Req) : Bool := match desc? m r.idx, q.sess.get r.idx with
    | some d, some s => r.running && !r.inPass && r.ending.isNone && !r.heldImport && d.slot == slot && d.own == .owned &&
        (d.life == .active || (d.life == .retiring && r.heldLayer.isSome)) && s.gen.pendValid && (s.replay.isEmpty || replayStuck m p r.idx s)
    | _, _ => false
  let lc (r : Req) : Bool := ((desc? m r.idx).map Desc.cls).getD .be == .lc
  (q.reqs.filter (fun r => ok r && lc r)) ++ (q.reqs.filter (fun r => ok r && !lc r))

/-- One candidate looked at: it joins, waits, or its request ends (R65, R201, R209, R242, R244, Tables 07-2 and 13-3). -/
def screen (p : Fin 16) (sl : Slot) (hv : HostGen) (a : Mod × List Joiner) (r : Req) : Mod × List Joiner :=
  let m := a.1
  match desc? m r.idx, m.pol[p].sess.get r.idx with
  | some d, some ses =>
    let finish (m : Mod) (st : Nat) : Mod × List Joiner := (endReq m p r.tag st 6 0, a.2)
    if genFenced m p sl then finish m stFenced
    else if weightsLost m.pol[p] d.slot sl.fromCrest || anyLost m p (headPages m.pol[p] r.idx) || !ses.replay.isEmpty then finish m stTierLost
    else match r.heldLayer, m.pol[p].heldSeqs.find? (fun s => s.req == r.tag) with
      | some k, some s =>
        let ns := (List.range ses.geo.groups).flatMap (fun g => missing m p s (k * ses.geo.groups + g))
        if anyLost m p ns then finish m stTierLost
        else if ns.isEmpty then (m, a.2 ++ [⟨r, d, { s with entry := k, held := none }, false⟩])
        else ((fetchAll m p ns).2, a.2)
      | _, _ =>
        if d.tokens == d.ctxMax then (endReq (pinc m p Ctr.kvCtxLimit 1) p r.tag stCtxLimit 4 0, a.2)
        else if !d.sparse && anyLost m p (allBodies ses) then finish m stTierLost
        else if fencedBit m.fence.units (16 + p.val) && (allBodies ses).any (fun n => match getPage m p n with
            | some pg => pg.tier != .crest && pg.st != .zero
            | none => false) then finish m stFenced
        else
          let hs := headPages m.pol[p] r.idx
          if !allPresent m p hs then ((fetchAll m p hs).2, a.2)
          else
            let parents := stepParents d ses.gen r
            if ringRoom m.pol[p] hv r < mostTokens parents then (pinc m p Ctr.tokringWait 1, a.2)
            else if !r.maskStep then (m, a.2 ++ [⟨r, d, newSeq r ses.gen parents none, true⟩])
            else match maskSlot hv r with
              | some (seq, bm) => if seq == ses.gen.nextSeq then (m, a.2 ++ [⟨r, d, newSeq r ses.gen parents (some bm), true⟩])
                  else (pinc m p Ctr.maskWait 1, a.2)
              | none => (pinc m p Ctr.maskWait 1, a.2)
  | _, _ => a

/-- Sequences in passes in flight. -/
def heldCount (q : Polder) : Nat := (q.passes.map (fun x => x.seqs.length)).sum

/-- Admission by the shares of R180: the sequences admitted, and how many the module limit kept out. -/
def admitSeqs (m : Mod) (p : Fin 16) : Nat → Nat → List Joiner → List Joiner × Nat × Nat
  | held, kept, [] => ([], held, kept)
  | held, kept, j :: rest =>
    let g := 4096 / profilePolders m
    let others := ((List.finRange 16).filter (fun q => q != p)).map (fun q => m.pol[q])
    let total := held + (others.map heldCount).sum
    let short := (others.map Polder.short).sum
    if 1024 ≤ held then admitSeqs m p held kept rest
    else if (held < g && total < 4096) || total + short < 4096 then
      let r := admitSeqs m p (held + 1) kept rest
      (j :: r.1, r.2)
    else admitSeqs m p held (kept + 1) rest

/-- Activation bytes of a set of sequences: target rows, the largest draft level, and the kept q rows (R181, R232). -/
def actBytes (sl : Slot) (m : Mod) (p : Fin 16) (js : List Joiner) : Nat :=
  let rows := (js.map (fun j => j.seq.parents.length + 1)).sum
  let spec := js.filter (fun j => j.fresh && !j.seq.parents.isEmpty)
  let lvl (n : Nat) : Nat := (spec.map (fun j => ((List.range (j.seq.parents.length + 1)).filter (fun v =>
    nodeDepth j.seq.parents v == n && !(kids j.seq.parents v).isEmpty)).length)).sum
  let big := ((List.range 9).map lvl).foldl max 0
  let qrows := (spec.filter (fun j => match m.pol[p].sess.get j.seq.sess with
    | some s => s.gen.specMode == 1 && !s.gen.greedy
    | none => false)).map (fun j => j.seq.parents.length)
  rows * sl.man.main.actRowBytes + big * (sl.man.draft.elim 0 Prog.actRowBytes) + qrows.sum * sl.man.main.vocab * 4

/-- The activation claim of R181: sequences are removed from the end until it fits. Kept sequences, region bytes, frames. -/
def claimFit (m : Mod) (p : Fin 16) (sl : Slot) : Nat → List Joiner → List Joiner × Nat × Nat
  | 0, _ => ([], 0, 0)
  | n + 1, js =>
    if js.isEmpty then ([], 0, 0)
    else
      let need := actBytes sl m p js
      let region := min need (regionFree m p sl)
      let frames := cdiv (need - region) 65536
      if crestFits m m.pol[p] (js.any (fun j => j.d.cls == .lc)) frames then (js, region, frames)
      else claimFit m p sl n js.dropLast

/-- The pages a joining sequence needs are fetched: bodies of a Bounded one, the sketches of a Sparse-Recall selection
(R209, R214). Whether a Bounded promotion was refused. -/
def fetchStep (m : Mod) (p : Fin 16) (j : Joiner) : Bool × Mod :=
  match m.pol[p].sess.get j.seq.sess with
  | none => (false, m)
  | some ses =>
    if j.d.sparse then
      (false, if ses.qsValid then (fetchAll m p (dedup ((List.range ses.geo.layers).flatMap (selReads m.pol[p] ses)))).2 else m)
    else fetchAll m p (allBodies ses)

/-- A sequence's frames and fetches (R200, R209): it stays in the pass, or its request ends with QUOTA. -/
def provide (p : Fin 16) (a : Mod × List Joiner) (j : Joiner) : Mod × List Joiner :=
  match takeStepFrames a.1 p j.seq.sess j.d (j.seq.parents.length + 1) with
  | .error t =>
    if t == errWait then (beginRoom a.1 p, a.2)
    else (endReq (pinc (countRefused a.1 p t) p Ctr.kvQuota 1) p j.req.tag stQuota 6 t, a.2)
  | .ok m1 =>
    match fetchStep m1 p j with
    | (true, m2) => (endReq m2 p j.req.tag stQuota 6 1, a.2)
    | (false, m2) => (m2, a.2 ++ [j])

/-- The recall state a Sparse-Recall sequence starts a pass with: sinks and window alone while QS_VALID is clear (R216). -/
def startRecall (m : Mod) (p : Fin 16) (j : Joiner) : Mod × PassSeq :=
  match m.pol[p].sess.get j.seq.sess with
  | some ses =>
    if j.d.sparse && !ses.qsValid && j.fresh then
      let sw := sinkWindow m.pol[p].recallCfg (openPage j.d)
      (pinc m p Ctr.recallCold 1, { j.seq with cold := true, sel := (List.range ses.geo.lgs).map (fun lg => (lg, sw)) })
    else (m, j.seq)
  | none => (m, j.seq)

/-- A pass of a slot forms with the sequences that can join (R178 to R183). -/
def formPass (m : Mod) (p : Fin 16) (slot : Nat) (hv : HostGen) : Nat → Mod
  | 0 => m
  | n + 1 =>
    match m.pol[p].slots.get slot with
    | none => m
    | some sl =>
      if m.pol[p].fenced || m.pol[p].passes.any (fun x => x.slot == slot && x.job.isNone) then m
      else
        let (m1, js) := (candidatesOf m p slot).foldl (screen p sl hv) (m, [])
        if js.isEmpty then m1
        else
          let h0 := heldCount m1.pol[p]
          let (adm, held, kept) := admitSeqs m1 p h0 0 js
          let m2 := modPol (pinc m1 p Ctr.actDefer kept) p (fun q => { q with short := min kept (4096 / profilePolders m1 - held) })
          let (fit, region, frames) := claimFit m2 p sl (adm.length + 1) adm
          if fit.isEmpty then
            match adm.head? with
            | none => m2
            | some j => formPass (endReq (countRefused (pinc m2 p Ctr.actDefer (adm.length - 1)) p 0) p j.req.tag stQuota 6 0) p slot hv n
          else
            let m3 := pinc m2 p Ctr.actDefer (adm.length - fit.length)
            let (m4, use) := fit.foldl (provide p) (m3, [])
            if use.isEmpty then formPass m4 p slot hv n
            else
              let (m5, seqs) := use.foldl (fun (a : Mod × List PassSeq) j => let r := startRecall a.1 p j; (r.1, a.2 ++ [r.2])) (m4, [])
              let jid := (use.head?.bind (fun j => (findTaken m5.pol[p] j.req.tag).map Taken.job)).getD 0
              let levels := ((use.filter (fun j => j.fresh && sl.man.draft.isSome)).map (fun j => draftDepth j.seq.parents)).foldl max 0 + 1
              let tags := use.map (fun j => j.req.tag)
              let m6 := modPol m5 p (fun q => { q with
                nextPass := q.nextPass + 1
                slots := q.slots.upd slot (fun s => { s with lastPass := q.clk })
                heldSeqs := q.heldSeqs.filter (fun s => !tags.contains s.req)
                reqs := updWhere q.reqs (fun r => tags.contains r.tag) (fun r => { r with inPass := true, heldLayer := none })
                passes := q.passes ++ [{
                  id := q.nextPass, slot := slot, start := q.clk, lc := use.any (fun j => j.d.cls == .lc), jobId := jid, job := none,
                  first := 0, items := 0, seqs := seqs, level := 0, levels := levels, done := [], placed := [], since := [],
                  region := region, claim := frames, fromCrest := sl.fromCrest, acts := [], deadlineDone := false, vec := none }] })
              pincIf m6 p sl.fromCrest (Ctr.modelCacheHit slot)

/-- A sequence's ATTN strips of a layer that are due: tensors written, rows appended, and not yet placed (R65, R209). -/
def dueGroups (m : Mod) (p : Fin 16) (x : Pass) (g : Prog) (l seq : Nat) : List Nat :=
  match layerInst g l 3 with
  | none => []
  | some i => match progInst g i with
    | none => []
    | some (k, _) => dedup (((stripsOf m p x g i).filter (fun s => s.seq == some seq && tensorsReady m p x g i k s &&
        !isDone x ⟨x.id, x.level, i, s.idx, false⟩ && !x.placed.contains ⟨x.id, x.level, i, s.idx, false⟩)).map Strip.grp)

/-- At the recall deadline or after it, the missing pages of a due strip are left out (R214, R215). -/
def leaveOut (m : Mod) (p : Fin 16) (id i lg : Nat) (is : List Nat) : Mod :=
  if is.isEmpty then m
  else
    let refused := is.filter (fun k => match (passOf m.pol[p] id).bind (fun x => x.seqs[i]?) with
      | none => false
      | some s => match m.pol[p].sess.get s.sess with
        | none => false
        | some ses => match (ses.kv.get (kvIdx ses.geo k lg)).bind (fun kv => getPage m p (bodyPage kv)) with
          | some pg => pg.tier == .toe && pg.st == .resident
          | none => false)
    let m1 := modPassSeq m p id i (fun s => { s with
      short := s.short || !s.cold, late := s.late ++ is.map (fun k => (lg, k)) })
    pinc (pinc m1 p Ctr.recallLate is.length) p Ctr.recallQuota refused.length

/-- A sequence whose KV_APPEND of a layer is due: the body pages it writes are fetched where they lie in Toe, and the strip waits for
them (R46); a Bounded sequence is held at the layer (R65). -/
def settleAppend (m : Mod) (p : Fin 16) (id i l : Nat) : Mod :=
  match passOf m.pol[p] id with
  | none => m
  | some x => match passProg m.pol[p] x, x.seqs[i]?, (passProg m.pol[p] x).bind (fun g => layerInst g l 8) with
    | some g, some s, some j => match progInst g j with
      | none => m
      | some (k, _) =>
        let due := (stripsOf m p x g j).any (fun z => z.seq == some i && tensorsReady m p x g j k z &&
          !isDone x ⟨x.id, x.level, j, z.idx, false⟩ && !x.placed.contains ⟨x.id, x.level, j, z.idx, false⟩)
        let ns := appendPages m p s g.kvGroups l
        if !s.at l || !due then m
        else if anyLost m p ns then modPassSeq m p id i (fun s => { s with ended := some stTierLost })
        else
          let miss := ns.filter (fun n => !allPresent m p [n])
          if miss.isEmpty then m
          else match fetchAll m p miss with
            | (true, m1) => modPassSeq m1 p id i (fun s => { s with ended := some stQuota })
            | (false, m1) => if ((desc? m s.sess).map Desc.sparse).getD false then m1
                else modPassSeq m1 p id i (fun s => { s with held := some l })
    | _, _, _ => m

/-- One sequence at one layer whose ATTN strips are due (R65, R67, R209, R214). -/
def settleSeq (m : Mod) (p : Fin 16) (id i l : Nat) : Mod :=
  match passOf m.pol[p] id with
  | none => m
  | some x => match passProg m.pol[p] x, x.seqs[i]? with
    | some g, some s => match m.pol[p].sess.get s.sess, desc? m s.sess with
      | some ses, some d =>
        if !s.at l || !appended m p x g l i then m
        else (dueGroups m p x g l i).foldl (fun m grp =>
          let lg := l * g.kvGroups + grp
          match (passOf m.pol[p] id).bind (fun x => x.seqs[i]?) with
          | none => m
          | some s =>
            if !s.at l || (d.sparse && !s.sel.has lg) then m
            else
              let bodies := bodyPagesOf ses lg (attended m s lg)
              let miss := missing m p s lg
              if anyLost m p bodies then modPassSeq m p id i (fun s => { s with ended := some stTierLost })
              else if fencedBit m.fence.units (16 + p.val) && bodies.any (fun n => match getPage m p n with
                  | some pg => pg.tier != .crest && pg.st != .zero
                  | none => false) then modPassSeq m p id i (fun s => { s with ended := some stFenced })
              else if miss.isEmpty then m
              else if d.sparse then
                (if x.deadlineDone then
                  leaveOut m p id i lg ((attended m s lg).filter (fun k => match ses.kv.get (kvIdx ses.geo k lg) with
                    | some kv => miss.contains (bodyPage kv)
                    | none => false))
                 else (fetchAll m p miss).2)
              else
                match fetchAll m p miss with
                | (true, m1) => modPassSeq m1 p id i (fun s => { s with ended := some stQuota })
                | (false, m1) => modPassSeq m1 p id i (fun s => { s with held := some l })) m
      | _, _ => m
    | _, _ => m

def settlePass (m : Mod) (p : Fin 16) (id : Nat) : Mod :=
  match passOf m.pol[p] id with
  | none => m
  | some x => match passProg m.pol[p] x with
    | none => m
    | some g => if x.target && x.job.isNone then
        (List.range x.seqs.length).foldl (fun m i => (List.range g.layers).foldl (fun m l => settleSeq (settleAppend m p id i l) p id i l) m) m
      else m

/-- Every strip of the pass's level has completed, and no selection is under way. -/
def levelDone (m : Mod) (p : Fin 16) (x : Pass) : Bool :=
  match passProg m.pol[p] x with
  | none => true
  | some g => (List.range (progCount g)).all (fun i => (stripsOf m p x g i).all (fun s => isDone x ⟨x.id, x.level, i, s.idx, false⟩))

/-- A value written into session space from an address on, byte by byte of a little-endian number (R15). -/
def writeSpace (m : Mod) (p : Fin 16) (ssa len v : Nat) : Mod :=
  ((List.range ((ssaByte ssa + len + 65535) / 65536)).foldl (fun (a : Mod × Nat × Nat × Nat) _ =>
    let (m, at', left, v) := a
    let off := ssaByte at'
    let n := min left (65536 - off)
    let m1 := writeBlocks m p (ssaPage at') (blocksAt off n) (fun b =>
      b - (b >>> (8 * off)) % 2 ^ (8 * n) * 2 ^ (8 * off) + v % 2 ^ (8 * n) * 2 ^ (8 * off))
    (m1, at' + n, left - n, v >>> (8 * n))) (m, ssa, len, v)).1

/-- Pages of a range of session space. -/
def spacePages (ssa len : Nat) : List Nat :=
  (List.range (cdiv (ssaByte ssa + len) 65536)).map (fun i => ssaPage ssa + i)

/-- A range of session space covers a page whole. -/
def coversPage (ssa len n : Nat) : Bool :=
  decide (ssa % 2 ^ 46 ≤ n * 65536) && decide ((n + 1) * 65536 ≤ ssa % 2 ^ 46 + len)

/-- A job's result: the items written in RESULT bytes 28 to 31 (R184). -/
def jobRes (n : Nat) (st : Nat) : Res := { rOk (at8 12 (n % 2 ^ 32)) with status := st }

/-- A job ends, in mid-pass too, with a result and the count of items written (R184, R186). -/
def endJobRes (m : Mod) (p : Fin 16) (tag : Nat) (r : Res) : Mod :=
  match m.pol[p].jobs.find? (fun j => j.tag == tag) with
  | none => m
  | some j =>
    let m1 := modPol m p (fun q => { q with
      jobs := q.jobs.filter (fun x => x.tag != tag), passes := q.passes.filter (fun x => x.job != some tag) })
    slotBoundary (completeAll (complete m1 p tag { r with result := r.result ||| at8 12 (j.done % 2 ^ 32) }) p j.stopTags (rOk 0)) p j.slot

def endJob (m : Mod) (p : Fin 16) (tag st : Nat) : Mod := endJobRes m p tag (rSt st)

/-- The bits of an element of a job's output row (R185). -/
def jobBits (q : Polder) (slot : Nat) (draft : Bool) : Nat :=
  match (q.slots.get slot).bind (fun s => if draft then s.man.draft else some s.man.main) with
  | some g => ((g.epi.getLast?).map (fun k => fmtBits k.fmtO)).getD 8
  | none => 8

/-- A LOST page that a write covers whole takes a frame again (Table 02-5, R67); a ZERO page takes its frame (R60). -/
def frameFor (m : Mod) (p : Fin 16) (ssa len n : Nat) : Except Nat Mod :=
  match getPage m p n with
  | some pg =>
    if pg.st == .lost && coversPage ssa len n then (alloc m p pg.cls true).map (fun x => settleAt x.2.2 p n x.1 x.2.1)
    else ensureFrame m p n
  | none => .ok m

/-- One item written whole (R186); the tier that refused a frame of its pages. -/
def writeItem (m : Mod) (p : Fin 16) (j : Job) (bits it : Nat) : Except Nat Mod := do
  let ssa := j.outSsa + it * j.rowBytes
  let m ← (spacePages ssa j.rowBytes).foldlM (fun (m : Mod) n => frameFor m p ssa j.rowBytes n) m
  let m := writeSpace m p ssa j.rowBytes (packCodes bits (((j.out.find? (fun e => e.1 == it)).map (·.2)).getD []))
  pure (pinc (modPol m p (fun q => { q with
    jobs := updWhere q.jobs (fun y => y.tag == j.tag) (fun y => { y with done := y.done + 1, out := y.out.filter (fun e => e.1 != it) }) }))
    p Ctr.krnItems 1)

/-- A job pass ends: its items are written whole, in order, up to the first whose pages find no room, which ends the job; while the spillway
makes room the rest of the pass waits (R186, R60). -/
def endJobPass (m : Mod) (p : Fin 16) (id tag : Nat) : Mod :=
  match passOf m.pol[p] id with
  | none => m
  | some x =>
    let m1 := modPol m p (fun q => { q with passes := q.passes.filter (fun z => z.id != id) })
    match m.pol[p].jobs.find? (fun j => j.tag == tag) with
    | none => slotBoundary m1 p x.slot
    | some j =>
      let ns := (spacePages (j.outSsa + x.first * j.rowBytes) (x.items * j.rowBytes)).filter (fun n => !(List.range x.items).any (fun i =>
        coversPage (j.outSsa + (x.first + i) * j.rowBytes) j.rowBytes n))
      if anyLost m p ns then endJob m p tag stTierLost
      else if !allPresent m p ns then
        let r := fetchAll m p ns
        if r.1 then endJobRes r.2 p tag (rQuota 1) else r.2
      else
      let bits := jobBits m.pol[p] x.slot j.draft
      let (m2, n, refused) := (List.range x.items).foldl (fun (a : Mod × Nat × Option Nat) it =>
        if a.2.2.isSome then a else match writeItem a.1 p j bits (x.first + it) with
          | .ok m' => (m', it + 1, none)
          | .error t => (a.1, it, some t)) (m1, 0, none)
      match refused with
      | some t =>
        if t == errWait then
          beginRoom (modPol m2 p (fun q => { q with passes := q.passes ++ [{ x with first := x.first + n, items := x.items - n }] })) p
        else if j.stopping then endJob m2 p tag stAborted
        else endJobRes (countRefused m2 p t) p tag (rQuota t)
      | none =>
        let m3 := slotBoundary (pinc m2 p Ctr.jobPasses 1) p x.slot
        if x.first + x.items == j.items then endJob m3 p tag stOk
        else if j.stopping then endJob m3 p tag stAborted else m3

/-- Items of a job pass that fit: whole items, up to 16,384 rows, removed until the claim fits (R181, R186). -/
def jobFit (m : Mod) (p : Fin 16) (sl : Slot) (j : Job) (act : Nat) : Nat → Nat × Nat × Nat
  | 0 => (0, 0, 0)
  | n + 1 =>
    let need := (n + 1) * j.itemTokens * act
    let region := min need (regionFree m p sl)
    let frames := cdiv (need - region) 65536
    if crestFits m m.pol[p] j.lc frames then (n + 1, region, frames) else jobFit m p sl j act n

/-- The next job pass of a job forms (R186), once its pages are at hand (R46). -/
def formJob (m : Mod) (p : Fin 16) (tag : Nat) : Mod :=
  match m.pol[p].jobs.find? (fun j => j.tag == tag) with
  | none => m
  | some j => match m.pol[p].slots.get j.slot with
    | none => m
    | some sl =>
      if m.pol[p].fenced || m.pol[p].passes.any (fun x => x.job == some tag) then m
      else if j.stopping then endJob m p tag stAborted
      else if (liveArrays m p).isEmpty || (fencedBit m.fence.units (16 + p.val) && !sl.fromCrest) then endJob m p tag stFenced
      else
        let want := min (j.items - j.done) (max 1 (16384 / j.itemTokens))
        let inSsa := ((findTaken m.pol[p] tag).map (fun t => fld t.entry 16 0 64)).getD 0
        let inPgs := spacePages (inSsa + 4 * j.done * j.itemTokens) (4 * want * j.itemTokens)
        let outPgs := spacePages (j.outSsa + j.done * j.rowBytes) (want * j.rowBytes)
        let whole (n : Nat) : Bool := (List.range want).any (fun i => coversPage (j.outSsa + (j.done + i) * j.rowBytes) j.rowBytes n)
        let part := outPgs.filter (fun n => !whole n)
        if weightsLost m.pol[p] j.slot sl.fromCrest || anyLost m p (inPgs ++ part) then endJob m p tag stTierLost
        else if !allPresent m p (inPgs ++ part) then
          let r := fetchAll m p (inPgs ++ part)
          if r.1 then endJobRes r.2 p tag (rQuota 1) else r.2
        else
          let act := if j.draft then sl.man.draft.elim 0 Prog.actRowBytes else sl.man.main.actRowBytes
          let (n, region, frames) := jobFit m p sl j act want
          if n == 0 then endJob (countRefused (pinc m p Ctr.actDefer want) p 0) p tag stQuota
          else
            let m1 := inPgs.foldl (fun m k => accessPage m p k) (pinc m p Ctr.actDefer (want - n))
            let jid := ((findTaken m.pol[p] tag).map Taken.job).getD 0
            let m2 := pincIf m1 p sl.fromCrest (Ctr.modelCacheHit j.slot)
            modPol m2 p (fun q => { q with
              nextPass := q.nextPass + 1
              slots := q.slots.upd j.slot (fun s => { s with lastPass := q.clk })
              passes := q.passes ++ [{
                id := q.nextPass, slot := j.slot, start := q.clk, lc := j.lc, jobId := jid, job := some tag, first := j.done, items := n,
                seqs := [], level := 0, levels := 1, done := [], placed := [], since := [], region := region, claim := frames,
                fromCrest := sl.fromCrest, acts := [], deadlineDone := true, vec := none }] })

/-- The pages that the commit of a sequence's rows writes: its non-layer state, the bodies of its rows, and the sketches of pages that these
fill (R199, R234). -/
def commitPages (m : Mod) (p : Fin 16) (g : Prog) (s : PassSeq) : List Nat :=
  match desc? m s.sess, m.pol[p].sess.get s.sess with
  | some d, some ses =>
    let is := (List.range ((d.tokens + s.parents.length + 1) / 16)).filter (fun i => decide (d.tokens / 16 ≤ i))
    headPages m.pol[p] s.sess ++ (List.range g.layers).flatMap (appendPages m p s g.kvGroups) ++
      (if d.sparse then is.flatMap (fun i => (List.range ses.geo.lgs).flatMap (fun lg => [sketchPageOf ses i lg, coarsePageOf ses (i / 256) lg])) else [])
  | _, _ => []

/-- A step boundary waits until the pages its commit writes can be written in place; a sequence with a LOST one, or one that finds no room, ends
(R46, R67). The sequences' state, and whether the pass waits. -/
def commitReady (m : Mod) (p : Fin 16) (x : Pass) (g : Prog) : Bool × Mod :=
  x.seqs.zipIdx.foldl (fun (a : Bool × Mod) e =>
    let ns := commitPages a.2 p g e.1
    if e.1.ended.isSome || e.1.held.isSome then a
    else if anyLost a.2 p ns then (a.1, modPassSeq a.2 p x.id e.2 (fun s => { s with ended := some stTierLost }))
    else if allPresent a.2 p ns then a
    else match fetchAll a.2 p ns with
      | (true, m1) => (a.1, modPassSeq m1 p x.id e.2 (fun s => { s with ended := some stQuota }))
      | (false, m1) => (true, m1)) (false, m)

/-- A pass whose level is done moves on: draft tokens are picked and the next level starts, or the pass ends. -/
def advancePass (m : Mod) (p : Fin 16) (id : Nat) : Nat → Mod
  | 0 => m
  | n + 1 =>
    let m := settlePass m p id
    match passOf m.pol[p] id with
    | none => m
    | some x =>
      if x.vec.isSome || !levelDone m p x then m
      else match x.job with
        | some t => endJobPass m p id t
        | none =>
          if x.target then
            match passProg m.pol[p] x with
            | none => endDecodePass m p id
            | some g => match commitReady m p x g with
              | (true, m1) => m1
              | (false, m1) => endDecodePass m1 p id
          else advancePass (modPass (draftLevel m p x) p id (fun y => { y with level := y.level + 1, done := [], placed := [] })) p id n

/-- The dispatcher looks at everything again: passes move on, slots with none in flight form the next, jobs too, and
ready strips are placed (R172, R178, R183). -/
def kickRound (m : Mod) (p : Fin 16) (hv : HostGen) : Mod :=
  let m1 := (m.pol[p].passes.map Pass.id).foldl (fun m id => advancePass m p id 10) m
  let m2 := (m1.pol[p].slots.map (·.1)).foldl (fun m s => formPass m p s hv (m.pol[p].reqs.length + 1)) m1
  (m2.pol[p].jobs.map Job.tag).foldl (fun m t => formJob m p t) m2

def kick (m : Mod) (p : Fin 16) (hv : HostGen) : Mod :=
  if m.pol[p].composed then dispatch (kickRound (kickRound m p hv) p hv) p else m

/-- A sequence of a pass at the recall deadline: each layer-group without a finished selection is left with sinks and window (R215). -/
def deadlineSeq (m : Mod) (p : Fin 16) (s : PassSeq) : PassSeq :=
  match desc? m s.sess, m.pol[p].sess.get s.sess with
  | some d, some ses =>
    if d.sparse && s.ended.isNone && !s.cold then
      let sw := sinkWindow m.pol[p].recallCfg (openPage d)
      let open' := (List.range ses.geo.lgs).filter (fun lg => !s.sel.has lg)
      { s with sel := open'.foldl (fun (a : SMap (List Nat)) lg => a.put lg sw) s.sel, short := s.short || !open'.isEmpty }
    else s
  | _, _ => s

/-- RECALL_DEADLINE_US after a pass formed: unfinished selections leave their layer-groups with sinks and window, and
waiting strips run over the pages present (R214, R215). -/
def recallDeadline (m0 : Mod) (p : Fin 16) (id t : Nat) (hv : HostGen) : Mod :=
  let m := tickPol m0 p t
  match passOf m.pol[p] id with
  | none => m
  | some x =>
    if x.deadlineDone || x.job.isSome || decide (m.pol[p].clk < x.start + m.pol[p].recallCfg.deadlineUs * 1000) then m
    else
      let m1 := modPass m p id (fun x => { x with
        deadlineDone := true
        seqs := x.seqs.map (deadlineSeq m p) })
      kick m1 p hv

end Sys2Proof.Machine
end

