-- ==== Sys2Proof/Machine/Log.lean ====
section
/-! DEFINITION. The warden's fault log (R399, R400) and the small readings every unit shares: time of a record, level states and their
interrupts (R436). -/

namespace Sys2Proof.Machine

def modWd (m : Mod) (f : Warden → Warden) : Mod := { m with sys := { m.sys with wd := f m.sys.wd } }
def modFw (m : Mod) (f : FwState → FwState) : Mod := { m with sys := { m.sys with fw := f m.sys.fw } }
def modPw (m : Mod) (f : Pwr → Pwr) : Mod := { m with sys := { m.sys with pw := f m.sys.pw } }
def modTime (m : Mod) (f : TimeState → TimeState) : Mod := { m with sys := { m.sys with time := f m.sys.time } }
def modDisc (m : Mod) (f : Disc → Disc) : Mod := { m with sys := { m.sys with disc := f m.sys.disc } }
def modPins (m : Mod) (f : Pins → Pins) : Mod := { m with sys := { m.sys with pins := f m.sys.pins } }
def modBoot (m : Mod) (f : BootState → BootState) : Mod := { m with sys := { m.sys with boot := f m.sys.boot } }

/-- The discipline of a counter: 0 HVL, 1 + k port k, 5 + p polder p. -/
def syncOf (m : Mod) (k : Nat) : Sync := (m.sys.time.sync.get k).getD Sync.free

/-- TIME_LOCKED: the HVL counter is locked (Table 15-4a). -/
def timeLocked (m : Mod) : Bool := (syncOf m 0).locked

/-- The conditions of Table 13-1 that the module observes do not hold (R382). -/
def outside (m : Mod) : Bool :=
  !m.sys.wd.vinGood || m.sys.wd.oscBad || decide (m.sys.pw.tj < 0) || decide (1050 < m.sys.pw.tj)

/-- The warden's oscillator has reached a count of ticks (R393). -/
def tickWd (m : Mod) (wt : Nat) : Mod := modWd m (fun w => { w with ticks := max w.ticks wt })

/-- The length of a warden tick in tenths of a ps as last measured; the nominal 976.5625 ns before the first measurement (R393). -/
def tickLen (w : Warden) : Nat := if w.tickPs == 0 then 9765625 else 10 * w.tickPs

/-- A warden bound of so many ns, counted in measured ticks from a tick, has passed (R383, R393, Table 16-4). -/
def wdPassed (m : Mod) (since ns : Nat) : Bool := let w := m.sys.wd; decide (ns * 10000 ≤ (w.ticks - since) * tickLen w)

/-- TIME of a fault record: the HVL counter while it is locked, else warden ticks of 976.5625 ns (Table 13-10). -/
def logTime (m : Mod) : Nat := if timeLocked m then m.hvl else m.sys.wd.ticks * 9765625 / 10000

/-- The owner of a unit, 255 for none (Table 13-10). -/
def ownerOf (m : Mod) (pred : Masks → Bool) : Nat :=
  ((List.range 16).find? (fun i => m.pol[pn i].composed && pred m.pol[pn i].slice)).getD 255

def unitOwner (m : Mod) (ty idx : Nat) : Nat :=
  match ty with
  | 0x01 => ownerOf m (fun s => bit s.arr (idx / 16))
  | 0x02 => ownerOf m (fun s => bit s.berm idx)
  | 0x03 => ownerOf m (fun s => bit s.toe (idx / 2))
  | 0x07 => idx
  | 0x08 => idx
  | 0x09 => ownerOf m (fun s => bit s.arr idx)
  | _ => 255

/-- A fault record written: the newest record is raised instead when it repeats it within 1 s of its TIME; a full log overwrites its
oldest record (R399). Vector 513 tells of each record written (R425). DETAIL is fault-specific: where the row that writes the record carries none it
is open (log entry 44). -/
def logFault (m : Mod) (ty idx fault action : Nat) (env : Bool) (detail : Block) : Mod :=
  let w := m.sys.wd
  let detail := if detail == 0 then Config.openNat m.free % 2 ^ 256 else detail
  let t := logTime m
  let fresh : FaultRec :=
    { seq := w.nextSeq, time := t, unit := ty, index := idx, pol := if action == 5 then idx else unitOwner m ty idx, fault := fault, action := action,
      src := !timeLocked m, env := env || outside m, count := 1, detail := detail }
  let add (m : Mod) : Mod :=
    let overN := decide (1024 ≤ m.sys.wd.log.length)
    let m1 := modWd m (fun w => { w with log := fresh :: w.log.take 1023, nextSeq := w.nextSeq + 1 })
    let m2 := minc m1 Ctr.faultRecords 1
    mgmtIrq (if overN then minc m2 Ctr.logOverwritten 1 else m2) 1
  let m := { m with free := m.free + 1 }
  match w.log with
  | [] => add m
  | r :: rest =>
    if r.unit == ty && r.index == idx && r.fault == fault && r.action == action && decide (t < r.time + 1000000000) then
      modWd m (fun w => { w with log := { r with count := r.count + 1 } :: rest })
    else add m

/-- Fault codes (Table 13-11). -/
def fResidue : Nat := 0x01
def fHsStall : Nat := 0x02
def fEccCorr : Nat := 0x03
def fEccUncorr : Nat := 0x04
def fLinkCrc : Nat := 0x05
def fLockstep : Nat := 0x06
def fDup : Nat := 0x07
def fTimeout : Nat := 0x08
def fTrVote : Nat := 0x09
def fPhase : Nat := 0x0A
def fThermHigh : Nat := 0x0B
def fThermTrip : Nat := 0x0C
def fVinRange : Nat := 0x0D
def fSelftest : Nat := 0x0E
def fCoresWedged : Nat := 0x0F
def fFabWedged : Nat := 0x10
def fOsc : Nat := 0x11
def fSensor : Nat := 0x12
def fFenceCmd : Nat := 0x13
def fBootSlot : Nat := 0x14
def fProfile : Nat := 0x15

/-- The level states of FLT_STATUS and PWR_STATUS as one number (Tables 15-6, 15-7); DEGRADED is any fence. -/
def degraded (m : Mod) : Bool :=
  let f := m.fence
  [f.polder, f.array, f.berm, f.toe, f.link, f.units, f.vdom, f.phase, f.sensor].any (fun t => t.orRead != 0)

def fltBits (m : Mod) : Nat :=
  let w := m.sys.wd
  b2n w.coresWedged + 2 * b2n w.fabWedged + 4 * b2n w.thermHigh + 8 * b2n w.thermTrip + 16 * b2n (degraded m)

def pwrBits (m : Mod) : Nat :=
  let x := m.sys.pw
  x.mode + 4 * b2n (decide (10 * (x.conf.tjSoft : Int) ≤ x.tj)) + 8 * b2n (!x.borrowed.isEmpty) + 16 * b2n (!x.lent.isEmpty)

/-- Each change of a bit of FLT_STATUS or PWR_STATUS sends management vector 514 once (R436). -/
def levelIrq (old m : Mod) : Mod :=
  (List.range (popcount ((fltBits old ^^^ fltBits m) + 32 * (pwrBits old ^^^ pwrBits m)) 16)).foldl (fun m _ => mgmtIrq m 2) m

/-- A counter that loses its reference enters holdover until it locks again (R462). -/
def holdover (m : Mod) (k : Nat) : Mod :=
  modTime m (fun t =>
    let s := (t.sync.get k).getD Sync.free
    { t with sync := t.sync.put k { s with locked := false, holdover := s.holdover || s.locked, good := 0 } })

/-- The PTP source port has gone: the HVL counter and the ports enter holdover (Table 16-9). SOURCE and PORT are bits [3:0] of the time configuration. -/
def ptpPortGone (m : Mod) (k : Nat) : Mod :=
  if m.sys.time.conf % 4 == 1 && m.sys.time.conf / 4 % 4 == k then (List.range 5).foldl holdover m else m

end Sys2Proof.Machine
end

