-- ==== Sys2Proof/Machine/Strips.lean ====
section
/-! DEFINITION. The completion of a strip on an array (R171, R191, R207, R211, R212) and the recomputation of strips whose
rows a fenced array held (R152, R177). -/

namespace Sys2Proof.Machine

/-- The strip of a key. -/
def findStrip (m : Mod) (p : Fin 16) (k : StripKey) : Option (Kernel × Option Nat × Prog × Pass × Strip) :=
  match passOf m.pol[p] k.pass with
  | none => none
  | some x => match passProg m.pol[p] x with
    | none => none
    | some g => match progInst g k.inst with
      | none => none
      | some (ker, lay) =>
        if k.level != x.level then none
        else ((stripsOf m p x g k.inst).find? (fun s => s.idx == k.idx)).map (fun s => (ker, lay, g, x, s))

/-- The active rows a strip covers, with sequence and node, in order. -/
def stripRows (m : Mod) (p : Fin 16) (x : Pass) (g : Prog) (i : Nat) (s : Strip) : List (Nat × Nat) :=
  let rows := passRows m.pol[p] x
  ((activeRows m.pol[p] x g i).filter (fun r => decide (s.lo ≤ r) && decide (r < s.hi))).filterMap (fun r => rows[r]?)

/-- Conversion counts of a strip's rows (R141 to R143, Table 04-13). -/
def countConv (m : Mod) (p : Fin 16) (cs : List ConvRow) : Mod :=
  pinc (pinc m p Ctr.outSatCnt (cs.map ConvRow.sats).sum) p Ctr.outNan (cs.map ConvRow.nans).sum

/-- What a kernel instance of a pass works on. -/
def envOf (m : Mod) (p : Fin 16) (x : Pass) (g : Prog) (i : Nat) (k : Kernel) (lay : Option Nat) (o : StripOut) : KEnv :=
  { m := m, p := p, x := x, g := g, inst := i, k := k, lay := lay, img := ((m.pol[p].slots.get x.slot).map Slot.img).getD 0, order := o.order }

/-- The K or V part of one row for a group (R191). -/
def partOf (g : Prog) (w grp : Nat) (k : Kernel) (row : List F32) : ConvRow := convRow g.kvFmt k.outSat ((row.drop (grp * w)).take w)

/-- KV_APPEND: each row of the strip, times TSCALE, is written into the page of each group (R191, R198). -/
def appendRows (e : KEnv) (lay : Nat) (rows : List (Nat × Nat)) : Mod :=
  let w := kvHeads e.k.attr * headDim e.k.attr
  rows.foldl (fun m r =>
    match (e.x.seqs[r.1]?).map PassSeq.sess with
    | none => m
    | some idx => match desc? m idx with
      | none => m
      | some d =>
        let kv := appendVals e r
        (List.range e.g.kvGroups).foldl (fun m grp =>
          let kk := partOf e.g w grp e.k kv.1
          let vv := partOf e.g w grp e.k kv.2
          writeKvRow (countConv m e.p [kk, vv]) e.p idx (d.tokens + r.2) (lay * e.g.kvGroups + grp)
            { k := kk.codes, ks := kk.scales, v := vv.codes, vs := vv.scales }) m) e.m

/-- ATTN: the attended bodies are staged and accessed, and a Sparse-Recall strip that holds the sequence's first row leaves
the query sketch of its layer-group (R45, R202, R208, R211). -/
def attnDone (m : Mod) (e : KEnv) (lay : Nat) (s : Strip) : Mod :=
  match s.seq.bind (fun i => (e.x.seqs[i]?).map (fun z => (i, z))) with
  | none => m
  | some (i, sq) => match m.pol[e.p].sess.get sq.sess, desc? m sq.sess with
    | some ses, some d =>
      let lg := lay * e.g.kvGroups + s.grp
      let is := attended m sq lg
      let ns := bodyPagesOf ses lg is
      let m1 := ns.foldl (fun m n => accessPage m e.p n) (pinc m e.p Ctr.kvBodyBytes (is.length * ses.geo.bodyBytes))
      let berm := (is.filter (fun i => match (ses.kv.get (kvIdx ses.geo i lg)).bind (fun kv => getPage m e.p (bodyPage kv)) with
        | some pg => pg.tier == .berm
        | none => false)).length
      let m2 := pinc m1 e.p Ctr.pumpBytes (berm * ses.geo.bodyBytes)
      if d.sparse && s.idx % 64 == 0 then
        let q := groupQuery e.k s.grp (e.row e.k.inA (i, 0))
        let m3 := modSess m2 e.p sq.sess (fun z => { z with
          querySk := z.querySk.put lg (querySketch q.fmt (kvHeads e.k.attr) (headDim e.k.attr) (qPerKv e.k.attr) q.codes) })
        writePage m3 e.p (ses.coarsePg + lg * 32 / 65536) id
      else m2
    | _, _ => m

/-- The tiles of a strip that were not staged when it began are read as it runs (R149, R164). -/
def tilesTaken (m : Mod) (p : Fin 16) (a : Nat) (key : StripKey) : Mod :=
  match stripTiles m.pol[p] key with
  | none => m
  | some (_, _, _, _, n) =>
    let have' := ((arrOf m.pol[p] a).staged.filter (fun e => e.1 == key)).length
    readTiles m p key have' (n - have')

/-- Activations kept for a row: the parts a strip wrote take the place of an earlier attempt's. -/
def putAct (l : List Act) (a : Act) : List Act :=
  l.filter (fun b => b.level != a.level || b.inst != a.inst || b.node != a.node || b.blk != a.blk) ++ [a]

/-- The rows of a strip stay in the activation store of the array that ran it; tensor 1 of a layer is kept in Crest (R151, R177). LOGITS
rows go to the sampler unit (R158). -/
def keepRows (m : Mod) (e : KEnv) (a : Nat) (s : Strip) (rows : List (Nat × Nat)) (out : List OutRow) : Mod :=
  (rows.zip out).foldl (fun m r =>
    let act : Act := { level := e.x.level, inst := e.inst, node := r.1.2, blk := s.grp
                       arr := if e.k.out == 1 && e.lay.isSome then none else some a
                       fmt := e.k.fmtO, codes := r.2.conv.codes, scales := r.2.conv.scales, res := residue (rowTile e.k.fmtO r.2.conv) }
    if e.x.job.isSome then modPass m e.p e.x.id (fun x => { x with acts := putAct x.acts act })
    else modPassSeq m e.p e.x.id r.1.1 (fun z => { z with
      logits := if e.k.op == 6 then z.logits ++ [(e.x.level, r.1.2, s.grp, r.2.vals)] else z.logits
      acts := if e.k.op == 6 then z.acts else putAct z.acts act })) m

/-- POOL_OUT: the items with a row in the strip whose other rows are done too (R158, R186). -/
def poolStrip (m : Mod) (e : KEnv) (tag : Nat) (s : Strip) (key : StripKey) : Mod :=
  match m.pol[e.p].jobs.find? (fun j => j.tag == tag) with
  | none => m
  | some j =>
    let n := j.itemTokens
    let ss := stripsOf m e.p e.x e.g e.inst
    let ready (it : Nat) : Bool := ss.all (fun z => decide (z.hi ≤ it * n) || decide ((it + 1) * n ≤ z.lo) || z.idx == s.idx ||
      isDone e.x { key with idx := z.idx })
    let its := (List.range e.x.items).filter (fun it => decide (s.lo < (it + 1) * n) && decide (it * n < s.hi) && ready it)
    let out := its.zipIdx.map (fun i => (e.x.first + i.1, poolItem e i.2 i.1 n))
    modPol (countConv m e.p (out.map (fun o => o.2.conv))) e.p (fun q => { q with
      jobs := updWhere q.jobs (fun j => j.tag == tag) (fun j => { j with
        out := j.out.filter (fun y => !its.contains (y.1 - e.x.first)) ++ out.map (fun o => (o.1, o.2.conv.codes)) }) })

/-- What the registers of an array hold after a strip: its last weight tile, and the column results and lanes of its last row (Table 04-1). -/
def arrayRegs (m : Mod) (e : KEnv) (a : Nat) (s : Strip) (out : List OutRow) : Mod :=
  let tb := tileBytes e.k.fmtS e.k.fmtT
  let kt := e.k.k / max 1 (tileK e.k.fmtS e.k.fmtT)
  let w := if e.k.op == 1 || e.k.op == 6 then
      bitsAt e.img (8 * (layOff e.g e.lay e.k.wOff + tileOff e.k s.grp (kt - 1))) (8 * tb)
    else (arrOf m.pol[e.p] a).wreg
  modPol m e.p (fun q => { q with arrays := q.arrays.upd a (fun z => { z with
    wreg := w
    acc := ((out.getLast?).map (fun o => o.cols.map ColVal.bits)).getD z.acc
    edge := ((out.getLast?).map (fun o => o.vals.map BitVec.toNat)).getD z.edge }) })

/-- A residue mismatch on an output tile is masked by the recomputation (R145). -/
def tileMismatch (m : Mod) (a : Nat) : Mod :=
  logFault (minc (minc m (Ctr.resFault a) 1) (Ctr.resRetryOk a) 1) 0x01 a fResidue 1 false 0

/-- The effects of a completed strip besides the dispatcher's: it computes its rows, its output tile is checked and leaves (R144), and they
are kept where its kernel puts them. -/
def stripEffect (m0 : Mod) (p : Fin 16) (a : Nat) (key : StripKey) (o : StripOut) : Mod :=
  match findStrip m0 p key with
  | none => m0
  | some (k, lay, g, x, s) =>
    let rows := stripRows m0 p x g key.inst s
    let e := envOf m0 p x g key.inst k lay o
    let m := { m0 with free := m0.free + 1 }
    if k.op == 8 then appendRows { e with m := m } (lay.getD 0) rows
    else if k.op == 7 then (match x.job with
      | some t => poolStrip m e t s key
      | none => m)
    else
      let vals := stripValues e s rows
      let sent := vals.zipIdx.map (fun r => (r.1, leaveTile k.fmtO (if r.2 == 0 then o.flip else 0) r.1.conv))
      let out := sent.map (fun r => { r.1 with conv := r.2.1 })
      let m1 := if sent.any (fun r => r.2.2) then tileMismatch m a else m
      let m2 := arrayRegs (tilesTaken (countConv m1 p (out.map OutRow.conv)) p a key) e a s out
      let m3 := keepRows m2 e a s rows out
      if k.op == 3 then attnDone m3 e (lay.getD 0) s else m3

/-- A selection strip completes: the pages of each layer-group of its layer are chosen, and those in Toe are requested
(R212, R214). After the deadline it changes nothing. -/
def selectionDone (m : Mod) (p : Fin 16) (key : StripKey) : Mod :=
  match passOf m.pol[p] key.pass with
  | none => m
  | some x => match x.seqs[key.idx]? with
    | none => m
    | some s => match m.pol[p].sess.get s.sess, desc? m s.sess with
      | some ses, some d =>
        if x.deadlineDone || s.ended.isSome || s.held.isSome then m
        else (List.range ses.geo.groups).foldl (fun m g =>
          let lg := key.inst * ses.geo.groups + g
          let chosen := selectPages m.pol[p] ses d lg
          let m1 := modPassSeq m p x.id key.idx (fun s => { s with sel := s.sel.put lg chosen })
          let m2 := (selReads m.pol[p] ses key.inst).foldl (fun m n => accessPage m p n) (pinc m1 p Ctr.recallSelect 1)
          (fetchAll m2 p ((bodyPagesOf ses lg chosen).filter (fun n => match getPage m2 p n with
            | some pg => !present pg
            | none => false))).2) m
      | _, _ => m

/-- The handshakes of a strip. -/
def stripHs (m : Mod) (p : Fin 16) (key : StripKey) : Nat :=
  match (passOf m.pol[p] key.pass).bind Pass.vec with
  | some v => v.hs
  | none => if key.select then
    match (passOf m.pol[p] key.pass).bind (fun x => x.seqs[key.idx]?) with
    | none => 0
    | some s => match m.pol[p].sess.get s.sess, desc? m s.sess with
      | some ses, some d => selHs m.pol[p] ses d key.inst
      | _, _ => 0
  else match findStrip m p key with
    | some (_, _, _, _, s) => s.hs
    | none => 0

/-- What a strip's array counts besides its handshakes: waits for staged tiles (R150), and, where the pass holds activations in Crest, the bytes moved
there and back (R151). A capture counts its own stall (R54). -/
def stripWaits (m : Mod) (p : Fin 16) (spilled : Bool) (o : StripOut) : Mod :=
  pinc (pinc m p Ctr.pumpWaitNs o.waitNs) p Ctr.actSpillBytes (if spilled then o.spillBytes else 0)

/-- A strip run on an array: its effects, its handshakes, and its place among the done (R171, R174). -/
def runStrip (p : Fin 16) (a : Nat) (key : StripKey) (o : StripOut) (m : Mod) : Mod :=
  let m1 := if key.select then selectionDone m p key else stripEffect m p a key o
  let lc := keyLc m1.pol[p] key
  let m2 := modPass m1 p key.pass (fun x => { x with
    placed := x.placed.filter (fun k => k != key)
    done := if key.level == x.level then x.done ++ [(key, a)] else x.done })
  let m3 := pinc (minc m2 (Ctr.arrHs a) (stripHs m p key)) p (if lc then Ctr.lcStrips else Ctr.beStrips) 1
  stripWaits m3 p ((passOf m.pol[p] key.pass).any (fun x => x.claim != 0)) o

/-- STRIP_COMPLETE (R171, R172): the running strip of an array completes with its results, its next strip runs, dependent
strips become ready, and the dispatcher places what it can. -/
def stripComplete (m0 : Mod) (p : Fin 16) (a t : Nat) (o : StripOut) (hv : HostGen) : Mod :=
  let m := tickPol m0 p t
  match m.pol[p].arrays.get a with
  | none => m
  | some sl => match sl.run with
    | none => m
    | some key =>
      if arrayFenced m a || m.pol[p].fenced then m
      else
        let m1 := modPol (runStrip p a key o m) p (fun q => { q with arrays := q.arrays.upd a (fun z => { z with
          run := z.nxt, nxt := none, staged := z.staged.filter (fun e => e.1 != key) }) })
        spill (kick m1 p hv) p

/-- The strips, not done, that other strips of the pass wait for or that are still to run. -/
def pendingStrips (m : Mod) (p : Fin 16) (x : Pass) (g : Prog) : List (Nat × Strip) :=
  (List.range (progCount g)).flatMap (fun j => ((stripsOf m p x g j).filter (fun s => !isDone x ⟨x.id, x.level, j, s.idx, false⟩)).map (fun s => (j, s)))

/-- Strips of the same layer that an array ran and whose rows a pending strip reads: they are lost with its activation store. Tensor 1 of
the layer in flight is kept in Crest, and what left the array (KV rows, logits, pooled items) stands (R145, R152, R177). -/
def lostOnce (m : Mod) (p : Fin 16) (x : Pass) (g : Prog) (a : Nat) : List StripKey :=
  let pend := pendingStrips m p x g
  (x.done.filter (fun e => e.2 == a && !e.1.select && (match progInst g e.1.inst with
    | none => false
    | some (k, lay) => k.op != 8 && k.op != 6 && k.op != 7 && !(k.out == 1 && lay.isSome) &&
      (match (stripsOf m p x g e.1.inst).find? (fun s => s.idx == e.1.idx) with
       | none => false
       | some s => pend.any (fun z => decide (s.lo < z.2.hi) && decide (z.2.lo < s.hi) && (match progInst g z.1 with
          | none => false
          | some (kj, layj) => layj == lay && (reads kj).contains k.out && writerOf g z.1 k.out == some e.1.inst)))))).map (·.1)

/-- The strips to recompute, back as far as tensor 1: a strip put back needs its own inputs again (R177). -/
def lostStrips (m : Mod) (p : Fin 16) (x : Pass) (g : Prog) (a : Nat) : Nat → List StripKey
  | 0 => []
  | n + 1 =>
    let ks := lostOnce m p x g a
    if ks.isEmpty then [] else lostStrips m p { x with done := x.done.filter (fun e => !ks.contains e.1) } g a n ++ ks

/-- Activations without those a fenced array held (R152). -/
def dropActs (l : List Act) (a : Nat) : List Act := l.filter (fun b => b.arr != some a)

/-- An array leaves: both its strips return to the head of their queues, its staged tiles are discarded, and strips whose rows it alone held are
computed again (R146, R177, Tables 04-12 and 05-9). -/
def arrayLeaves (m : Mod) (p : Fin 16) (a : Nat) (fenced : Bool) : Mod :=
  let sl := arrOf m.pol[p] a
  let back := sl.run.toList ++ sl.nxt.toList
  let m1 := modPol m p (fun q => { q with
    arrays := q.arrays.put a { sl with run := none, nxt := none, staged := [] }
    front := back ++ q.front
    passes := q.passes.map (fun x => { x with placed := x.placed.filter (fun k => !back.contains k) }) })
  if !fenced then m1
  else (m1.pol[p].passes.map Pass.id).foldl (fun m id =>
    match passOf m.pol[p] id with
    | none => m
    | some x =>
      let ks := match passProg m.pol[p] x with
        | none => []
        | some g => lostStrips m p x g a (progCount g + 1)
      pinc (modPol (modPass m p id (fun x => { x with
        done := x.done.filter (fun e => !ks.contains e.1)
        acts := dropActs x.acts a
        seqs := x.seqs.map (fun s => { s with acts := dropActs s.acts a }) })) p (fun q => { q with
        front := ks ++ q.front })) p Ctr.recomputeStrips ks.length) m1

end Sys2Proof.Machine
end

