-- ==== Sys2Proof/Machine/GenCmd.lean ====
section
/-! DEFINITION. The generation commands and events (R222 to R237, R241, R245, R248, R249) and batch jobs (R184 to R186). -/

namespace Sys2Proof.Machine

/-- The fields of a GEN_STEP that end it before any step, with the byte of the first at fault (R223). -/
def genStepBad (e : Block) : Option Nat :=
  if fld e 28 0 32 == 0 then some 28
  else if fld e 32 0 6 != 0 then some 32
  else if fld e 40 0 5 < 4 || 16 < fld e 40 0 5 then some 40
  else if flg e 41 0 && fld e 48 0 6 != 0 then some 48
  else none

/-- A new request of a session (Table 07-1). -/
def newReq (q : Polder) (t : Taken) (idx : Nat) (held : Bool) : Req :=
  let e := t.entry
  { tag := t.tag, idx := idx, maxTok := fld e 28 0 32, ring := fld e 32 0 64, order := fld e 40 0 5, maskStep := flg e 41 0,
    noSpec := flg e 41 1, modCount := fld e 42 0 16, modUs := fld e 44 0 16, vector := fld e 46 0 16, maskHost := fld e 48 0 64,
    running := q.reqs.all (fun r => r.idx != idx), inPass := false, heldLayer := none, heldImport := held, emitted := 0,
    accepted := 0, toks := [], prod := 0, unsig := 0, oldest := 0, short := false, ending := none }

/-- GEN_STEP (R222, R223): the request joins its session's queue; while the session imports it is held (R98). -/
def genStepGo (m : Mod) (p : Fin 16) (t : Taken) (hv : HostGen) : Mod :=
  match resolve m p t.entry with
  | .error r => turnedAway m p t r
  | .ok (idx, d) =>
    let m := cacheUse m p idx
    let join (m : Mod) (held : Bool) : Mod :=
      match genStepBad t.entry with
      | some b => complete m p t.tag (rBad b)
      | none => kick (modPol (setJob m idx t.job) p (fun q => { q with reqs := q.reqs ++ [newReq q t idx held] })) p hv
    if d.own == .importing then join m true
    else if busyOwn d then complete m p t.tag (rSt stBusy)
    else if d.life != .active then complete m p t.tag rBadNone
    else join m false

def genStep (m : Mod) (p : Fin 16) (tag : Nat) (hv : HostGen) : Mod := ringRow m p tag 0x20 (fun t m => genStepGo m p t hv)

/-- The pages that hold a session's generation state and sampler settings. -/
def corePages (q : Polder) (idx : Nat) : List Nat := ((q.sess.get idx).map (fun s => [s.rootPg, s.sampPg])).getD []

/-- The state root's generation state and the sampler page are written. -/
def writeCore (m : Mod) (p : Fin 16) (idx : Nat) : Mod :=
  match m.pol[p].sess.get idx with
  | some s => writePage (writeBlocks m p s.rootPg 1 id) p s.sampPg id
  | none => m

/-- Generation state bound at once (R249): PENDING_TOKEN, NEXT_SEQ, history, no feature row. -/
def applyPrefill (m : Mod) (p : Fin 16) (t : Taken) (idx : Nat) (d : Desc) (hist : List Nat) (hv : HostGen) : Mod :=
  let tok := fld t.entry 28 0 32
  let vocab := ((m.pol[p].slots.get d.slot).map (fun s => s.man.main.vocab)).getD 0
  if vocab ≤ tok then complete m p t.tag (rBad 28)
  else
    withPages m p t.tag (corePages m.pol[p] idx) (fun m =>
      let m1 := modSess (setJob m idx t.job) p idx (fun s => bindPrefill s tok (fld t.entry 44 0 32) hist)
      kick (complete (writeCore m1 p idx) p t.tag (rSess (handleOf idx p.val d.gen) d.epoch d.tokens)) p hv)

/-- GEN_PREFILL_ACCEPT (R248, R249), with the history tokens read from the companion. -/
def genPrefillAccept (m : Mod) (p : Fin 16) (tag : Nat) (hist : List Nat) (hv : HostGen) : Mod :=
  ringRow m p tag 0x21 (fun t m =>
    let sid := fld t.entry 16 0 64
    let h := fld t.entry 24 0 32
    let hist := hist.take (fld t.entry 40 0 13)
    let owned := (findSid m p.val sid).filter (fun e => e.2.own == .owned && (h == 0 || e.2.epoch == h))
    let pend := match owned with
      | some (idx, _) => ((m.pol[p].sess.get idx).map (fun s => s.gen.pendValid)).getD true
      | none => true
    if 4096 < fld t.entry 40 0 13 then complete m p tag (rBad 40)
    else match (importOf m.pol[p] sid).filter (fun i => h != 0 && i.h == h), owned with
      | some im, _ => bindPre m p t im hist
      | none, some (idx, d) =>
        let fit := if h == 0 then d.tokens == 0 else d.step == 0
        let m := cacheUse m p idx
        if fit && !pend && (d.life == .active || d.life == .parked) then applyPrefill m p t idx d hist hv else complete m p tag rBadNone
      | none, none =>
        match importRefusal m p sid with
        | some r => complete m p tag r
        | none => if h == 0 then complete m p tag rBadNone
        else modPol m p (fun q => { q with
          inWaits := q.inWaits ++ [⟨tag, sid, h, q.clk + msNs (m.own.leaseMs - m.own.guardMs), true, hist⟩] }))

/-- GEN_STOP for a session (R225). -/
def genStop (m : Mod) (p : Fin 16) (tag : Nat) : Mod := ringRowIf m p tag 0x22 (fun e => !flg e 28 0) (fun t m =>
  onSession m p t (fun m idx _ => atBoundary (setJob m idx t.job) p idx tag .stop (fun m => stopNow m p idx tag)))

/-- GEN_STOP for a KRN_SUBMIT job (R186): it ends at its next job-pass boundary. -/
def genStopJob (m : Mod) (p : Fin 16) (tag : Nat) : Mod := ringRowIf m p tag 0x22 (fun e => flg e 28 0) (fun t m =>
  let jt := fld t.entry 16 0 16
  if m.pol[p].jobs.all (fun j => j.tag != jt) then complete m p tag (rBad 16)
  else
    let m1 := modPol m p (fun q => { q with
      jobs := updWhere q.jobs (fun j => j.tag == jt) (fun j => { j with stopping := true, stopTags := j.stopTags ++ [tag] }) })
    formJob m1 p jt)

/-- A setting takes effect at the next step boundary: at once when no step is in flight. -/
def setAtBoundary (m : Mod) (p : Fin 16) (idx : Nat) (x : Setting) : Mod :=
  if stepInFlight m.pol[p] idx then modSess m p idx (fun s => { s with settings := s.settings ++ [x] })
  else writeCore (modSess m p idx (fun s => applySetting s x)) p idx

/-- The draft's fitness for speculation (R229). -/
def draftOk (mf : Manifest) : Bool :=
  match mf.draft with
  | none => false
  | some g => g.kvGroups == 0 && g.tensors[1]? == mf.main.tensors[1]? && g.tensors[2]? == mf.main.tensors[1]?

/-- GEN_SPEC_CONF's refusals (R229); lengths are judged for the mode they serve. -/
def specBad (e : Block) (mf : Option Manifest) : Option Nat :=
  let mode := fld e 28 0 2
  let n := fld e 29 0 8
  let parents := (List.range n).map (fun i => fld e (32 + i) 0 8)
  if mode == 3 then some 28
  else if mode != 0 && !((mf.map draftOk).getD false) then some 28
  else if mode == 2 && !flg e 28 2 then some 28
  else if mode == 1 && (fld e 28 4 4 == 0 || 8 < fld e 28 4 4) then some 28
  else if mode == 2 && (n == 0 || 32 < n) then some 29
  else if mode == 2 && ((List.range n).any (fun i => decide (i + 1 ≤ (parents[i]?).getD 0)) ||
      (List.range (n + 1)).any (fun i => decide (8 < nodeDepth parents i))) then some 32
  else none

def genSpecConf (m : Mod) (p : Fin 16) (tag : Nat) : Mod := ringRow m p tag 0x23 (fun t m =>
  onSession m p t (fun m idx d =>
    let e := t.entry
    match specBad e ((m.pol[p].slots.get d.slot).map Slot.man) with
    | some b => complete m p tag (rBad b)
    | none =>
      let n := fld e 29 0 8
      withPages m p tag (corePages m.pol[p] idx) (fun m =>
        complete (setAtBoundary (setJob m idx t.job) p idx
          (.spec (fld e 28 0 2) (flg e 28 2) (fld e 28 4 4) n ((List.range n).map (fun i => fld e (32 + i) 0 8)))) p tag (rOk 0))))

/-- The parameters a SAMPLER_CONF entry carries (Table 07-5). -/
def sampOf (e : Block) : SampParams := paramsAt e 28

/-- SAMPLER_CONF's refusals (R237). The spec gives TOP_P, PRES_PEN and FREQ_PEN no range: only NaN is out. -/
def sampBad (e : Block) (vocab : Nat) (bulk : Option Bulk) : Option Res :=
  let s := sampOf e
  if !f32NonNeg s.temp then some (rBad 28)
  else if f32IsNan s.topP then some (rBad 32)
  else if !f32NonNeg s.minP || f32Lt f32One s.minP then some (rBad 36)
  else if !f32Lt 0#32 s.repPen then some (rBad 40)
  else if f32IsNan s.presPen then some (rBad 44)
  else if f32IsNan s.freqPen then some (rBad 48)
  else if 1024 < s.topK then some (rBad 52)
  else if 4096 < s.window then some (rBad 54)
  else if fld e 56 0 6 != 0 then some (rBad 56)
  else match bulk with
    | none => none
    | some b =>
      if 1024 < b.biasN || 8 < b.stopN || (b.bias.take b.biasN).any (fun x => decide (vocab ≤ x.1) || f32IsNan x.2) ||
         (b.stops.take b.stopN).any (fun s => s.isEmpty || decide (32 < s.length) || s.any (fun t => decide (vocab ≤ t)))
      then some rBadNone else none

/-- SAMPLER_CONF (R236, R237), with the bulk buffer read from the companion when BULK is not zero; one that is not authentic
completes it with BAD_CMD (R373). -/
def samplerConf (m : Mod) (p : Fin 16) (tag : Nat) (bulk : Block) : Mod :=
  ringRow m p tag 0x24 (fun t m =>
    onSession m p t (fun m idx d =>
      let e := t.entry
      let vocab := ((m.pol[p].slots.get d.slot).map (fun s => s.man.main.vocab)).getD 0
      let host := fld e 56 0 64
      let rec_ := if host == 0 || fld e 56 0 6 != 0 then some 0 else bulkIn m.pol[p] p.val host t bulk
      let b := if host == 0 then none else rec_.map bulkOf
      match if rec_.isNone then some (rBad 56) else sampBad e vocab b with
      | some r => complete m p tag r
      | none =>
        withPages m p tag (corePages m.pol[p] idx) (fun m =>
          complete (setAtBoundary (setJob m idx t.job) p idx (.samp (sampOf e)
            b)) p tag (rOk 0))))

/-- KRN_SUBMIT's refusals (R155, R184, R185): the byte at fault, or the program the job runs. -/
def krnCheck (m : Mod) (p : Fin 16) (e : Block) : Except Res (Prog × Nat) :=
  let q := m.pol[p]
  let inSsa := fld e 16 0 64
  let outSsa := fld e 24 0 64
  let slot := fld e 32 0 8
  let items := fld e 36 0 32
  let toks := fld e 40 0 32
  if ssaPol inSsa != p.val || 2 ^ 50 ≤ inSsa then .error (rBad 16)
  else if ssaPol outSsa != p.val || 2 ^ 50 ≤ outSsa then .error (rBad 24)
  else match q.slots.get slot with
    | none => .error (rBad 32)
    | some sl =>
      match (if flg e 33 1 then sl.man.draft else some sl.man.main) with
      | none => .error (rBad 33)
      | some g =>
        let ks := g.pro ++ g.layer ++ g.epi
        if items == 0 || 16777216 < items then .error (rBad 36)
        else if toks == 0 || 16384 < toks then .error (rBad 40)
        else if ks.any (fun k => k.op == 3 || k.op == 8 || k.op == 6) then .error (rBad 32)
        else match g.epi.getLast? with
          | none => .error (rBad 32)
          | some k =>
            if k.op != 7 || fmtIsMx k.fmtO then .error (rBad 32)
            else
              let row := ((g.tensors[k.out]?).map Tensor.width).getD 0 * fmtBits k.fmtO / 8
              let owned (n : Nat) : Bool := match q.pages.get n with
                | some pg => pg.owner == .mapped
                | none => false
              if !(spacePages inSsa (4 * items * toks)).all owned then .error (rBad 16)
              else if !(spacePages outSsa (items * row)).all owned then .error (rBad 24)
              else .ok (g, row)

def krnSubmit (m : Mod) (p : Fin 16) (tag : Nat) : Mod := ringRow m p tag 0x30 (fun t m =>
  let e := t.entry
  match krnCheck m p e with
  | .error r => complete m p tag r
  | .ok (_, row) =>
    let job : Job :=
      { tag := tag, slot := fld e 32 0 8, lc := !flg e 33 0, draft := flg e 33 1, items := fld e 36 0 32, itemTokens := fld e 40 0 32,
        done := 0, outSsa := fld e 24 0 64, rowBytes := row, stopping := false, stopTags := [], out := [] }
    kick (modPol (keepImage m p job.slot) p (fun q => { q with jobs := q.jobs ++ [job] })) p ⟨[], []⟩)

/-- The next n tokens of the replay with the STEP of the last record they reach, and the records left (R235). -/
def takeReplay : Nat → List (Nat × List Nat) → List Nat × Nat × List (Nat × List Nat)
  | _, [] => ([], 0, [])
  | n, (st, ts) :: rest =>
    if n < ts.length then (ts.take n, if n == 0 then 0 else st, (st, ts.drop n) :: rest)
    else
      let r := takeReplay (n - ts.length) rest
      (ts ++ r.1, if r.1.isEmpty then st else r.2.1, if r.1.isEmpty && n == ts.length then rest else r.2.2)

/-- The sequence of a forced pass: its rows are a line, and every token is known (R235). -/
def forcedSeq (idx : Nat) (toks : List Nat) (cold : Bool) (sel : SMap (List Nat)) : PassSeq :=
  { sess := idx, req := 2 ^ 20, parents := List.range (toks.length - 1), entry := 0, held := none, toks := toks.map some, qdist := [],
    logits := [], acts := [], sel := sel, late := [], mask := none, short := false, cold := cold, ended := none }

/-- The pages a forced pass reads and writes: non-layer state, the bodies attended in each layer-group, the sketches a selection reads, and
what its commit writes (R209, R212, R216). -/
def forcedPages (m : Mod) (p : Fin 16) (g : Prog) (s : PassSeq) (ses : Sess) (d : Desc) : List Nat :=
  let chosen (lg : Nat) : List Nat :=
    if d.sparse && ses.qsValid then selectPages m.pol[p] ses d lg ++ ownPages d s else attended m s lg
  dedup (headPages m.pol[p] s.sess ++ (List.range ses.geo.lgs).flatMap (fun lg => bodyPagesOf ses lg (chosen lg)) ++
    (if d.sparse && ses.qsValid then (List.range ses.geo.layers).flatMap (selReads m.pol[p] ses) else []) ++ commitPages m p g s)

/-- Strips of a forced pass run one after the other, each on the array named for it (log entry 70). -/
def forcedRun (p : Fin 16) (m : Mod) (keys : List StripKey) (outs : List (Nat × StripOut)) : Mod :=
  let live := (liveArrays m p).map (·.1)
  keys.zipIdx.foldl (fun m e =>
    let o := (outs[e.2]?).getD (0, {})
    runStrip p ((live[o.1 % max 1 live.length]?).getD 0) e.1 o.2 m) m

/-- A forced pass's strips: the selections of a Sparse-Recall sequence, then the kernel instances in program order (R156, R212). -/
def forcedStrips (m : Mod) (p : Fin 16) (x : Pass) (g : Prog) (outs : List (Nat × StripOut)) : Mod :=
  let sels := (selReady m p x g).map (fun e => (⟨x.id, 0, e.1, e.2, true⟩ : StripKey))
  let m1 := forcedRun p m sels outs
  let y := (passOf m1.pol[p] x.id).getD x
  forcedRun p m1 ((List.range (progCount g)).flatMap (fun i => (stripsOf m1 p y g i).map (fun s => ⟨x.id, 0, i, s.idx, false⟩)))
    (outs.drop sels.length)

/-- The pass of a forced pass run and committed: every row is accepted, the journaled token after the last row becomes PENDING_TOKEN, no
ring is written, and the record carries the replayed STEP (R235). -/
def runForced (m : Mod) (p : Fin 16) (idx : Nat) (d : Desc) (g : Prog) (sl : Slot) (sq : PassSeq) (step : Nat) (toks : List Nat)
    (left : List (Nat × List Nat)) (outs : List (Nat × StripOut)) : Mod :=
  let x : Pass :=
    { id := m.pol[p].nextPass, slot := d.slot, start := m.pol[p].clk, lc := d.cls == .lc, jobId := d.job, job := none, first := 0, items := 0,
      seqs := [sq], level := 0, levels := 1, done := [], placed := [], since := [], region := 0, claim := 0, fromCrest := sl.fromCrest,
      acts := [], deadlineDone := false, vec := none }
  let m1 := modPol m p (fun q => { q with nextPass := q.nextPass + 1, passes := q.passes ++ [x] })
  let m2 := forcedStrips m1 p x g outs
  let feat := if left.isEmpty then (passOf m2.pol[p] x.id).map (fun y => featRow y g 0 (toks.length - 1)) else none
  let m3 := modPol m2 p (fun q => { q with passes := q.passes.filter (fun y => y.id != x.id) })
  let m4 := commitState m3 p idx d.job toks.length step toks feat
  let m5 := modSess (pinc m4 p Ctr.forcedPasses 1) p idx (fun s => { s with replay := left })
  journalStep m5 p idx step toks { jseq := 0, req := 2 ^ 20, entries := [] }

/-- FORCED_PASS (R235): the pending token and up to 7 journaled ones enter as rows in a line. It waits for the pages it reads and writes, for
an array and for room (R60, R209). -/
def forcedPass (m : Mod) (p : Fin 16) (idx : Nat) (outs : List (Nat × StripOut)) (hv : HostGen) : Mod :=
  match desc? m idx, m.pol[p].sess.get idx, (desc? m idx).bind (fun d => m.pol[p].slots.get d.slot) with
  | some d, some s, some sl =>
    let (toks, step, left) := takeReplay 8 s.replay
    if toks.isEmpty || d.own != .owned || d.pol != p.val || !s.gen.pendValid || m.pol[p].fenced || (liveArrays m p).isEmpty then m
    else match takeStepFrames m p idx d toks.length with
      | .error t => if t == errWait then beginRoom m p else countRefused m p t
      | .ok m1 =>
        let cold := d.sparse && !s.qsValid
        let sel : SMap (List Nat) := if cold then (List.range s.geo.lgs).map (fun lg => (lg, sinkWindow m.pol[p].recallCfg (openPage d))) else []
        let sq := forcedSeq idx (s.gen.pendTok :: toks.dropLast) cold sel
        let ns := forcedPages m1 p sl.man.main sq ((m1.pol[p].sess.get idx).getD s) d
        if anyLost m1 p ns || weightsLost m1.pol[p] d.slot sl.fromCrest then m
        else if !allPresent m1 p ns then (fetchAll m1 p ns).2
        else
          let m2 := if cold then pinc m1 p Ctr.recallCold 1 else m1
          kick (runForced m2 p idx d sl.man.main sl sq step toks left outs) p hv
  | _, _, _ => m

/-- DRBG_RESEED (R241): a reseed that has fallen due is made when the source is healthy. -/
def drbgReseed (m : Mod) (p : Fin 16) : Mod :=
  if 2 ^ 20 ≤ m.pol[p].drbg.reqs && m.entropyOk then
    pinc (reseed m p) p Ctr.drbgReseed 1
  else m

/-- A health-test failure of the entropy source (R241). -/
def entropyHealthFail (m : Mod) : Mod := { minc m Ctr.entropyFail 1 with entropyOk := false }

/-- The oldest unsignalled entry of a token ring has waited MOD_US (R245). -/
def tokenRingModTimer (m0 : Mod) (p : Fin 16) (tag t : Nat) : Mod :=
  let m := tickPol m0 p t
  match reqOf m.pol[p] tag with
  | none => m
  | some r =>
    if r.modUs == 0 || r.unsig == 0 || decide (m.pol[p].clk < r.oldest + r.modUs * 1000) then m
    else
      let m1 := modReq m p tag (fun r => { r with unsig := 0 })
      polIrq (pincIf m1 p (polIrqOn m1 p r.vector) Ctr.ringIrq) p r.vector

end Sys2Proof.Machine
end

