-- ==== Sys2Proof/Machine/Mem.lean ====
section
/-! DEFINITION. The memory commands (R61, R62, R422), heat and cool demotion (R45, R50), page copies (R53)
and failed reads (R66). -/

namespace Sys2Proof.Machine

/-- The range a memory command names, or its BAD_CMD (R39, R422). -/
def memRange (p : Fin 16) (e : Block) : Except Res (Nat × Nat) :=
  let s := fld e 16 0 64
  let n := fld e 24 0 32
  if ssaPol s != p.val || 2 ^ 50 ≤ s || ssaByte s != 0 then .error (rBad 16)
  else if n == 0 || 16777216 < n || 2 ^ 30 < ssaPage s + n then .error (rBad 24)
  else .ok (ssaPage s, n)

/-- The entries of a range. -/
def rangePages (q : Polder) (s n : Nat) : List (Nat × Page) := q.pages.filter (fun e => decide (s ≤ e.1) && decide (e.1 < s + n))

/-- A page of the range was taken by the module for an object of its own (R196, R422). -/
def rangeTaken (q : Polder) (s n : Nat) : Bool := (rangePages q s n).any (fun e => e.2.owner != .mapped)

/-- A memory command on its range. -/
def onRange (m : Mod) (p : Fin 16) (t : Taken) (f : Nat → Nat → Mod) : Mod :=
  match memRange p t.entry with
  | .error r => complete m p t.tag r
  | .ok (s, n) => if rangeTaken m.pol[p] s n then complete m p t.tag (rBad 16) else f s n

def memN (n : Nat) : Res := rOk (at8 12 (n % 2 ^ 32))

/-- MEM_MAP without RELEASE or REMAP: all or nothing; new page-table pages need Berm room (R43, R57, R422). -/
def memMap (m : Mod) (p : Fin 16) (tag : Nat) : Mod := ringRowIf m p tag 0x50 (fun e => !flg e 28 0 && !flg e 28 2) (fun t m =>
  onRange m p t (fun s n =>
    if !(rangePages m.pol[p] s n).isEmpty then complete m p tag (rBad 16)
    else match takeTables (mapRun m p s n (clsOf (flg t.entry 28 1)) .mapped) p with
      | .error r => quotaEnd m p tag r
      | .ok m1 => complete m1 p tag (memN n)))

/-- MEM_MAP with RELEASE: every frame of the range is released; unmapped pages are skipped. -/
def memMapRelease (m : Mod) (p : Fin 16) (tag : Nat) : Mod := ringRowIf m p tag 0x50 (fun e => flg e 28 0) (fun t m =>
  onRange m p t (fun s n =>
    let ns := (rangePages m.pol[p] s n).map (·.1)
    complete (releasePages m p ns) p tag (memN ns.length)))

/-- MEM_MAP with REMAP: LOST pages of the range become ZERO. -/
def memMapRemap (m : Mod) (p : Fin 16) (tag : Nat) : Mod := ringRowIf m p tag 0x50 (fun e => flg e 28 2 && !flg e 28 0) (fun t m =>
  onRange m p t (fun s n =>
    let ls := (rangePages m.pol[p] s n).filter (fun e => e.2.st == .lost)
    complete (ls.foldl (fun m e => mapZero m p e.1 e.2.cls .mapped) m) p tag (memN ls.length)))

/-- A page holds data (R62). -/
def holdsData (pg : Page) : Bool := pg.st == .resident || pg.st == .promoting || pg.st == .demoting

/-- A prefetched page below the named tier starts up by the allocation rule; whether it now waits for a copy (R62). -/
def prefetchPage (m : Mod) (p : Fin 16) (dest : Tier) (n : Nat) : Bool × Mod :=
  match getPage m p n with
  | none => (false, m)
  | some pg =>
    if pg.st == .promoting || pg.st == .demoting then (true, m)
    else if pg.st != .resident || decide (tierNo pg.tier ≤ tierNo dest) || pg.pin then (false, m)
    else if pg.tier == .toe then
      let r := fetchPage m p n
      (!r.1, r.2)
    else if m.pol[p].dCrest.direct && fits m m.pol[p] .crest pg.cls then
      (match startCopy m p n .crest with
       | some m1 => (true, m1)
       | none => (false, m))
    else (false, m)

/-- A prefetch raises what it can; it completes when no page of the range waits for a copy any more (R62, R68). -/
def prefetchStep (m : Mod) (p : Fin 16) (w : MemWait) : Mod :=
  let (wait, m1) := ((rangePages m.pol[p] w.start w.n).map (·.1)).foldl (fun (a : Bool × Mod) k =>
    let r := prefetchPage a.2 p w.toTier k; (a.1 || r.1, r.2)) (false, m)
  if wait then modPol m1 p (fun q => { q with memWaits := q.memWaits ++ [w] })
  else
    let es := rangePages m1.pol[p] w.start w.n
    let data := es.filter (fun e => holdsData e.2)
    let placed := data.filter (fun e => decide (tierNo e.2.tier ≤ tierNo w.toTier))
    let ok := placed.length == data.length && es.all (fun e => e.2.st != .lost)
    complete m1 p w.tag { memN placed.length with status := if ok then stOk else stPartial }

def memPrefetch (m : Mod) (p : Fin 16) (tag : Nat) : Mod := ringRow m p tag 0x51 (fun t m =>
  onRange m p t (fun s n =>
    prefetchStep m p ⟨tag, none, if flg t.entry 28 0 then Tier.berm else Tier.crest, s, n⟩))

/-- R61's checks of a pin, in the order the spec lists them. A page with a frame in the tier, as copy or as destination, takes no other. -/
def pinCheck (q : Polder) (t : Tier) (s n : Nat) : Option Res :=
  let es := rangePages q s n
  let d := q.dike t
  let inR (e : Nat × Page) : Bool := decide (s ≤ e.1) && decide (e.1 < s + n)
  let already := (es.filter (fun e => e.2.pin && e.2.pinTier == t)).length
  let vict := q.pages.filter (fun e => e.2.tier == t && e.2.st == .resident && !e.2.pin && !e.2.home && !inR e)
  let need := es.filter (fun e => framesOf e.2 t == 0)
  let be (l : SMap Page) : Nat := (l.filter (fun e => e.2.cls == .be)).length
  if es.length != n then some (rBad 16)
  else if es.any (fun e => e.2.st == .lost) then some (rSt stTierLost)
  else if d.pinMax < pinnedIn q t + n - already then some (rQuota (tierNo t))
  else if d.ceil < occ q t - vict.length + need.length then some (rQuota (tierNo t))
  else if 0 < be es && d.ceil - d.lcReserve < occBe q t - be vict + be need then some (rQuota (tierNo t))
  else none

/-- Room for one page of a pin: a victim outside the range leaves the tier, by the order of R49; where the BE limit binds, a BE one (R61). -/
def pinRoom (m : Mod) (p : Fin 16) (t : Tier) (s n : Nat) (c : Cls) : Mod :=
  let q := m.pol[p]
  let ok (e : Nat × Page) : Bool := !(decide (s ≤ e.1) && decide (e.1 < s + n)) && (c == .lc || !beFull q t || e.2.cls == .be)
  let lo := tierBelow t
  match (victims q t 1).find? ok, (victims q t 2).find? ok, (victims q t 3).find? ok with
  | some (v, _), _, _ => dropOther m p v
  | _, some (v, _), _ => swing m p v
  | _, _, some (v, w) =>
    if fits m q lo w.cls then (startCopy m p v lo).getD m else if lo == .berm then beginRoom m p else m
  | _, _, _ => m

/-- One page of a pin on its way: a ZERO page takes its frame at once, a page whose clean copy lies in the tier swings to it, others are
copied there (R61, Table 02-5). -/
def pinPage (m : Mod) (p : Fin 16) (t : Tier) (s n k : Nat) : Mod :=
  match getPage m p k with
  | none => m
  | some pg =>
    if pg.st == .resident && pg.tier != t && pg.oTier == t then swing m p k
    else if pg.st == .zero || (pg.st == .resident && pg.tier != t) then
      let m1 := if fits m m.pol[p] t pg.cls then m else pinRoom m p t s n pg.cls
      if fits m1 m1.pol[p] t pg.cls then
        (if pg.st == .zero then
          match takeFrame m1 p t with
          | some (f, m2) => settleAt m2 p k t f
          | none => m1
         else (startCopy (modPage m1 p k (fun g => { g with pin := false })) p k t).getD m1)
      else m1
    else m

/-- A pin in progress: it completes when every page of the range is RESIDENT in the tier, or fails when one is LOST (R61). -/
def pinStep (m : Mod) (p : Fin 16) (w : MemWait) : Mod :=
  let t := w.toTier
  let es := rangePages m.pol[p] w.start w.n
  if es.length != w.n then complete m p w.tag (rBad 16)
  else if es.any (fun e => e.2.st == .lost) then complete m p w.tag (rSt stTierLost)
  else
    let m1 := (es.map (·.1)).foldl (fun m k => pinPage m p t w.start w.n k) m
    let es1 := rangePages m1.pol[p] w.start w.n
    if es1.all (fun e => e.2.st == .resident && e.2.tier == t) then
      let m2 := (es1.map (·.1)).foldl (fun m k => modPage m p k (fun g => { g with pin := true, pinTier := t })) m1
      complete m2 p w.tag (memN w.n)
    else modPol m1 p (fun q => { q with memWaits := q.memWaits ++ [w] })

def memPin (m : Mod) (p : Fin 16) (tag : Nat) : Mod := ringRowIf m p tag 0x52 (fun e => flg e 28 0) (fun t m =>
  onRange m p t (fun s n =>
    let dest := if flg t.entry 28 1 then Tier.berm else Tier.crest
    match pinCheck m.pol[p] dest s n with
    | some r => complete (if r.status == stQuota then countRefused m p r.detail else m) p tag r
    | none =>
      let m1 := ((rangePages m.pol[p] s n).map (·.1)).foldl (fun m k => cancelDemotion m p k) m
      pinStep m1 p ⟨tag, some dest, dest, s, n⟩))

def memUnpin (m : Mod) (p : Fin 16) (tag : Nat) : Mod := ringRowIf m p tag 0x52 (fun e => !flg e 28 0) (fun t m =>
  onRange m p t (fun s n =>
    let ns := ((rangePages m.pol[p] s n).filter (fun e => e.2.pin)).map (·.1)
    complete (ns.foldl (fun m k => modPage m p k (fun g => { g with pin := false })) m) p tag (memN ns.length)))

/-- The memory commands that wait are looked at again. -/
def memRetry (m : Mod) (p : Fin 16) : Mod :=
  let ws := m.pol[p].memWaits
  ws.foldl (fun m w => if w.pinTo.isSome then pinStep m p w else prefetchStep m p w) (modPol m p (fun q => { q with memWaits := [] }))

/-- k heat epochs on one page (R45). -/
def coolPage (k : Nat) (pg : Page) : Page :=
  let bits := if pg.heat == 0 then 0 else Nat.log2 pg.heat + 1
  { pg with heat := pg.heat >>> k, cool := min (pg.cool + (k + 1 - max bits 1)) 65535 }

/-- Cool demotion out of one tier (R50). -/
def coolTier (m : Mod) (p : Fin 16) (t : Tier) : Mod :=
  let q := m.pol[p]
  let d := q.dike t
  if !d.coolEn then m else
  (q.pages.filter (fun e => e.2.tier == t && e.2.st == .resident && !e.2.pin && !e.2.home &&
      decide (d.coolMs ≤ e.2.cool * q.heatMs))).foldl (fun m e =>
    match getPage m p e.1 with
    | none => m
    | some pg =>
      if pg.st != .resident || pg.tier != t then m
      else if pg.oTier != .none && decide (tierNo t < tierNo pg.oTier) then swing m p e.1
      else if fits m m.pol[p] (tierBelow t) pg.cls then (startCopy m p e.1 (tierBelow t)).getD m
      else m) m

/-- HEAT_EPOCH (R45): the epochs that have passed by the polder counter's reading are applied, then cool pages move down
(R50) and the spillway works (R48). -/
def heatEpoch (m0 : Mod) (p : Fin 16) (t : Nat) : Mod :=
  let m := tickPol m0 p t
  let q := m.pol[p]
  let per := max 1 (q.heatMs * 1000000)
  if q.clk < q.nextHeat || !q.composed then m
  else
    let k := (q.clk - q.nextHeat) / per + 1
    let m1 := modPol m p (fun q => { q with nextHeat := q.nextHeat + k * per, pages := q.pages.mapKV (fun _ pg => coolPage k pg) })
    spill (coolTier (coolTier m1 p .crest) p .berm) p

/-- A Toe destination is written only when its unit is acknowledged (R72). -/
def destWritten (m : Mod) (pg : Page) : Bool :=
  pg.oTier != .toe || ((m.ftl.units.get pg.other).map ToeUnit.acked).getD false

/-- A revival that is under way streams on: pages whose copy was abandoned, and what waited for a frame (R64). -/
def streamOn (m : Mod) (p : Fin 16) : Mod :=
  (m.pol[p].sess.filter (fun e => e.2.reviving)).foldl (fun m e => pump m p e.1) m

/-- A copy ends: FRAME swings to the destination; on a promotion the source becomes the clean copy where R44 keeps it, on a demotion it is
released, and a promotion that waited for its frame begins (R44, R47, R51, R53). -/
def copyEnds (m : Mod) (p : Fin 16) (n : Nat) (pg : Page) : Mod :=
  let up := pg.st == .promoting
  let m0 := if pg.tier == .toe then toeRead m pg.frame else m
  let ep := if pg.oTier == .crest then 0 else m.pol[p].keyEpoch
  let keep := up && (pg.oTier == .crest || pg.keyEpoch == ep)
  let m1 := if keep then m0 else dropFrame m0 pg.tier pg.frame
  let m2 := modPage m1 p n (fun g => { g with
    st := .resident, tier := pg.oTier, frame := pg.other, keyEpoch := ep
    oTier := if keep then pg.tier else .none, other := if keep then pg.frame else 0, oEpoch := if keep then pg.keyEpoch else 0
    dirty := if up then false else g.dirty, pre := [], forPage := none })
  let m3 := pinc m2 p (if up then Ctr.migPromote (pairNo pg.tier pg.oTier) else Ctr.migDemote (pairNo pg.tier pg.oTier)) 1
  match pg.forPage with
  | some c => (match getPage m3 p c with
      | some g => if g.tier == .berm && g.st == .resident && fits m3 m3.pol[p] .crest g.cls then (startCopy m3 p c .crest).getD m3 else m3
      | none => m3)
  | none => m3

/-- MIGRATION_COMMIT (R53, R54): the copy ends, or is abandoned on a changed WGEN. -/
def migrationCommit (m : Mod) (p : Fin 16) (n : Nat) (hv : HostGen) : Mod :=
  match getPage m p n with
  | none => m
  | some pg =>
    if (pg.st != .promoting && pg.st != .demoting) || !destWritten m pg then m
    else
      let m1 := if pg.wgen != pg.sample then
          pinc (modPage (dropFrame m pg.oTier pg.other) p n (fun g => { g with
            st := .resident, oTier := .none, other := 0, pre := [], forPage := none })) p Ctr.migAbandon 1
        else copyEnds m p n pg
      spill (kick (memRetry (streamOn m1 p) p) p hv) p

/-- The sequences of a pass with an ATTN strip placed on an array that reads a body page (R66, R208). -/
def seqsReading (m : Mod) (p : Fin 16) (x : Pass) (n : Nat) : List Nat :=
  match passProg m.pol[p] x with
  | none => []
  | some g => dedup ((List.range g.layers).flatMap (fun l => match layerInst g l 3 with
    | none => []
    | some i => ((stripsOf m p x g i).filter (fun z => x.placed.contains ⟨x.id, x.level, i, z.idx, false⟩)).filterMap (fun z =>
        z.seq.bind (fun k => (x.seqs[k]?).bind (fun s => (m.pol[p].sess.get s.sess).bind (fun ses =>
          let lg := l * g.kvGroups + z.grp
          if (bodyPagesOf ses lg (attended m s lg)).contains n then some k else none))))))

/-- A job pass in flight reads or writes a page: those of its items (R184, R186). -/
def jobTouches (q : Polder) (x : Pass) (n : Nat) : Bool :=
  match x.job.bind (fun t => q.jobs.find? (fun j => j.tag == t)) with
  | none => false
  | some j =>
    let inSsa := ((findTaken q j.tag).map (fun t => fld t.entry 16 0 64)).getD 0
    (spacePages (inSsa + 4 * x.first * j.itemTokens) (4 * x.items * j.itemTokens) ++
      spacePages (j.outSsa + x.first * j.rowBytes) (x.items * j.rowBytes)).contains n

/-- The requests that need a page that is LOST end: sequences whose strips read it, jobs in mid-pass on it, and the passes and jobs of a model
whose weights they stream from it (R66, R67, Table 04-12). -/
def afterLoss (m : Mod) (p : Fin 16) (n : Nat) (o : Owner) : Mod :=
  let uses (x : Pass) : Bool := match o with
    | .weights s => x.slot == s && !x.fromCrest && x.vec.isNone
    | .crestImage s => x.slot == s && x.fromCrest && x.vec.isNone
    | _ => false
  let endSeqs (x : Pass) : Pass :=
    let is := if uses x then List.range x.seqs.length else seqsReading m p x n
    { x with seqs := x.seqs.zipIdx.map (fun e => if is.contains e.2 && e.1.ended.isNone then { e.1 with ended := some stTierLost } else e.1) }
  let m1 := modPol m p (fun q => { q with passes := q.passes.map endSeqs })
  memRetry (((m1.pol[p].passes.filter (fun x => uses x || jobTouches m1.pol[p] x n)).filterMap Pass.job).foldl
    (fun m t => endJob m p t stTierLost) m1) p

/-- A page LOST with what that ends. -/
def pageGone (m : Mod) (p : Fin 16) (n : Nat) : Mod :=
  match getPage m p n with
  | none => m
  | some pg => if pg.st == .lost then m else afterLoss (losePage m p n) p n pg.owner

/-- Units that cannot be rebuilt make the pages that used them LOST; a clean copy or a copy's destination there is only released (R80). -/
def loseUnits (m : Mod) (dead : List Nat) : Mod :=
  (List.finRange 16).foldl (fun m p =>
    (m.pol[p].pages.map (·.1)).foldl (fun m n => match getPage m p n with
      | none => m
      | some pg =>
        if pg.tier == .toe && pg.st != .zero && pg.st != .lost && dead.contains pg.frame then pageGone m p n
        else if pg.oTier == .toe && dead.contains pg.other then
          modPage (dropOther m p n) p n (fun g => { g with st := if g.st == .lost then .lost else .resident })
        else m) m) m

/-- A block needs relocation: a re-read served it, or a stripe row did and it awaits a verify read (R73, R74, R79). -/
def markBlk (m : Mod) (u : Nat) (suspect : Bool) : Mod :=
  match m.ftl.units.get u with
  | none => m
  | some x => modChan m x.ch (fun c => { c with blks := c.blks.upd x.blk (fun b => { b with
      marked := b.marked || !suspect, suspect := b.suspect || suspect }) })

/-- A read that its tier could not serve (R66): `again` says whether the re-read or LDPC with read retry served it, `stripe`
whether the stripe row could rebuild it, `tries` the codewords re-read. A rebuilt unit is written to a new location (R73); a second unreadable
unit in a row takes the pages of both with it (R80). -/
def readFail (m : Mod) (p : Fin 16) (n tries : Nat) (again stripe : Bool) : Mod :=
  match getPage m p n with
  | none => m
  | some pg =>
    if pg.st == .zero || pg.st == .lost then m
    else
      let toe := pg.tier == .toe
      let ch := ((m.ftl.units.get pg.frame).map ToeUnit.ch).getD 0
      let m0 := if toe then minc (minc m (Ctr.readRetry ch) (min tries 128)) (Ctr.eccUncorr 2) 1 else m
      if again && pg.tier != .crest then (if toe && tries != 0 then markBlk m0 pg.frame false else m0)
      else if pg.st == .resident && pg.oTier != .none && decide (tierNo pg.tier < tierNo pg.oTier) then
        pinc (swing m0 p n) p Ctr.cleanRecover 1
      else if toe && stripe then moveUnit (markBlk (minc m0 (Ctr.reconReads ch) 1) pg.frame true) pg.frame
      else if toe then pageGone (loseUnits m0 ((deadUnits m0 (some pg.frame)).filter (fun u => u != pg.frame))) p n
      else pageGone m0 p n

/-- TIER_READ_FAIL. -/
def tierReadFail (m : Mod) (p : Fin 16) (n tries : Nat) (again stripe : Bool) : Mod :=
  kick (readFail m p n tries again stripe) p ⟨[], []⟩

end Sys2Proof.Machine
end

