-- ==== Sys2Proof/Machine/VecBase.lean ====
section
/-! DEFINITION. Vector indexes: their objects in the tiers (R256), the index log, and the updates of a list: insert, delete,
build, drop, seal and compaction with their commits (R260 to R268). -/

namespace Sys2Proof.Machine

def modVec (m : Mod) (p : Fin 16) (f : Vec → Vec) : Mod := modPol m p (fun q => { q with vec := f q.vec })
def modIdx (m : Mod) (p : Fin 16) (i : Nat) (f : VIndex → VIndex) : Mod := modVec m p (fun v => { v with idx := v.idx.upd i f })
def idxOf (q : Polder) (i : Nat) : Option VIndex := q.vec.idx.get i
def listOf (x : VIndex) (l : Nat) : VList := (x.lists.get l).getD VList.empty
def modList (m : Mod) (p : Fin 16) (i l : Nat) (f : VList → VList) : Mod :=
  modIdx m p i (fun x => { x with lists := x.lists.put l (f (listOf x l)) })

/-- The most records of a segment (R258). -/
def perSeg (d : VDef) : Nat := 65472 / recBytes d

/-- Home pages of an index taken in one tier under its dike, at consecutive page numbers (R256, R57). The error is the tier
refused. -/
def homePages (m : Mod) (p : Fin 16) (i obj : Nat) (t : Tier) (n : Nat) : Except Nat (Nat × Mod) :=
  match unusedRun m p n with
  | none => .error 3
  | some (s, m1) =>
    match (List.range n).foldlM (fun (m : Mod) k =>
      let pg := { zeroPage .lc (.index i obj) with home := true }
      if t == .berm then
        match allocBerm m p .lc with
        | .error e => Except.error e
        | .ok (f, m) => Except.ok (settleAt (setPage m p (s + k) pg) p (s + k) t f)
      else if fits m m.pol[p] t .lc then
        match takeFrame m p t with
        | none => Except.error (tierNo t)
        | some (f, m) => Except.ok (settleAt (setPage m p (s + k) pg) p (s + k) t f)
      else Except.error (tierNo t)) m1 with
    | .error e => .error e
    | .ok m2 => (takeTables m2 p).map (fun m3 => (s, m3))

/-- The pages of an object of an index. -/
def objPages (q : Polder) (i obj : Nat) : List Nat := (q.pages.filter (fun e => e.2.owner == .index i obj)).map (·.1)

/-- The segment tables brought to 8 B per segment (Table 08-3); `more` segments are on their way. -/
def fitSegTab (m : Mod) (p : Fin 16) (i more : Nat) : Except Nat Mod :=
  match idxOf m.pol[p] i with
  | none => .ok m
  | some x =>
    let segs := (x.lists.map (fun e => e.2.sealed.length + (e.2.seals.length + (e.2.upds.map (fun u => u.segs.length)).sum +
      (e.2.compact.elim 0 (fun c => c.segs.length))))).sum + more
    let need := cdiv (8 * segs) 65536
    let have' := objPages m.pol[p] i objSegTab
    if need ≤ have'.length then .ok (releasePages m p (have'.drop need))
    else (homePages m p i objSegTab .berm (need - have'.length)).map (·.2)

/-- The Toe unit of a page. -/
def unitOf (q : Polder) (n : Nat) : Nat := ((q.pages.get n).map Page.frame).getD 0

/-- A Toe unit whose write is acknowledged, or that has left the map since (R72). -/
def unitAcked (m : Mod) (u : Nat) : Bool := ((m.ftl.units.get u).map ToeUnit.acked).getD true

/-- Bytes the index log holds. -/
def logBytes (x : VIndex) : Nat := (x.log.map VLog.bytes).sum

/-- The index log without entries that have been sealed or compacted (Table 08-3). -/
def logTrim (m : Mod) (p : Fin 16) (i : Nat) (gone : VLog → Bool) : Mod :=
  let m1 := modIdx m p i (fun x => { x with log := x.log.filter (fun e => !gone e) })
  match idxOf m1.pol[p] i with
  | none => m1
  | some x => releasePages m1 p ((objPages m1.pol[p] i objLog).drop (cdiv (logBytes x) 65536))

/-- An entry appended to the index log: a partly filled last page is written anew (R72), and further pages are
taken. The result names the units that await acknowledgement. -/
def logAppend (m : Mod) (p : Fin 16) (i : Nat) (e : VLog) : Except Nat (List Nat × Mod) := do
  match idxOf m.pol[p] i with
  | none => pure ([], m)
  | some x =>
    let pgs := objPages m.pol[p] i objLog
    let used := logBytes x
    let (us, m) ← match (if used % 65536 == 0 then none else pgs.getLast?) with
      | none => pure ([], m)
      | some n =>
        if (toeChannel m m.pol[p]).isNone then Except.error 2
        else pure ([unitOf m.pol[p] n], modPage (rewriteUnit m (unitOf m.pol[p] n)) p n (fun g => { g with keyEpoch := m.pol[p].keyEpoch }))
    let more := cdiv (used + e.bytes) 65536 - pgs.length
    let (s, m) ← if more == 0 then pure (0, m) else homePages m p i objLog .toe more
    pure (us ++ (List.range more).map (fun k => unitOf m.pol[p] (s + k)), modIdx m p i (fun x => { x with log := x.log ++ [e] }))

/-- Visits in flight of a list. -/
def visitsOf (q : Polder) (i l : Nat) : List Nat := (q.vec.visits.filter (fun v => v.index == i && v.list == l)).map VVisit.id

/-- What a commit replaced is released when the last visit that references it has ended, and rerank slots when no query
still holds them as candidates (R268). -/
def vecSweep (m : Mod) (p : Fin 16) (i : Nat) : Mod :=
  match idxOf m.pol[p] i with
  | none => m
  | some x =>
    let live := m.pol[p].vec.visits.map VVisit.id
    let held := (m.pol[p].vec.queries.filter (fun q => q.index == i)).flatMap (fun q => q.heap.filterMap VHit.rslot)
    let ended (o : VOld) : Bool := o.visits.all (fun v => !live.contains v)
    let slots := (x.old.filter ended).flatMap (fun o => o.slots.filter (fun s => !held.contains s))
    let m1 := releasePages m p ((x.old.filter ended).flatMap VOld.pages)
    modIdx m1 p i (fun x => { x with
      rr := x.rr.filter (fun e => !slots.contains e.1)
      old := (x.old.map (fun o => if ended o then { o with pages := [], slots := o.slots.filter (fun s => held.contains s) } else o)).filter
        (fun o => !ended o || !o.slots.isEmpty) })

/-- Pages and rerank slots replaced by a commit of a list. -/
def vecRetire (m : Mod) (p : Fin 16) (i l : Nat) (pages slots : List Nat) : Mod :=
  vecSweep (modIdx m p i (fun x => { x with old := x.old ++ [⟨pages, slots, visitsOf m.pol[p] i l⟩] })) p i

/-- A serial lies in a tombstone range (R264). -/
def dead (ts : List VTomb) (s : Nat) : Bool := ts.any (fun t => decide (t.first ≤ s) && decide (s < t.first + t.count))

def tailItems (x : VList) : List VItem := x.tail.flatMap VSeg.recs
/-- The sealed items and the committed tail items of a list. -/
def committedItems (x : VList) : List VItem := x.sealed.flatMap VSeg.recs ++ (tailItems x).take x.committed
/-- The items visible at the list's version now. -/
def visibleItems (x : VList) : List VItem := (committedItems x).filter (fun i => !dead x.tombs i.serial)

/-- ITEMS_LIVE (R285). -/
def liveAdd (m : Mod) (n : Nat) : Mod := minc m Ctr.itemsLive n
def liveSub (m : Mod) (n : Nat) : Mod := { m with ctr := m.ctr.wr Ctr.itemsLive (m.ctr.rd Ctr.itemsLive - n) }

/-- Items appended or built that have not committed. -/
def pendingItems (m : Mod) : Nat :=
  ((List.finRange 16).map (fun p => (m.pol[p].vec.idx.map (fun e => (e.2.lists.map (fun l =>
    ((l.2.upds.filter (fun u => u.kind == .ins || u.kind == .build)).map VUpd.count).sum)).sum)).sum)).sum

/-- The seals in progress of a list are given up; their Toe pages are released. -/
def cancelSeals (m : Mod) (p : Fin 16) (i l : Nat) : Mod :=
  match idxOf m.pol[p] i with
  | none => m
  | some x => modList (releasePages m p ((listOf x l).seals.map VSeal.page)) p i l (fun y => { y with seals := [] })

/-- Full, committed tail segments that no seal or compaction holds, in order. -/
def sealable (d : VDef) (y : VList) : List VSeg :=
  if y.compact.isSome || y.upds.any (fun u => u.kind == .build || u.kind == .drop) then [] else
  (y.tail.foldl (fun (a : List VSeg × Nat) s =>
    (if s.recs.length == perSeg d && decide (a.2 + s.recs.length ≤ y.committed) && y.seals.all (fun z => z.tail != s.page)
     then a.1 ++ [s] else a.1, a.2 + s.recs.length)) ([], 0)).1

/-- The seals of a list that can start do so; one that meets QUOTA counts and stays in the tail (R265). -/
def startSeals (m : Mod) (p : Fin 16) (i l : Nat) : Mod :=
  match idxOf m.pol[p] i with
  | none => m
  | some x => (sealable x.d (listOf x l)).foldl (fun m s =>
    match (do let (n, m) ← homePages m p i objSealed .toe 1; let m ← fitSegTab m p i 1; pure (n, m) : Except Nat (Nat × Mod)) with
    | .error t => if t == errWait then beginRoom m p else pinc (countRefused m p t) p Ctr.sealQuota 1
    | .ok (n, m) => modList m p i l (fun y => { y with seals := y.seals ++ [⟨s.page, n, unitOf m.pol[p] n⟩] })) m

/-- A seal whose unit is acknowledged: the segment table takes the sealed segment in place of the tail segment (R265). -/
def endSeal (m : Mod) (p : Fin 16) (i l : Nat) (z : VSeal) : Mod :=
  match idxOf m.pol[p] i with
  | none => m
  | some x =>
    let y := listOf x l
    match y.tail.find? (fun s => s.page == z.tail) with
    | none => m
    | some s =>
      let tail := y.tail.filter (fun t => t.page != z.tail)
      let m1 := modList m p i l (fun y => { y with
        sealed := y.sealed ++ [⟨z.page, s.recs, y.ver⟩], tail := tail, committed := y.committed - s.recs.length
        seals := y.seals.filter (fun w => w.tail != z.tail) })
      let low := ((tail.flatMap VSeg.recs).head?).elim y.next VItem.serial
      let m2 := logTrim (pinc m1 p Ctr.segSealed 1) p i (fun e => e.list == l && e.insert && decide (e.last < low))
      vecRetire m2 p i l [z.tail] []

/-- Items cut into segments of at most n records. -/
def cutSegs (n : Nat) (items : List VItem) : List (List VItem) := chunks (max 1 n) items.length items

/-- Sealed segments written for items: their pages under the Toe dike and their segment-table room. -/
def writeSegs (m : Mod) (p : Fin 16) (i ver : Nat) (d : VDef) (items : List VItem) : Except Nat (List VSeg × Mod) := do
  let cs := cutSegs (perSeg d) items
  let m ← fitSegTab m p i cs.length
  let (s, m) ← if cs.isEmpty then pure (0, m) else homePages m p i objSealed .toe cs.length
  pure (cs.zipIdx.map (fun e => ⟨s + e.2, e.1, ver⟩), m)

/-- A VEC_COMPACT command hears of a list it waited for; the last one completes it (R260). For one list the result gives
LIST_VER; for every list the version reported is open (log entry 11). -/
def compactTell (m : Mod) (p : Fin 16) (i l : Nat) (tag : Option Nat) (segs removed ver : Nat) : Mod :=
  match tag, idxOf m.pol[p] i with
  | some t, some x => match x.alls.find? (fun a => a.tag == t) with
    | none => m
    | some a =>
      let a' := { a with lists := a.lists.filter (fun k => k != l), segs := a.segs + segs, removed := a.removed + removed }
      if a'.lists.isEmpty then
        let v := if a.one then ver else Config.openNat m.free
        complete (modIdx { m with free := m.free + 1 } p i (fun x => { x with alls := x.alls.filter (fun b => b.tag != t) })) p t
          (rOk (a'.segs % 2 ^ 32 + at8 4 (v % 2 ^ 64) + at8 12 (a'.removed % 2 ^ 32)))
      else modIdx m p i (fun x => { x with alls := updWhere x.alls (fun b => b.tag == t) (fun _ => a') })
  | _, _ => m

/-- A compaction starts: its snapshot S_c is taken and its segments are written (R266). -/
def startCompact (m : Mod) (p : Fin 16) (i l : Nat) (tag : Option Nat) : Mod :=
  let m := cancelSeals m p i l
  match idxOf m.pol[p] i with
  | none => m
  | some x =>
    let y := listOf x l
    let keep := sortBy (fun a b : VItem => decide (a.serial < b.serial)) (visibleItems y)
    let gone := (committedItems y).filter (fun it => dead y.tombs it.serial)
    let bound := ((tailItems y).drop y.committed).head?.elim y.next VItem.serial
    match writeSegs m p i y.ver x.d keep with
    | .error t =>
      match tag with
      | none => if t == errWait then beginRoom m p else countRefused m p t
      | some g => quotaEnd (modIdx m p i (fun x => { x with alls := x.alls.filter (fun b => b.tag != g) })) p g t
    | .ok (segs, m1) => modList m1 p i l (fun y => { y with compact := some {
        tag := tag, ver := y.ver, bound := bound, segs := segs, units := segs.map (fun s => unitOf m1.pol[p] s.page)
        slots := gone.filterMap VItem.rslot, removed := gone.length } })

/-- A compaction whose units are acknowledged commits (R266): segments swapped, tombstones up to S_c dropped, slots freed. -/
def endCompact (m : Mod) (p : Fin 16) (i l : Nat) (c : VCompact) : Mod :=
  match idxOf m.pol[p] i with
  | none => m
  | some x =>
    let y := listOf x l
    let tail := (y.tail.map (fun s => { s with recs := s.recs.filter (fun it => decide (c.bound ≤ it.serial)) }))
    let goneTail := (y.tail.filter (fun s => s.recs.all (fun it => decide (it.serial < c.bound)))).map VSeg.page
    let moved := ((tailItems y).filter (fun it => decide (it.serial < c.bound))).length
    let tombs := y.tombs.filter (fun t => decide (c.ver < t.ver))
    let m1 := modList m p i l (fun y => { y with
      sealed := c.segs, tail := tail.filter (fun s => !s.recs.isEmpty), committed := y.committed - moved
      tombs := tombs, tombPage := if tombs.isEmpty then none else y.tombPage, compact := none })
    let m2 := logTrim m1 p i (fun e => e.list == l && (if e.insert then decide (e.last < c.bound) else decide (e.ver ≤ c.ver)))
    let m3 := pinc (pinc m2 p Ctr.compactions 1) p Ctr.compactBytes (65536 * c.segs.length)
    let m4 := vecRetire m3 p i l (y.sealed.map VSeg.page ++ goneTail ++ (if tombs.isEmpty then y.tombPage.toList else [])) c.slots
    startSeals (compactTell m4 p i l c.tag c.segs.length c.removed y.ver) p i l

/-- The version an update that arrives now will raise (R261). -/
def nextVer (y : VList) : Nat := y.ver + (y.upds.filter (fun u => u.kind != .compact)).length + 1

/-- The result of an update (Table 08-6). -/
def updRes (first ver n : Nat) : Res := rOk (first % 2 ^ 32 + at8 4 (ver % 2 ^ 64) + at8 12 (n % 2 ^ 32))

def tell (m : Mod) (p : Fin 16) (tag : Option Nat) (r : Res) : Mod :=
  match tag with
  | none => m
  | some t => complete m p t r

/-- The content of a list replaced (R267): its version rises once, its old items become invisible. -/
def replaceList (m : Mod) (p : Fin 16) (i l : Nat) (y : VList) (segs : List VSeg) : Mod :=
  let ver := y.ver + 1
  let m0 := liveSub m (visibleItems y).length
  let m1 := modList m0 p i l (fun z => { z with
    ver := ver, sealed := segs.map (fun s => { s with segVer := ver }), tail := [], committed := 0, tombs := [], tombPage := none, seals := [] })
  let m2 := logTrim m1 p i (fun e => e.list == l && (e.insert || decide (e.ver < ver)))
  vecRetire m2 p i l (y.sealed.map VSeg.page ++ y.tail.map VSeg.page ++ y.seals.map VSeal.page ++ y.tombPage.toList)
    ((committedItems y).filterMap VItem.rslot)

/-- The update at the head of a list commits when its writes are acknowledged (R261 to R263, R267). The answer says whether
it left the queue. -/
def commitHead (m : Mod) (p : Fin 16) (i l : Nat) : Bool × Mod :=
  match idxOf m.pol[p] i with
  | none => (false, m)
  | some x =>
    let y := listOf x l
    match y.upds with
    | [] => (false, m)
    | u :: rest =>
      if !u.units.all (unitAcked m) then (false, m) else
      let pop (m : Mod) : Mod := modList m p i l (fun y => { y with upds := rest })
      match u.kind with
      | .ins =>
        let m1 := modList (pop m) p i l (fun y => { y with ver := y.ver + 1, committed := y.committed + u.count })
        let m2 := tell (liveAdd (pinc m1 p Ctr.vecInserted u.count) u.count) p u.tag (updRes u.first (y.ver + 1) u.count)
        (true, startSeals m2 p i l)
      | .del =>
        let hit := ((visibleItems y).filter (fun it => decide (u.first ≤ it.serial) && decide (it.serial < u.first + u.count))).length
        let asked := (u.tag.bind (fun t => (findTaken m.pol[p] t).map (fun t => fld t.entry 44 0 32))).getD u.count
        let m1 := modList (pop m) p i l (fun y => { y with ver := y.ver + 1, tombs := y.tombs ++ [⟨u.first, u.count, y.ver + 1⟩] })
        let m2 := pinc (pinc m1 p Ctr.vecDeleted hit) p Ctr.deleteMiss (asked - hit)
        let m3 := tell (liveSub m2 hit) p u.tag (updRes 0 (y.ver + 1) hit)
        let auto := decide (3072 ≤ y.tombs.length + 1) && y.compact.isNone && rest.all (fun u => u.kind != .compact)
        (true, if auto then startCompact m3 p i l none else m3)
      | .build =>
        if y.compact.isSome then (false, m) else
        let m1 := replaceList (pop m) p i l y u.segs
        (true, tell (liveAdd (pinc m1 p Ctr.vecInserted u.count) u.count) p u.tag (updRes u.segs.length (y.ver + 1) u.count))
      | .drop =>
        if y.compact.isSome then (false, m)
        else (true, tell (replaceList (pop m) p i l y []) p u.tag (updRes 0 (y.ver + 1) 0))
      | .compact =>
        if y.compact.isSome then (false, m) else (true, startCompact (pop m) p i l u.tag)

def commitsN (m : Mod) (p : Fin 16) (i l : Nat) : Nat → Mod
  | 0 => m
  | n + 1 => match commitHead m p i l with
    | (false, m1) => m1
    | (true, m1) => commitsN m1 p i l n

/-- What a list's acknowledged writes allow happens: seals, the compaction, then updates in order. -/
def settleList (m : Mod) (p : Fin 16) (i l : Nat) : Mod :=
  match idxOf m.pol[p] i with
  | none => m
  | some x =>
    let y := listOf x l
    let m1 := (y.seals.filter (fun z => unitAcked m z.unit)).foldl (fun m z => endSeal m p i l z) m
    let m2 := match y.compact with
      | some c => if c.units.all (unitAcked m1) then endCompact m1 p i l c else m1
      | none => m1
    let m3 := commitsN m2 p i l (y.upds.length + 1)
    match (idxOf m3.pol[p] i).bind (fun x => (listOf x l).compact) with
    | some c => if c.units.all (unitAcked m3) then commitsN (endCompact m3 p i l c) p i l (y.upds.length + 1) else m3
    | none => m3

/-- DROP_INDEX completes when nothing of the index is in flight: its pages are released (R267). -/
def settleDrop (m : Mod) (p : Fin 16) (i : Nat) : Mod :=
  match idxOf m.pol[p] i with
  | none => m
  | some x => match x.dropping with
    | none => m
    | some t =>
      let q := m.pol[p]
      if q.vec.visits.any (fun v => v.index == i) || q.vec.queries.any (fun z => z.index == i) ||
         x.lists.any (fun e => !e.2.upds.isEmpty || e.2.compact.isSome) then m
      else
        let pgs := (q.pages.filter (fun e => match e.2.owner with
          | .index j _ => j == i
          | .rerank j => j == i
          | _ => false)).map (·.1)
        let live := (x.lists.map (fun e => (visibleItems e.2).length)).sum
        let m1 := modVec (releasePages (liveSub m live) p pgs) p (fun v => { v with idx := v.idx.del i })
        complete m1 p t (updRes 0 0 0)

/-- Every list of an index, after an event. -/
def settleIndex (m : Mod) (p : Fin 16) (i : Nat) : Mod :=
  match idxOf m.pol[p] i with
  | none => m
  | some x => settleDrop ((x.lists.map (·.1)).foldl (fun m l => settleList m p i l) m) p i

/-- A Toe unit is acknowledged: the index objects written there move on (R262, R263, R265 to R267). -/
def vecUnitAcked (m : Mod) (p : Fin 16) (u : Nat) : Mod :=
  let waits (x : VIndex) : Bool := x.lists.any (fun e => e.2.upds.any (fun w => w.units.contains u) ||
    e.2.seals.any (fun z => z.unit == u) || (match e.2.compact with
      | some c => c.units.contains u
      | none => false))
  ((m.pol[p].vec.idx.filter (fun e => waits e.2)).map (·.1)).foldl (fun m i => settleIndex m p i) m

/-- SEAL_RETRY (R265). -/
def sealRetry (m : Mod) (p : Fin 16) : Mod :=
  m.pol[p].vec.idx.foldl (fun m e => (e.2.lists.map (·.1)).foldl (fun m l => startSeals m p e.1 l) m) m

/-- TOE_WRITE_ACK (R72) with what waits for the unit. -/
def toeAcked (m : Mod) (u blk : Nat) : Mod :=
  match m.ftl.units.get u with
  | none => m
  | some x => vecUnitAcked (toeWriteAck m u blk) (pn x.pol) u

/-- The index an update names, or how the command completes (R252, R267, R269). -/
def vecIndex (m : Mod) (p : Fin 16) (e : Block) : Except Res (Nat × VIndex) :=
  let i := fld e 32 0 3
  if m.pol[p].sealed then .error rBadNone
  else match idxOf m.pol[p] i with
    | none => .error (rBad 32)
    | some x => if !x.rebuilt then .error (rSt stRetry) else if x.dropping.isSome then .error (rBad 32) else .ok (i, x)

/-- A page of an index is LOST. -/
def pageLost (q : Polder) (n : Nat) : Bool := ((q.pages.get n).map (fun g => g.st == .lost)).getD false

/-- The list an update names. -/
def vecList (m : Mod) (p : Fin 16) (e : Block) : Except Res (Nat × VIndex × Nat) := do
  let (i, x) ← vecIndex m p e
  let l := fld e 36 0 32
  if x.d.lists ≤ l then .error (rBad 36)
  else if pageLost m.pol[p] (x.listPg + 64 * l / 65536) then .error (rSt stTierLost)
  else pure (i, x, l)

/-- The lowest n free rerank slots (R262). -/
def lowSlots (x : VIndex) (n : Nat) : List Nat :=
  let free := ((List.range (x.rr.length + n)).filter (fun s => !x.rr.has s)).take n
  free.filter (fun s => decide (s < x.d.rrSlots))

/-- The pages a rerank slot lies on. -/
def slotPages (x : VIndex) (s : Nat) : List Nat :=
  (List.range (cdiv (rvBytes x.d * s % 65536 + rvBytes x.d) 65536)).map
    (fun k => x.rrPg + rvBytes x.d * s / 65536 + k)

/-- Rerank slots taken for records, with their Berm frames (R256, R262). -/
def takeSlots (m : Mod) (p : Fin 16) (i : Nat) (x : VIndex) (recs : List VRec) : Except Nat (List (Option Nat) × Mod) :=
  if x.d.rrSlots == 0 then .ok (recs.map (fun _ => none), m)
  else
    let ss := lowSlots x recs.length
    if ss.length < recs.length then .error 3
    else
      match (dedup (ss.flatMap (slotPages x))).foldlM (fun (m : Mod) n =>
        match getPage m p n with
        | none => Except.ok m
        | some pg => if pg.st != PState.zero then Except.ok m else match allocBerm m p .lc with
          | .error t => Except.error t
          | .ok (f, m) => Except.ok (settleAt m p n .berm f)) m with
      | .error t => .error t
      | .ok m1 => .ok (ss.map some, modIdx m1 p i (fun x => { x with
          rr := (ss.zip recs).foldl (fun (r : SMap (List Nat)) e => r.put e.1 e.2.vec) x.rr }))

/-- Records appended to the tail, new segments as needed; more than 64 segments are refused (R262). -/
def appendTail (m : Mod) (p : Fin 16) (i l : Nat) (d : VDef) (items : List VItem) : Except Nat Mod := do
  match idxOf m.pol[p] i with
  | none => pure m
  | some x =>
    let y := listOf x l
    let room := match y.tail.getLast? with
      | some s => if y.seals.any (fun z => z.tail == s.page) then 0 else perSeg d - s.recs.length
      | none => 0
    let cs := cutSegs (perSeg d) (items.drop room)
    if 64 < y.tail.length + cs.length then Except.error 3
    else
      let (s, m) ← if cs.isEmpty then pure (0, m) else homePages m p i objTail .berm cs.length
      let last := ((y.tail.getLast?).map VSeg.page).getD 0
      pure (modList m p i l (fun y => { y with
        tail := updWhere y.tail (fun s => s.page == last) (fun s => { s with recs := s.recs ++ items.take room }) ++
          cs.zipIdx.map (fun e => ⟨s + e.2, e.1, 0⟩) }))

/-- The records a command read. -/
def recsOf (d : VDef) (n : Nat) (b : Block) : List VRec := (List.range n).map (recAt d b)

/-- The records of an insert on their way (R262): rerank slots, tail, index log, and the update that will commit. -/
def insPlan (m : Mod) (p : Fin 16) (i : Nat) (x : VIndex) (l tag n : Nat) (rs : List VRec) : Except Nat Mod := do
  let y := listOf x l
  let (slots, m) ← takeSlots m p i x rs
  let items := (rs.zip slots).zipIdx.map (fun e => (⟨y.next + e.2, e.1.2, e.1.1⟩ : VItem))
  let m ← appendTail m p i l x.d items
  let (us, m) ← logAppend m p i ⟨l, true, y.next + n - 1, 0, 64 + n * (recBytes x.d + (if x.d.rrSlots == 0 then 0 else rvBytes x.d))⟩
  pure (modList m p i l (fun y => { y with next := y.next + n, upds := y.upds ++ [⟨some tag, .ins, us, y.next, n, []⟩] }))

/-- VEC_INSERT (R262). -/
def vecInsert (m : Mod) (p : Fin 16) (tag : Nat) (recs : Block) : Mod := ringRow m p tag 0x41 (fun t m =>
  match vecList m p t.entry with
  | .error r => complete m p tag r
  | .ok (i, x, l) =>
    let n := fld t.entry 40 0 32
    let y := listOf x l
    if 65536 < n then complete m p tag (rBad 40)
    else if 2 ^ 32 - 1 < y.next + n || 200000000000 < m.ctr.rd Ctr.itemsLive + pendingItems m + n then quotaEnd m p tag 3
    else
      match insPlan m p i x l tag n (recsOf x.d n recs) with
      | .error tr => quotaEnd m p tag tr
      | .ok m1 => settleList m1 p i l)

/-- The serials of a delete on their way (R263): the tombstone page, the index log, and the update that will commit. -/
def delPlan (m : Mod) (p : Fin 16) (i : Nat) (x : VIndex) (l tag first n : Nat) : Except Nat Mod := do
  let y := listOf x l
  let m ← match y.tombPage with
    | some _ => pure m
    | none => do
      let (s, m) ← homePages m p i objTomb .berm 1
      pure (modList m p i l (fun y => { y with tombPage := some s }))
  let (us, m) ← logAppend m p i ⟨l, false, 0, nextVer y, 64⟩
  pure (modList m p i l (fun y => { y with
    upds := y.upds ++ [⟨some tag, .del, us, first, min n (y.next - first), []⟩] }))

/-- VEC_DELETE (R263). -/
def vecDelete (m : Mod) (p : Fin 16) (tag : Nat) : Mod := ringRow m p tag 0x42 (fun t m =>
  match vecList m p t.entry with
  | .error r => complete m p tag r
  | .ok (i, x, l) =>
    let first := fld t.entry 40 0 32
    let n := fld t.entry 44 0 32
    let y := listOf x l
    if 65536 < n then complete m p tag (rBad 44)
    else if 4096 < y.tombs.length + (y.upds.filter (fun u => u.kind == .del)).length + 1 then complete m p tag (rSt stRetry)
    else
      match delPlan m p i x l tag first n with
      | .error tr => quotaEnd m p tag tr
      | .ok m1 => settleList m1 p i l)

/-- The segments of a build on their way (R267), and the update that will commit. -/
def buildPlan (m : Mod) (p : Fin 16) (i : Nat) (x : VIndex) (l tag n : Nat) (rs : List VRec) : Except Nat Mod := do
  let y := listOf x l
  let (slots, m) ← takeSlots m p i x rs
  let items := (rs.zip slots).zipIdx.map (fun e => (⟨y.next + e.2, e.1.2, e.1.1⟩ : VItem))
  let (segs, m) ← writeSegs m p i 0 x.d items
  let (us, m) ← logAppend m p i ⟨l, false, 0, nextVer y, 64⟩
  pure (modList m p i l (fun y => { y with
    next := y.next + n
    upds := y.upds ++ [⟨some tag, .build, us ++ segs.map (fun s => unitOf m.pol[p] s.page), y.next, n, segs⟩] }))

/-- VEC_BUILD_LIST with ACTION BUILD (R267). -/
def vecBuild (m : Mod) (p : Fin 16) (tag : Nat) (recs : Block) : Mod :=
  ringRowIf m p tag 0x43 (fun e => fld e 33 0 2 == 1) (fun t m =>
  match vecList m p t.entry with
  | .error r => complete m p tag r
  | .ok (i, x, l) =>
    let n := fld t.entry 40 0 32
    let y := listOf x l
    if 16777216 < n then complete m p tag (rBad 40)
    else if 2 ^ 32 - 1 < y.next + n || 200000000000 < m.ctr.rd Ctr.itemsLive + pendingItems m + n then quotaEnd m p tag 3
    else
      match buildPlan m p i x l tag n (recsOf x.d n recs) with
      | .error tr => quotaEnd m p tag tr
      | .ok m1 => settleList m1 p i l)

/-- VEC_BUILD_LIST with ACTION DROP_LIST (R267). -/
def vecDropList (m : Mod) (p : Fin 16) (tag : Nat) : Mod :=
  ringRowIf m p tag 0x43 (fun e => fld e 33 0 2 == 2) (fun t m =>
  match vecList m p t.entry with
  | .error r => complete m p tag r
  | .ok (i, x, l) =>
    let y := listOf x l
    match logAppend m p i ⟨l, false, 0, nextVer y, 64⟩ with
    | .error tr => quotaEnd m p tag tr
    | .ok (us, m1) => settleList (modList m1 p i l (fun y => { y with upds := y.upds ++ [⟨some tag, .drop, us, 0, 0, []⟩] })) p i l)

/-- VEC_COMPACT (R260, R266). -/
def vecCompact (m : Mod) (p : Fin 16) (tag : Nat) : Mod := ringRow m p tag 0x44 (fun t m =>
  let every := fld t.entry 36 0 32 == 0xFFFFFFFF
  let named : Except Res (Nat × List Nat) :=
    if every then (vecIndex m p t.entry).map (fun e => (e.1, (e.2.lists.filter (fun l => !l.2.tombs.isEmpty)).map (·.1)))
    else (vecList m p t.entry).map (fun e => (e.1, [e.2.2]))
  match named with
  | .error r => complete m p tag r
  | .ok (i, ls) =>
    if ls.isEmpty then complete { m with free := m.free + 1 } p tag (rOk (at8 4 (Config.openNat m.free % 2 ^ 64)))
    else
      let m1 := modIdx m p i (fun x => { x with alls := x.alls ++ [⟨tag, ls, !every, 0, 0⟩] })
      let m2 := ls.foldl (fun m l => modList m p i l (fun y => { y with upds := y.upds ++ [⟨some tag, .compact, [], 0, 0, []⟩] })) m1
      ls.foldl (fun m l => settleList m p i l) m2)

end Sys2Proof.Machine
end

