-- ==== Sys2Proof/Machine/VecQuery.lean ====
section
/-! DEFINITION. Vector queries (R270 to R283): defining and dropping an index, coarse ranking and rerank as strips, list
queues and visits, widening, deadlines and results. -/

namespace Sys2Proof.Machine

/-- The bytes of a field width code. -/
def fieldBytes (w : Nat) : Nat := match w with
  | 0 => 1 | 1 => 2 | _ => 4

/-- The refusals of DEFINE by BAD_CMD (R253, R255). -/
def defBad (d : VDef) : Bool :=
  let fs := d.fields.take d.nfields
  let span (f : VField) : Nat × Nat := (f.off, f.off + fieldBytes f.width)
  d.version != 1 || decide (d.codeBits < 128) || decide (4096 < d.codeBits) || d.codeBits % 64 != 0 ||
  d.lists == 0 || decide (4194304 < d.lists) || decide (8 < d.nfields) || decide (32 < d.afBytes) || d.afBytes % 8 != 0 ||
  decide (50000 < d.batchUs) || fs.length != d.nfields ||
  fs.any (fun f => f.width == 3 || decide (d.afBytes < (span f).2)) ||
  fs.zipIdx.any (fun a => fs.zipIdx.any (fun b => decide (a.2 < b.2) && decide ((span a.1).1 < (span b.1).2) && decide ((span b.1).1 < (span a.1).2))) ||
  (d.rrSlots != 0 && (!(d.rvFmt == 0 || d.rvFmt == 1 || d.rvFmt == 9) || decide (d.rvDim < 64) || decide (4096 < d.rvDim) ||
    d.rvDim % 64 != 0))

/-- The objects of a new index placed (R256): the centroid table in Crest within the LC class limit or in Berm, the list
table in Berm, the rerank region mapped ZERO. -/
def placeIndex (m : Mod) (p : Fin 16) (i : Nat) (d : VDef) : Except Nat (Nat × Nat × Nat × Mod) := do
  let nc := cdiv (d.lists * (d.codeBits / 8)) 65536
  let (c, m) ← match homePages m p i objCent .crest nc with
    | .ok r => pure r
    | .error _ => homePages (pinc m p (Ctr.quotaRefused 0) 1) p i objCent .berm nc
  let (l, m) ← homePages m p i objList .berm (cdiv (64 * d.lists) 65536)
  if d.rrSlots == 0 then pure (c, l, 0, m)
  else
    let n := cdiv (d.rrSlots * rvBytes d) 65536
    match unusedRun m p n with
    | none => Except.error 3
    | some (r, m) =>
      let m := (List.range n).foldl (fun m k => setPage m p (r + k) { zeroPage .lc (.rerank i) with home := true }) m
      let m ← takeTables m p
      pure (c, l, r, m)

/-- An index as its definition leaves it (R254 to R256): empty lists, its objects at their pages. -/
def newIndex (d : VDef) (cents : Block) (c l r : Nat) : VIndex :=
  { d := d, cents := (List.range d.lists).map (fun k => fld cents (d.codeBits / 8 * k) 0 d.codeBits), lists := [], rr := [], centPg := c, listPg := l, rrPg := r
    log := [], old := [], alls := [], dropping := none, rebuilt := true }

/-- VEC_BUILD_LIST with ACTION DEFINE (R254 to R256). -/
def vecDefine (m : Mod) (p : Fin 16) (tag : Nat) (blk cents : Block) : Mod :=
  ringRowIf m p tag 0x43 (fun e => fld e 33 0 2 == 0) (fun t m =>
  let i := fld t.entry 32 0 3
  let d := defOf blk
  if m.pol[p].sealed then complete m p tag rBadNone
  else if (idxOf m.pol[p] i).isSome then
    complete m p tag (if (idxOf m.pol[p] i).elim true VIndex.rebuilt then rBad 32 else rSt stRetry)
  else if defBad d then complete m p tag (rBad 16)
  else match placeIndex m p i d with
    | .error tr => quotaEnd m p tag tr
    | .ok (c, l, r, m1) =>
      complete (modVec m1 p (fun v => { v with idx := v.idx.put i (newIndex d cents c l r) })) p tag (updRes 0 0 0))

def queryOf (q : Polder) (tag : Nat) : Option VQuery := q.vec.queries.find? (fun z => z.tag == tag)
def modQuery (m : Mod) (p : Fin 16) (tag : Nat) (f : VQuery → VQuery) : Mod :=
  modVec m p (fun v => { v with queries := updWhere v.queries (fun z => z.tag == tag) f })
def dropQuery (m : Mod) (p : Fin 16) (tag : Nat) : Mod :=
  modPol m p (fun q => { q with
    vec := { q.vec with
      queries := q.vec.queries.filter (fun z => z.tag != tag)
      queues := (q.vec.queues.map (fun e => (e.1, e.2.filter (fun w => w.1 != tag)))).filter (fun e => !e.2.isEmpty) }
    passes := (q.passes.map (fun x => { x with vec := x.vec.map (fun v => { v with tags := v.tags.filter (fun t => t != tag) }) })).filter
      (fun x => x.vec.elim true (fun v => !v.tags.isEmpty)) })

def queueKey (i l : Nat) : Nat := i * 4194304 + l

/-- KEEP (R276). -/
def VQuery.keep (z : VQuery) : Nat := if z.rerank then z.rerankN else z.topK

/-- The order of R278. -/
def hitLt (a b : VHit) : Bool :=
  if a.dist != b.dist then decide (a.dist < b.dist)
  else if a.list != b.list then decide (a.list < b.list)
  else decide (a.serial < b.serial)

/-- A query that names no results ends (R281, R285). -/
def endQuery (m : Mod) (p : Fin 16) (tag st : Nat) : Mod := complete (dropQuery (pinc m p Ctr.vecQueries 1) p tag) p tag (rSt st)

/-- The results of a query written, then its completion (R281, R283). -/
def writeResults (m : Mod) (p : Fin 16) (z : VQuery) (rs : List (VHit × F32)) : Mod :=
  let out := rs.take z.topK
  let st := if out.length == z.topK && !z.unvisited && !z.skip then stOk else stPartial
  let m1 := pinc (dropQuery m p z.tag) p Ctr.vecQueries 1
  let m2 := pincIf (pincIf (pincIf m1 p (st == stPartial) Ctr.vecPartial) p z.exhausted Ctr.vecExhausted) p z.late Ctr.vecDeadline
  let m3 := hostOut m2 p z.rbuf (32 * out.length) (pack (resultFields out))
  let flags := b2n z.exhausted + 2 * b2n z.late + 4 * b2n z.rerank + 8 * b2n z.skip
  complete m3 p z.tag { rOk (out.length + at8 4 (z.probed % 65536) + at8 6 flags + at8 8 (min z.found 0xFFFFFFFF)) with status := st }

/-- A strip pass of a query: n strips of hs handshakes, in the queue of its class (R275, R282). A coarse strip of the index and class that no
array has taken yet is shared by up to 64 queries. With no array left the query completes with FENCED (Table 13-3). -/
def vecPass (m : Mod) (p : Fin 16) (z : VQuery) (index : Option Nat) (hs n : Nat) : Mod :=
  if (liveArrays m p).isEmpty then endQuery m p z.tag stFenced
  else
    let open' (x : Pass) : Bool := x.lc == z.lc && x.placed.isEmpty && x.vec.elim false (fun v => v.index.isSome && v.index == index && decide (v.tags.length < 64))
    match m.pol[p].passes.find? open' with
    | some x => modPass m p x.id (fun x => { x with vec := x.vec.map (fun v => { v with tags := v.tags ++ [z.tag] }) })
    | none =>
      let jid := ((findTaken m.pol[p] z.tag).map Taken.job).getD 0
      dispatch (modPol m p (fun q => { q with
        nextPass := q.nextPass + 1
        passes := q.passes ++ [{
          id := q.nextPass, slot := 65536, start := q.clk, lc := z.lc, jobId := jid, job := none, first := 0, items := 0, seqs := [],
          level := 0, levels := 1, done := [], placed := [], since := [], region := 0, claim := 0, fromCrest := true, acts := [],
          deadlineDone := true, vec := some ⟨[z.tag], index, hs, n⟩ }] })) p

/-- The scores of one rerank strip: the dot product of the query vector and each candidate's rerank vector, in the operand pair of its format
(R282, Table 04-8). -/
def rerankScores (x : VIndex) (z : VQuery) (order : List (List Nat)) (idx : Nat) (cs : List (Nat × Nat)) : List (Nat × F32) :=
  (((cs.drop (64 * idx)).take 64).zipIdx).map (fun c => (c.1.1,
    (dot ((order[c.2]?).getD []) ⟨x.d.rvFmt, (x.rr.get c.1.2).getD [], []⟩ ⟨x.d.rvFmt, z.blk.vec, []⟩ x.d.rvDim).f32))

/-- The order of rerank: score descending, then the order of R278. -/
def scoreLt (a b : VHit × F32) : Bool := if f32Lt b.2 a.2 then true else if f32Lt a.2 b.2 then false else hitLt a.1 b.1

/-- The candidates that have a rerank vector. -/
def rrCands (z : VQuery) : List (Nat × Nat) := z.heap.zipIdx.filterMap (fun e => e.1.rslot.map (fun s => (e.2, s)))

/-- A query with its heap settled goes on to rerank or results (R279 to R282). -/
def finishVisits (m : Mod) (p : Fin 16) (tag : Nat) : Mod :=
  match queryOf m.pol[p] tag with
  | none => m
  | some z =>
    if !z.rerank then writeResults m p z (z.heap.map (fun h => (h, 0#32)))
    else match idxOf m.pol[p] z.index with
      | none => endQuery m p tag stAborted
      | some x =>
        let cs := rrCands z
        if cs.any (fun c => (slotPages x c.2).any (pageLost m.pol[p])) then endQuery m p tag stTierLost
        else if fencedBit m.fence.units (16 + p.val) then endQuery m p tag stFenced
        else if cs.isEmpty then writeResults m p z (z.heap.map (fun h => (h, f32NegInf)))
        else
          let pgs := dedup (cs.flatMap (fun c => slotPages x c.2))
          let m1 := pgs.foldl (fun m n => accessPage m p n) (pinc m p Ctr.rerankVectors cs.length)
          let m2 := pinc m1 p Ctr.pumpBytes (cs.length * rvBytes x.d)
          let hs := cdiv x.d.rvDim (tileK x.d.rvFmt x.d.rvFmt) * (if x.d.rvFmt == 0 then 4 else 1)
          vecPass (modQuery m2 p tag (fun z => { z with phase := .rerank })) p z none hs (cdiv cs.length 64)

/-- A query joins the queues of the next lists of its ranking (R279). -/
def joinRound (m : Mod) (p : Fin 16) (tag n : Nat) : Mod :=
  match queryOf m.pol[p] tag with
  | none => m
  | some z =>
    let ls := (z.rank.drop z.probed).take n
    modVec (modQuery m p tag (fun z => { z with queued := ls, inVisit := [], phase := .visiting })) p (fun v => { v with
      queues := ls.foldl (fun (q : SMap (List (Nat × Nat))) l => q.put (queueKey z.index l) ((q.get (queueKey z.index l)).getD [] ++ [(tag, m.pol[p].clk)])) v.queues })

/-- The stop conditions once a round's visits are over (R279, R280). -/
def roundOver (m : Mod) (p : Fin 16) (tag : Nat) : Mod :=
  match queryOf m.pol[p] tag with
  | none => m
  | some z =>
    if z.phase != .visiting || !z.queued.isEmpty || !z.inVisit.isEmpty then m
    else
      let now := m.pol[p].clk
      let reached := z.deadline.elim false (fun d => decide (d ≤ now))
      let exact := z.deadline == some now
      let full := decide (z.topK ≤ z.found)
      let overN := z.probed == z.rank.length
      if z.unvisited || full || overN || reached then
        finishVisits (modQuery m p tag (fun z => { z with
          exhausted := !z.unvisited && !full && overN, late := z.unvisited || exact || (reached && !full && !overN) })) p tag
      else joinRound m p tag (min z.nprobe (z.rank.length - z.probed))

/-- The queries of a list queue that a visit takes: at most 256, their KEEP within 65,536 (R276). -/
def takeQueue (q : Polder) : Nat → Nat → List (Nat × Nat) → List Nat
  | 0, _, _ => []
  | _, _, [] => []
  | n + 1, left, (t, _) :: rest =>
    let k := ((queryOf q t).map VQuery.keep).getD 0
    if left < k then [] else t :: takeQueue q n (left - k) rest

/-- A list queue is ready (R276). -/
def queueReady (q : Polder) (key : Nat) (w : List (Nat × Nat)) : Bool :=
  let batch := ((idxOf q (key / 4194304)).map (fun x => x.d.batchUs)).getD 0
  let keeps := (w.map (fun e => ((queryOf q e.1).map VQuery.keep).getD 0)).sum
  !w.isEmpty && (decide (256 ≤ w.length) || decide (65536 ≤ keeps) ||
    ((w.head?).map (fun e => decide (e.2 + batch * 1000 ≤ q.clk))).getD false)

/-- The ready queue that a visit serves next: of those with an LC query, the one whose oldest query waited longest, else of
all ready ones (R276). -/
def nextQueue (q : Polder) : Option (Nat × List (Nat × Nat)) :=
  let ready := q.vec.queues.filter (fun e => queueReady q e.1 e.2)
  let lc := ready.filter (fun e => e.2.any (fun w => ((queryOf q w.1).map VQuery.lc).getD false))
  let oldest (e : Nat × List (Nat × Nat)) : Nat := ((e.2.head?).map (·.2)).getD 0
  (if lc.isEmpty then ready else lc).foldl (fun (b : Option (Nat × List (Nat × Nat))) e => match b with
    | none => some e
    | some c => if oldest e < oldest c then some e else some c) none

/-- A visit starts with its snapshot (R264, R276). -/
def startVisit (m : Mod) (p : Fin 16) (key : Nat) (w : List (Nat × Nat)) : Mod :=
  let i := key / 4194304
  let l := key % 4194304
  match idxOf m.pol[p] i with
  | none => m
  | some x =>
    let y := listOf x l
    let ts := takeQueue m.pol[p] 256 65536 w
    let v : VVisit := {
      id := m.pol[p].vec.next, index := i, list := l, queries := ts, ver := y.ver, segs := y.sealed, tail := y.tail,
      lc := ts.any (fun t => ((queryOf m.pol[p] t).map VQuery.lc).getD false), committed := y.committed,
      tombs := y.tombs.filter (fun t => decide (t.ver ≤ y.ver)) }
    let rest := w.drop ts.length
    let m1 := modVec m p (fun q => { q with
      next := q.next + 1, visits := q.visits ++ [v]
      queues := if rest.isEmpty then q.queues.del key else q.queues.put key rest })
    ts.foldl (fun m t => modQuery m p t (fun z => { z with
      queued := z.queued.filter (fun k => k != l), inVisit := z.inVisit ++ [l], started := true })) m1

def startVisitsN (m : Mod) (p : Fin 16) : Nat → Mod
  | 0 => m
  | n + 1 =>
    if 8 ≤ m.pol[p].vec.visits.length then m
    else match nextQueue m.pol[p] with
      | none => m
      | some (k, w) => startVisitsN (startVisit m p k w) p n

/-- The visit rule (R276): visits start while fewer than 8 are in flight and a queue is ready. A fenced polder starts none. -/
def startVisits (m : Mod) (p : Fin 16) : Mod := if m.pol[p].fenced then m else startVisitsN m p 8

/-- A record's field of an index, widened to 32 bits (R272). -/
def fieldVal (f : VField) (fields : Nat) : Int :=
  let w := 8 * fieldBytes f.width
  let v := (fields >>> (8 * f.off)) % 2 ^ w
  if f.signed && decide (2 ^ (w - 1) ≤ v) then (v : Int) - (2 ^ w : Nat) else v

/-- A 32-bit bound read as signed or unsigned. -/
def bound32 (signed : Bool) (v : Nat) : Int := if signed && decide (2 ^ 31 ≤ v % 2 ^ 32) then ((v % 2 ^ 32 : Nat) : Int) - (2 ^ 32 : Nat) else (v % 2 ^ 32 : Nat)

def clauseHolds (d : VDef) (c : VClause) (r : VRec) : Bool :=
  match d.fields[c.field]? with
  | none => false
  | some f =>
    let v := fieldVal f r.fields
    let lo := bound32 f.signed c.lo
    let hi := bound32 f.signed c.hi
    match c.op with
    | 0 => v == lo
    | 1 => v != lo
    | 2 => decide (lo ≤ v) && decide (v ≤ hi)
    | _ => decide (v < lo) || decide (hi < v)

/-- The filter (R272). A tag test on an index without TAGS fails. -/
def passes (d : VDef) (f : VFilter) (r : VRec) : Bool :=
  let tags := r.tags % 2 ^ 256
  (f.clauses.take f.nclause).all (fun c => clauseHolds d c r) &&
  (!f.allEn || (d.tags && (tags &&& (f.tagAll % 2 ^ 256)) == f.tagAll % 2 ^ 256)) &&
  (!f.anyEn || (d.tags && (tags &&& (f.tagAny % 2 ^ 256)) != 0)) &&
  (!f.noneEn || (d.tags && (tags &&& (f.tagNone % 2 ^ 256)) == 0))

/-- Hamming distance over CODE_BITS bits (R277). -/
def hamming (d : VDef) (a b : Nat) : Nat := popcount (a ^^^ b) d.codeBits

/-- One record examined for one query (R277). -/
def examine (d : VDef) (list : Nat) (z : VQuery) (it : VItem) : VQuery :=
  if z.filter.elim false (fun f => !passes d f it.r) then z
  else
    let dist := hamming d z.blk.code it.r.code
    if z.maxDist != 0xFFFF && decide (z.maxDist < dist) then z
    else { z with found := z.found + 1, heap := (insertBy hitLt ⟨dist, list, it.serial, it.r.id, it.rslot⟩ z.heap).take z.keep }

/-- The segment-table page that holds a list's first entry: entries lie in list order (Table 08-3). -/
def segTabPage (q : Polder) (i : Nat) (x : VIndex) (l : Nat) : Option Nat :=
  let before := ((x.lists.filter (fun e => decide (e.1 < l))).map (fun e => e.2.sealed.length)).sum
  (objPages q i objSegTab)[8 * before / 65536]?

/-- The scan of a visit (R277, R281): the segments that could be read, in order; `bad` numbers those whose CHECK failed,
sealed ones first. -/
def readableSegs (q : Polder) (v : VVisit) (bad : List Nat) : List VSeg :=
  ((v.segs ++ v.tail).zipIdx.filter (fun e => !bad.contains e.2 && !pageLost q e.1.page)).map (·.1)

/-- VISIT_END (R276 to R281). -/
def visitEnd (m0 : Mod) (p : Fin 16) (id t : Nat) (bad : List Nat) : Mod :=
  let m := tickPol m0 p t
  match m.pol[p].vec.visits.find? (fun v => v.id == id), m.pol[p].fenced with
  | some v, false => match idxOf m.pol[p] v.index with
    | none => m
    | some x =>
      let q := m.pol[p]
      let m1 := modVec m p (fun w => { w with visits := w.visits.filter (fun z => z.id != id) })
      let m2 := pinc (pinc m1 p Ctr.visits 1) p Ctr.visitQueries v.queries.length
      let tabs := [x.listPg + 64 * v.list / 65536] ++ (segTabPage q v.index x v.list).toList ++ (listOf x v.list).tombPage.toList
      let m3 :=
        if tabs.any (pageLost q) then v.queries.foldl (fun m t => endQuery m p t stTierLost) m2
        else
          let ok := readableSegs q v bad
          let okTail (s : VSeg) : Bool := ok.contains s
          let skip := decide (ok.length < v.segs.length + v.tail.length)
          let cut := ((v.tail.flatMap VSeg.recs).take v.committed).map VItem.serial
          let items := (v.segs.filter okTail).flatMap VSeg.recs ++
            ((v.tail.filter okTail).flatMap VSeg.recs).filter (fun it => cut.contains it.serial)
          let live := items.filter (fun it => !dead v.tombs it.serial)
          let m3 := (v.segs.filter okTail).foldl (fun m s =>
            let u := unitOf q s.page
            minc (toeRead m u) (Ctr.scanBytes (((m.ftl.units.get u).map ToeUnit.ch).getD 0)) 65536) m2
          let m4 := pinc m3 p Ctr.scanRecords items.length
          v.queries.foldl (fun m t => match queryOf m.pol[p] t with
            | none => m
            | some z =>
              let z1 := live.foldl (fun z it => examine x.d v.list z it) z
              roundOver (modQuery (pinc m p Ctr.filterPass (z1.found - z.found)) p t (fun _ => { z1 with
                skip := z1.skip || skip, inVisit := z1.inVisit.filter (fun k => k != v.list), probed := z1.probed + 1 })) p t) m4
      settleIndex (vecSweep (startVisits m3 p) p v.index) p v.index
  | _, _ => m

/-- BATCH_TIMER (R276). -/
def batchTimer (m : Mod) (p : Fin 16) (t : Nat) : Mod := startVisits (tickPol m p t) p

/-- QUERY_DEADLINE (R280): the query leaves every queue it waits in and goes on once its started visits have ended. -/
def queryDeadline (m0 : Mod) (p : Fin 16) (tag t : Nat) : Mod :=
  let m := tickPol m0 p t
  match queryOf m.pol[p] tag with
  | none => m
  | some z =>
    if z.deadline.elim true (fun d => decide (m.pol[p].clk < d)) || z.phase != .visiting || z.queued.isEmpty then m
    else
      let m1 := modQuery m p tag (fun z => { z with unvisited := true, queued := [] })
      let m2 := modVec m1 p (fun v => { v with
        queues := (v.queues.map (fun e => (e.1, e.2.filter (fun w => w.1 != tag)))).filter (fun e => !e.2.isEmpty) })
      settleIndex (roundOver m2 p tag) p z.index

/-- The coarse ranking (R275): lists by Hamming distance, ties to the lower number, the first P of them. -/
def coarse (x : VIndex) (z : VQuery) : List Nat :=
  ((sortBy (fun a b : Nat × Nat => decide (a.1 < b.1)) (x.cents.zipIdx.map (fun e => (hamming x.d z.blk.code e.1, e.2)))).take
    (min z.maxProbe x.d.lists)).map (·.2)

/-- The strips of a query's pass have completed (R274 steps 3 and 8). -/
def vecPassDone (m : Mod) (p : Fin 16) (z : VQuery) : Mod :=
  match idxOf m.pol[p] z.index with
  | none => endQuery m p z.tag stAborted
  | some x => match z.phase with
    | .coarse =>
      let m1 := modQuery m p z.tag (fun z => { z with rank := coarse x z })
      let reached := z.deadline.elim false (fun d => decide (d ≤ m.pol[p].clk))
      if reached then finishVisits (modQuery m1 p z.tag (fun z => { z with unvisited := true, late := true, phase := .visiting })) p z.tag
      else startVisits (joinRound m1 p z.tag (min z.nprobe (coarse x z).length)) p
    | .rerank =>
      let score (e : VHit × Nat) : F32 := match e.1.rslot with
        | none => f32NegInf
        | some _ => ((z.scores.find? (fun w => w.1 == e.2)).map (·.2)).getD f32NegInf
      let rs := sortBy scoreLt (z.heap.zipIdx.map (fun e => (e.1, score e)))
      settleIndex (writeResults m p z rs) p z.index
    | .visiting => m

/-- STRIP_COMPLETE (R171) with the strips of vector queries: a rerank strip leaves the scores of its candidates. -/
def stripDone (m : Mod) (p : Fin 16) (a t : Nat) (o : StripOut) (hv : HostGen) : Mod :=
  let key := (m.pol[p].arrays.get a).bind ArrSlots.run
  let m1 := stripComplete m p a t o hv
  match key.bind (fun k => (passOf m1.pol[p] k.pass).map (fun x => (k, x))) with
  | none => m1
  | some (k, x) => match x.vec with
    | none => m1
    | some v =>
      if !isDone x k then m1
      else
        let m2 := v.tags.foldl (fun m tag => modQuery m p tag (fun z => match z.phase, idxOf m.pol[p] z.index with
          | .rerank, some v => { z with scores := z.scores ++ rerankScores v z o.order k.idx (rrCands z) }
          | _, _ => z)) m1
        if x.done.length < v.n then m2
        else
          let m3 := modPol m2 p (fun q => { q with passes := q.passes.filter (fun y => y.id != x.id) })
          v.tags.foldl (fun m tag => match queryOf m.pol[p] tag with
            | none => m
            | some z => vecPassDone m p z) m3

/-- The refusals of a query (R273). -/
def queryBad (e : Block) (x : VIndex) (b : VBlock) : Option Nat :=
  let filt := flg e 33 1
  let rr := flg e 33 2
  let k := fld e 34 0 11
  if fld e 16 0 6 != 0 then some 16
  else if fld e 24 0 6 != 0 then some 24
  else if rr && x.d.rrSlots == 0 then some 33
  else if k == 0 || 1024 < k then some 34
  else if fld e 36 0 16 == 0 || 4096 < fld e 36 0 16 || fld e 38 0 16 < fld e 36 0 16 then some 36
  else if 4096 < fld e 38 0 16 then some 38
  else if fld e 40 0 16 != 0xFFFF && x.d.codeBits < fld e 40 0 16 then some 40
  else if rr && (fld e 42 0 13 < k || 4096 < fld e 42 0 13) then some 42
  else if 60000000 < fld e 44 0 32 then some 44
  else if filt && (decide (8 < b.filter.nclause) || (b.filter.clauses.take b.filter.nclause).any (fun c => decide (x.d.nfields ≤ c.field))) then some 16
  else none

/-- A query as it arrives (R270, R273, Table 08-8). -/
def newQuery (tag : Nat) (e : Block) (i : Nat) (b : VBlock) (t0 : Nat) : VQuery :=
  {
  tag := tag, index := i, lc := !flg e 33 0, filter := if flg e 33 1 then some b.filter else none, rerank := flg e 33 2,
  topK := fld e 34 0 11, nprobe := fld e 36 0 16, maxProbe := fld e 38 0 16, maxDist := fld e 40 0 16, rerankN := fld e 42 0 13,
  t0 := t0, deadline := if fld e 44 0 32 == 0 then none else some (t0 + fld e 44 0 32 * 1000), rbuf := fld e 24 0 64, blk := b,
  phase := .coarse, rank := [], probed := 0, queued := [], inVisit := [], started := false, heap := [], found := 0,
  exhausted := false, late := false, unvisited := false, skip := false, scores := [] }

/-- VEC_QUERY (R270 to R275). -/
def vecQuery (m : Mod) (p : Fin 16) (tag : Nat) (blk : Block) : Mod := ringRow m p tag 0x40 (fun t m =>
  match vecIndex m p t.entry with
  | .error r => complete m p tag r
  | .ok (i, x) =>
    let e := t.entry
    let b := qblockOf x.d blk
    match queryBad e x b with
    | some f => complete m p tag (rBad f)
    | none =>
      let z := newQuery tag e i b m.pol[p].clk
      let m1 := modVec m p (fun v => { v with queries := v.queries ++ [z] })
      let cents := (List.range (cdiv (x.d.lists * (x.d.codeBits / 8)) 65536)).map (fun k => x.centPg + k)
      if cents.any (pageLost m.pol[p]) then endQuery m1 p tag stTierLost
      else vecPass (cents.foldl (fun m n => accessPage m p n) m1) p z (some i) (cdiv x.d.lists 64 * cdiv x.d.codeBits 4096 * 64) 1)

/-- VEC_BUILD_LIST with ACTION DROP_INDEX (R267): queries that have started no visit complete with ABORTED. -/
def vecDropIndex (m : Mod) (p : Fin 16) (tag : Nat) : Mod :=
  ringRowIf m p tag 0x43 (fun e => fld e 33 0 2 == 3) (fun t m =>
  match vecIndex m p t.entry with
  | .error r => complete m p tag r
  | .ok (i, _) =>
    let m1 := modIdx m p i (fun x => { x with dropping := some tag })
    let ts := ((m1.pol[p].vec.queries.filter (fun z => z.index == i && !z.started)).map VQuery.tag)
    settleDrop (ts.foldl (fun m t => endQuery m p t stAborted) m1) p i)

/-- The work of a polder's vector search ends without completing it: queries, visits and updates that have not committed
leave, and the pages they took are released (R269, R389, R500). -/
def vecAbort (m : Mod) (p : Fin 16) : Mod :=
  let m1 := modPol m p (fun q => { q with
    vec := { q.vec with queries := [], queues := [], visits := [] }
    passes := q.passes.filter (fun x => x.vec.isNone) })
  m1.pol[p].vec.idx.foldl (fun m e =>
    let m2 := e.2.lists.foldl (fun m l =>
      let y := l.2
      let keep := (tailItems y).take y.committed
      let lost := (tailItems y).drop y.committed
      let tail := (y.tail.map (fun s => { s with recs := s.recs.filter (fun it => keep.any (fun k => k.serial == it.serial)) }))
      let pgs := (tail.filter (fun s => s.recs.isEmpty)).map VSeg.page ++ y.seals.map VSeal.page ++
        (y.upds.flatMap (fun u => u.segs.map VSeg.page)) ++ (y.compact.elim [] (fun c => c.segs.map VSeg.page))
      let slots := lost.filterMap VItem.rslot ++ (y.upds.flatMap (fun u => (u.segs.flatMap VSeg.recs).filterMap VItem.rslot))
      let m3 := modList (releasePages m p pgs) p e.1 l.1 (fun y => { y with
        tail := tail.filter (fun s => !s.recs.isEmpty), upds := [], compact := none, seals := [] })
      modIdx m3 p e.1 (fun x => { x with rr := x.rr.filter (fun r => !slots.contains r.1) })) m
    let m3 := modIdx m2 p e.1 (fun x => { x with alls := [] })
    vecSweep m3 p e.1) m1

end Sys2Proof.Machine
end

