-- ==== Sys2Proof/Machine/Rings.lean ====
section
/-! DEFINITION. Submission and completion rings: doorbells and configuration (R412, R413, R415, R444), intake (R414, R416,
R419), interrupt moderation (R426), and the sealed slots of a sealed polder (R370 to R373). -/

namespace Sys2Proof.Machine

def modSq (m : Mod) (p s : Fin 16) (f : Sq → Sq) : Mod := modPol m p (fun q => { q with sqs := q.sqs.set s (f q.sqs[s]) })
def modCq (m : Mod) (p c : Fin 16) (f : Cq → Cq) : Mod := modPol m p (fun q => { q with cqs := q.cqs.set c (f q.cqs[c]) })

/-- Engine operations (Table 14-11). CKPT_BEGIN takes its operation when it starts (R294, R414). -/
def isEngine (op : Nat) : Bool :=
  op == 0x13 || op == 0x16 || op == 0x30 || op == 0x31 || op == 0x33 || op == 0x40 || op == 0x41 || op == 0x42 || op == 0x43 ||
  op == 0x44 || op == 0x51 || op == 0x52 || op == 0x62

/-- Ring opcodes (R421). -/
def isRingOp (op : Nat) : Bool :=
  (decide (0x10 ≤ op) && decide (op ≤ 0x18)) || (decide (0x20 ≤ op) && decide (op ≤ 0x24)) || (decide (0x30 ≤ op) && decide (op ≤ 0x33)) ||
  (decide (0x40 ≤ op) && decide (op ≤ 0x44)) || (decide (0x50 ≤ op) && decide (op ≤ 0x52)) || (decide (0x60 ≤ op) && decide (op ≤ 0x63))

/-- The session a ring command names: by handle, or by SESSION_ID (R419). A SESSION_ID the directory does not hold has a key
of its own. -/
def namedSess (m : Mod) (p : Fin 16) (e : Block) : Option Nat :=
  let op := fld e 0 0 8
  let byId : Nat := match findSid m p.val (fld e 16 0 64) with
    | some (i, _) => i
    | none => 2 ^ 30 + fld e 16 0 64
  if op == 0x17 || op == 0x21 || op == 0x63 || (op == 0x18 && flg e 28 0) || (op == 0x62 && flg e 36 2) then some byId
  else if (decide (0x11 ≤ op) && decide (op ≤ 0x18)) || op == 0x20 || (op == 0x22 && !flg e 28 0) || op == 0x23 || op == 0x24 ||
    op == 0x60 || op == 0x61 || op == 0x62 then some (fld e 16 0 24)
  else none

/-- The class of a command at the CMD policer (R313). -/
def cmdClass (m : Mod) (p : Fin 16) (e : Block) : Cls :=
  match fld e 0 0 8 with
  | 0x10 => clsOf (flg e 28 0)
  | 0x17 => clsOf (flg e 28 16)
  | 0x30 => clsOf (flg e 33 0)
  | 0x40 => clsOf (flg e 33 0)
  | 0x50 => clsOf (flg e 28 1)
  | _ => match (namedSess m p e).bind (desc? m) with
    | some d => d.cls
    | none => .lc

/-- The host addresses a command names with the byte each stands at; 0 names none (R370). Weights are read outside the
window (R369). -/
def hostAddrs (e : Block) : List (Nat × Nat) :=
  let a (b : Nat) : List (Nat × Nat) := if fld e b 0 64 == 0 then [] else [(b, fld e b 0 64)]
  match fld e 0 0 8 with
  | 0x18 => a 32
  | 0x20 => (32, fld e 32 0 64) :: (if flg e 41 0 then [(48, fld e 48 0 64)] else [])
  | 0x21 => a 32
  | 0x24 => a 56
  | 0x60 => if flg e 28 2 then a 32 else []
  | 0x62 => if fld e 36 0 2 == 2 then a 40 else []
  | _ => []

/-- An address lies in a polder's bounce window. -/
def inWindow (q : Polder) (a : Nat) : Bool := decide (q.sec.bbBase ≤ a) && decide (a < q.sec.bbBase + q.sec.bbLen)

/-- What an entry completes with at once, before its own command starts: the entry checks of R416, and R370's window. -/
def entryBad (m : Mod) (p : Fin 16) (e : Block) : Option Res :=
  if !isRingOp (fld e 0 0 8) then some (rBad 0)
  else if fld e 4 0 16 == 0xFFFF then some (rBad 4)
  else if (findTaken m.pol[p] (fld e 2 0 16)).isSome then some (rBad 2)
  else if m.pol[p].sealed then ((hostAddrs e).find? (fun a => !inWindow m.pol[p] a.2)).map (fun a => rBad a.1)
  else none

/-- A completion posted for an entry that starts no command. -/
def postEntry (m : Mod) (p : Fin 16) (s : Fin 16) (tag job op : Nat) (r : Res) : Mod :=
  let m1 := pinc m p (Ctr.cmdStatus r.status) 1
  postCq m1 p (pn m.pol[p].sqs[s].cq) (fun k cq =>
    { tag := tag, job := job, status := r.status, opcode := op, sq := s.val, event := false, recallShort := r.short,
      phase := phaseOf k cq.depth, sqHead := m1.pol[p].sqs[s].head % 65536, resv := 0, detail := r.detail, result := r.result })

/-- The address of slot k of a submission ring (R414, Table 12-8). -/
def sqAddr (q : Polder) (r : Sq) (k : Nat) : Nat := r.base + (if q.sealed then 128 else 64) * (k % 2 ^ r.order)

/-- A head slot as the engine reads it: its COUNTER and, where it is authentic, its entry (R371, R372). -/
def headIn (m : Mod) (p s : Fin 16) (h : HeadEntry) : Nat × Option Block :=
  let q := m.pol[p]
  slotIn q p.val (sqAddr q q.sqs[s] q.sqs[s].head) h.slot

/-- The entry of a head slot that is accepted: authentic, its COUNTER above that of the ring's last accepted slot (R372, R373). -/
def headEntry (m : Mod) (p s : Fin 16) (h : HeadEntry) : Option Block :=
  let x := headIn m p s h
  if m.pol[p].sealed && decide (x.1 ≤ m.pol[p].sqs[s].lastCtr) then none else x.2

/-- The engine takes the head slot of a ring (R414, R416, R373). -/
def takeEntry' (m : Mod) (p s : Fin 16) (h : HeadEntry) (act : Nat) : Mod :=
  let q := m.pol[p]
  let m1 := pinc (modSq m p s (fun r => { r with head := r.head + 1, held := none, red := false })) p (Ctr.cmdTaken s.val) 1
  let m1 := modPol m1 p (fun q => { q with rrNext := (s.val + 1) % 16 })
  match headEntry m p s h with
  | none => postEntry (pinc m1 p Ctr.bbAuthFail 1) p s 0 0 0 (rBad 0)
  | some e =>
    let ctr := (headIn m p s h).1
    let m2 := if q.sealed then modSq m1 p s (fun r => { r with lastCtr := ctr }) else m1
    let tag := fld e 2 0 16
    let job := fld e 4 0 16
    let op := fld e 0 0 8
    if act == 3 then postEntry (pinc m2 p Ctr.polRefused 1) p s tag job op (rSt stPoliced)
    else match entryBad m p e with
      | some r => postEntry (if r.detail == 2 then pinc m2 p Ctr.tagDup 1 else m2) p s tag job op r
      | none =>
        let c := pn q.sqs[s].cq
        modPol m2 p (fun q => { q with
          ops := if isEngine op then q.ops + 1 else q.ops
          cqs := q.cqs.set c { q.cqs[c] with inflight := q.cqs[c].inflight + 1 }
          taken := q.taken ++ [{ tag := tag, job := job, sq := s.val, cq := c.val, opcode := op, entry := e, engine := isEngine op,
                                 after := flg e 1 0, started := false, sess := namedSess m p e, ctr := ctr,
                                 ctrBefore := if q.sealed then q.sqs[s].lastCtr else 0 }] })

/-- A wait of a ring head that has ended is counted. -/
def endWait (m : Mod) (p : Fin 16) (since : Option Nat) (key : Nat) : Mod :=
  match since with
  | none => m
  | some t => pinc m p key (m.pol[p].clk - t)

/-- One ring tried in its turn: true when its head entry was taken (R414). -/
def tryRing (m : Mod) (p s : Fin 16) (heads : List HeadEntry) : Bool × Mod :=
  let q := m.pol[p]
  let r := q.sqs[s]
  match heads.find? (fun h => h.sq == s) with
  | none => (false, m)
  | some h =>
    let c := q.cqs[pn r.cq]
    if !r.en || r.tail == r.head || !c.en then (false, m)
    else if q.sealed && !(inWindow q r.base && inWindow q c.base) then (false, m)
    else if c.depth ≤ c.used then
      (false, modSq m p s (fun r => { r with cqSince := some (r.cqSince.getD q.clk) }))
    else
      let m1 := modSq (endWait m p r.cqSince Ctr.cqWaitNs) p s (fun r => { r with cqSince := none })
      let e := (headEntry m p s h).getD 0
      let op := fld e 0 0 8
      if isEngine op && decide (opsShare m ≤ q.ops) then
        (false, modSq m1 p s (fun r => { r with shareSince := some (r.shareSince.getD q.clk) }))
      else
        let m2 := modSq (endWait m1 p r.shareSince Ctr.shareWaitNs) p s (fun r => { r with shareSince := none })
        if r.held.isSome && r.heldAt == q.refill then (false, m2)
        else
          let i := polIdx 0 (cmdClass m p e)
          let (col, act, pl) := police q.polic[i] 1000000 false
          let m3 := modPol m2 p (fun q => { q with polic := q.polic.set i pl })
          if act == 2 then
            let m4 := if col == 2 then countColour m3 p i 2 1 r.red else m3
            (false, modSq m4 p s (fun r => { r with held := some (r.held.getD q.clk), heldAt := q.refill, heldIdx := i.val, red := r.red || col == 2 }))
          else
            let m4 := endWait (countColour m3 p i col 1 r.red) p r.held (Ctr.polHoldNs i)
            (true, takeEntry' m4 p s h act)

/-- The rings of a polder in round-robin order from the next in turn. -/
def tryRings (m : Mod) (p : Fin 16) (heads : List HeadEntry) : List (Fin 16) → Mod
  | [] => m
  | s :: rest => match tryRing m p s heads with
    | (true, m1) => m1
    | (false, m1) => tryRings m1 p heads rest

/-- RING_INTAKE (R414, with the held heads tried again in the order they came, R314): the engine takes the next entry it can, none while the polder is fenced or resetting, or, sealed, before
its first bounce setup (R368, R389). -/
def ringIntake (m0 : Mod) (p : Fin 16) (t : Nat) (heads : List HeadEntry) : Mod :=
  let m := tickPol m0 p t
  let q := m.pol[p]
  if !q.composed || q.fenced || q.resetting || !m.front.ready || m.sys.fw.act.isSome || m.sys.wd.sealed || (q.sealed && q.sec.bbEpoch == 0) then m
  else
    let rr := (List.range 16).map (fun i => pn (q.rrNext + i))
    let held := sortBy (fun (a b : Fin 16) => decide (q.sqs[a].held.getD 0 < q.sqs[b].held.getD 0)) (rr.filter (fun s => q.sqs[s].held.isSome))
    tryRings m p heads (held ++ rr.filter (fun s => q.sqs[s].held.isNone))

/-- A write of a polder aperture by a user master while its POLDER_PRIV bit is set is ignored and counted (R432). -/
def polWriteOk (m : Mod) (p : Fin 16) (pr : Priv) : Bool := pr.pv || !bit (m.front.privMap.read (fun _ _ _ => 2 ^ 32 - 1)) p.val

def polWrite (m : Mod) (p : Fin 16) (pr : Priv) (f : Mod → Mod) : Mod := if polWriteOk m p pr then f m else minc m Ctr.pvRefused 1

/-- SQ_TAIL_WRITE (R413). -/
def sqTailWrite (m : Mod) (p s : Fin 16) (v : Nat) (pr : Priv) : Mod := polWrite m p pr (fun m =>
  let r := m.pol[p].sqs[s]
  let t := advance16 r.tail v
  if r.depth < t - r.head then pinc m p Ctr.dblErr 1 else modSq m p s (fun r => { r with tail := t }))

/-- CQ_HEAD_WRITE (R413): freed slots let waiting events post (R423). -/
def cqHeadWrite (m : Mod) (p c : Fin 16) (v : Nat) (pr : Priv) : Mod := polWrite m p pr (fun m =>
  let r := m.pol[p].cqs[c]
  let h := advance16 r.head v
  if r.posted < h then pinc m p Ctr.dblErr 1 else flushEvents (modCq m p c (fun r => { r with head := h })) p)

/-- SQ_CTRL_WRITE (R412, R415, R444). -/
def sqCtrlWrite (m : Mod) (p s : Fin 16) (v : Nat) (pr : Priv) : Mod := polWrite m p pr (fun m =>
  let r := m.pol[p].sqs[s]
  let order := v % 16
  let cq := v / 16 % 16
  let en := bit v 8
  if r.en then
    let m1 := if order != r.order || cq != r.cq then pinc m p Ctr.ringConfDrop 1 else m
    modSq m1 p s (fun r => { r with en := en })
  else
    let away := cq != r.cq && decide (0 < m.pol[p].cqs[pn r.cq].inflight)
    let cq' := if away then r.cq else cq
    if en && (decide (order < 4) || decide (12 < order) || r.base % 4096 != 0 || !m.pol[p].cqs[pn cq'].en) then pinc m p Ctr.ringConfDrop 1
    else modSq (if away then pinc m p Ctr.ringConfDrop 1 else m) p s (fun r => { r with order := order, cq := cq', en := en }))

/-- CQ_CTRL_WRITE (R412, R415, R444). CQ_VECTOR is none of base, order and binding: it takes the write at any time. -/
def cqCtrlWrite (m : Mod) (p c : Fin 16) (v : Nat) (pr : Priv) : Mod := polWrite m p pr (fun m =>
  let r := m.pol[p].cqs[c]
  let order := v % 16
  let vec := v / 16 % 32
  let en := bit v 9
  if r.en then
    let stay := !en && decide (0 < r.inflight)
    let m1 := if order != r.order || stay then pinc m p Ctr.ringConfDrop 1 else m
    modCq m1 p c (fun r => { r with vector := vec, en := en || stay })
  else if en && (decide (order < 4) || decide (14 < order) || r.base % 4096 != 0) then pinc m p Ctr.ringConfDrop 1
  else flushEvents (modCq m p c (fun r => { r with order := order, vector := vec, en := en })) p)

/-- A ring's base written: ignored and counted while the ring is enabled and the value differs (R412). -/
def baseWrite (old : Nat) (hi : Bool) (v : Nat) : Nat := if hi then old % 2 ^ 32 + v * 2 ^ 32 else old / 2 ^ 32 * 2 ^ 32 + v

def sqBaseWrite (m : Mod) (p s : Fin 16) (hi : Bool) (v : Nat) : Mod :=
  let r := m.pol[p].sqs[s]
  let b := baseWrite r.base hi v
  if r.en then (if b != r.base then pinc m p Ctr.ringConfDrop 1 else m) else modSq m p s (fun r => { r with base := b })

def cqBaseWrite (m : Mod) (p c : Fin 16) (hi : Bool) (v : Nat) : Mod :=
  let r := m.pol[p].cqs[c]
  let b := baseWrite r.base hi v
  if r.en then (if b != r.base then pinc m p Ctr.ringConfDrop 1 else m) else modCq m p c (fun r => { r with base := b })

/-- CQ_MOD written. -/
def cqModWrite (m : Mod) (p c : Fin 16) (v : Nat) : Mod :=
  modCq m p c (fun r => { r with modCount := v % 65536, modUs := v / 65536 % 65536 })

/-- CQ_MOD_TIMER (R426): the oldest unsignalled entry has waited CQ_MOD_US. -/
def cqModTimer (m0 : Mod) (p c : Fin 16) (t : Nat) : Mod :=
  let m := tickPol m0 p t
  let r := m.pol[p].cqs[c]
  if r.unsig == 0 || r.modUs == 0 || decide (m.pol[p].clk < r.oldest + r.modUs * 1000) then m
  else polIrq (pincIf (modCq m p c (fun r => { r with unsig := 0 })) p (polIrqOn m p r.vector) (Ctr.cqIrq c.val)) p r.vector

/-- EVENT_POST (R423): waiting events take the free slots of ring 0. -/
def eventPost (m : Mod) (p : Fin 16) : Mod := flushEvents m p

end Sys2Proof.Machine
end

