-- ==== Sys2Proof/Machine/Traffic.lean ====
section
/-! DEFINITION. Traffic commands and events: policers (R314 to R317), weights (R320), sluice tables (R321 to R326), frames sent
and received (R324, R458, R459). -/

namespace Sys2Proof.Machine

/-- POINT and CLASS of a POLICER_SET (Table 10-4a) as the policer's index. -/
def polArg (a : Block) : Fin 6 := polIdx (fld a 1 0 2) (clsOf (flg a 1 2))

/-- The settings a POLICER_SET carries. -/
def polSetOf (a : Block) : PolSet :=
  { en := true, aware := flg a 1 4, yAct := fld a 2 0 2, rAct := fld a 2 2 2, cir := fld a 4 0 32, pir := fld a 8 0 32,
    cbs := fld a 12 0 32, pbs := fld a 16 0 32 }

/-- The actions Table 10-3 allows at a point. -/
def actOk (point : Nat) (red : Bool) (act : Nat) : Bool :=
  match point with
  | 0 => if red then act == 2 || act == 3 else act == 0 || act == 2
  | 1 => if red then act == 2 || act == 3 else act == 0 || act == 1
  | _ => if red then act == 3 else act == 0 || act == 1

/-- POLICER_SET refused (R316): POLDER and POINT are checked in every case, the rest with ENABLE 1. -/
def polBadTarget (m : Mod) (a : Block) : Bool := decide (15 < fld a 0 0 8) || !(m.pol[pn (fld a 0 0 8)].composed) || fld a 1 0 2 == 3

def polBad (m : Mod) (a : Block) : Bool :=
  let s := polSetOf a
  let pt := fld a 1 0 2
  let floor := if pt == 0 then 1 else 9248
  polBadTarget m a || !actOk pt false s.yAct || !actOk pt true s.rAct || (pt == 0 && s.aware) || s.pir == 0 ||
  decide (s.pir < s.cir) || decide (s.cbs < floor) || decide (s.pbs < floor)

/-- An update accepted: it waits for the next refill strictly after the acceptance, and the command with it (R317). -/
def polPend (m : Mod) (a : Block) (s : PolSet) (fill : Bool) : Mod :=
  let p := pn (fld a 0 0 8)
  modPol m p (fun q => { q with polic := q.polic.set (polArg a) { q.polic[polArg a] with pending := some (s, fill, q.clk) } })

/-- POLICER_SET (R316, R317). -/
def policerSet (m : Mod) (b : Box) : Mod := mbxRowIf m b 0x8B (fun a => flg a 1 3) (fun a m =>
  if polBad m a then mbxDone m b stBadCmd 0 else polPend m a (polSetOf a) (flg a 1 5))

/-- POLICER_SET with ENABLE 0: the stored settings stay (R316). -/
def policerDisable (m : Mod) (b : Box) : Mod := mbxRowIf m b 0x8B (fun a => !flg a 1 3) (fun a m =>
  if polBadTarget m a then mbxDone m b stBadCmd 0
  else polPend m a { m.pol[pn (fld a 0 0 8)].polic[polArg a].set with en := false } (flg a 1 5))

/-- Sub-units per unit of a policer's buckets (R314). -/
def subUnits (i : Nat) : Nat := if i < 2 then 1000000 else 1000

/-- k refills of an enabled policer (R314). -/
def refillK (i k : Nat) (pl : Policer) : Policer :=
  if pl.set.en then { pl with
    tc := min (pl.tc + k * pl.set.cir) (pl.set.cbs * subUnits i), tp := min (pl.tp + k * pl.set.pir) (pl.set.pbs * subUnits i) }
  else pl

/-- A pending update applied (R317): buckets are cut to the new limits; FILL, and enabling, start them full. -/
def applyPol (i : Nat) (pl : Policer) (s : PolSet) (fill : Bool) : Policer :=
  let full := s.en && (fill || !pl.set.en)
  let c := s.cbs * subUnits i
  let p := s.pbs * subUnits i
  { set := s, tc := if full then c else min pl.tc c, tp := if full then p else min pl.tp p, pending := none }

/-- A policer at refill n, the last being refill `was`; true when an update applied. -/
def refillTo (i was n : Nat) (pl : Policer) : Bool × Policer :=
  match pl.pending with
  | none => (false, refillK i (n - was) pl)
  | some (s, fill, at') =>
    let r := max (at' / 1000 + 1) (was + 1)
    if n < r then (false, refillK i (n - was) pl)
    else (true, refillK i (n - r) (applyPol i (refillK i (r - was) pl) s fill))

/-- POLICER_REFILL (R314, R317): refills up to the polder counter's reading, pending updates, then held units retested. -/
def policerRefill (m0 : Mod) (p : Fin 16) (t : Nat) : Mod :=
  let m := tickPol m0 p t
  let q := m.pol[p]
  let n := q.clk / 1000
  if n ≤ q.refill || !q.composed then m
  else
    let (pls, k) := (List.range 6).foldl (fun (a : Vector Policer 6 × Nat) i =>
      let f : Fin 6 := ⟨i % 6, Nat.mod_lt _ (by decide)⟩
      let (hit, pl) := refillTo i q.refill n a.1[f]
      (a.1.set f pl, a.2 + b2n hit)) (q.polic, 0)
    let m1 := modPol m p (fun q => { q with polic := pls, refill := n })
    let m2 := if 0 < k && (getMbx m1 .mgmt).busy && (getMbx m1 .mgmt).runCmd % 256 == 0x8B then mbxDone m1 .mgmt stOk 0 else m1
    kickPort (kickPort (kickPort (kickPort m2 0) 1) 2) 3

/-- WFQ_SET (R320). -/
def wfqSet (m : Mod) (b : Box) : Mod := mbxRow m b 0x8C (fun a m =>
  let arb := fld a 0 0 4
  let ws := (List.range 16).map (fun p => fld a (4 + p) 0 8)
  if (8 < arb && arb != 15) || ws.zipIdx.any (fun e => e.1 != 0 && !m.pol[pn e.2].composed) then mbxDone m b stBadCmd 0
  else
    let arbs := if arb == 15 then List.range 9 else [arb]
    let m1 := ws.zipIdx.foldl (fun m e => if e.1 == 0 then m else
      modPol m (pn e.2) (fun q => { q with wts := arbs.foldl (fun (w : SMap Nat) k => w.put k e.1) q.wts })) m
    mbxDone m1 b stOk 0)

/-- A list change that has come due takes over (R325). -/
def sluiceDue (m : Mod) (k : Fin 4) : Mod :=
  let po := m.net.ports[k]
  match po.change with
  | some (c, l) =>
    if po.clk < c then m
    else minc (modPort m k (fun po => { po with sluice := l, change := none, gates := if l.isNone then 255 else po.gates })) (Ctr.sluChanges k.val) (b2n l.isSome)
  | none => m

/-- The first instant base + n * cycle at or after a time (R325). -/
def firstStart (base cycle t : Nat) : Nat := if t ≤ base then base else base + cdiv (t - base) (max 1 cycle) * max 1 cycle

/-- The gates and entry in force now. -/
def setGates (m : Mod) (k : Fin 4) : Mod :=
  let po := m.net.ports[k]
  let g := gatesAt po po.clk
  modPort m k (fun po => { po with
    gates := g.1, entry := g.2.1, resume := match po.resume with
      | some (till, x) => if till ≤ po.clk then none else some (till, x)
      | none => none })

/-- The entries of a list of n as companion memory holds them, 8 B each: INTERVAL_NS at bytes 0 to 3, GATES at byte 4 (R322). -/
def sluiceEntries (list : Block) (n : Nat) : List (Nat × Nat) := (List.range n).map (fun i => (fld list (8 * i) 0 32, fld list (8 * i + 4) 0 8))

/-- SLUICE_LOAD's refusals (R322). -/
def sluiceBad (m : Mod) (a : Block) (es : List (Nat × Nat)) : Bool :=
  let n := fld a 2 0 16
  let cyc := fld a 4 0 32
  n == 0 || decide (256 < n) || decide (cyc < 1000) || decide (1000000000 < cyc) || decide (cyc / 2 < fld a 8 0 32) ||
  fld a 24 0 3 != 0 || es.any (fun e => decide (e.1 < 32) || decide (1000000000 < e.1)) ||
  fencedBit m.fence.link (fld a 0 0 2)

def portArg (a : Block) : Fin 4 := ⟨fld a 0 0 2 % 4, Nat.mod_lt _ (by decide)⟩

/-- A change scheduled (R325): it replaces a pending load. -/
def scheduleList (m : Mod) (k : Fin 4) (c : Nat) (l : Option Sluice) : Mod :=
  let m1 := if m.net.ports[k].change.isSome then minc m (Ctr.sluReplaced k.val) 1 else m
  modPort m1 k (fun po => { po with change := some (c, l), changeTime := c })

/-- SLUICE_LOAD (R322, R325). `list` are the bytes at LIST in companion memory. -/
def sluiceLoad (m : Mod) (b : Box) (list : Block) : Mod := mbxRowIf m b 0x8A (fun a => flg a 1 0) (fun a m =>
  let es := sluiceEntries list (min 256 (fld a 2 0 16))
  if sluiceBad m a es then mbxDone m b stBadCmd 0
  else
    let k := portArg a
    let m1 := sluiceDue m k
    let cyc := fld a 4 0 32
    let base := fld a 16 0 64
    let c := firstStart base cyc (m1.net.ports[k].clk + 100000)
    let l : Sluice := { base := base, cycle := cyc, ext := fld a 8 0 32, entries := es }
    mbxDone (scheduleList m1 k c (some l)) b stOk c)

/-- SLUICE_LOAD with ENABLE 0 (R325): the table leaves at the first old cycle start at least 100 µs away. Without a table
nothing is scheduled, and the CHANGE_TIME returned is open (log entry 11). -/
def sluiceRemove (m : Mod) (b : Box) : Mod := mbxRowIf m b 0x8A (fun a => !flg a 1 0) (fun a m =>
  let k := portArg a
  if fencedBit m.fence.link k.val then mbxDone m b stBadCmd 0
  else
    let m1 := sluiceDue m k
    match m1.net.ports[k].sluice with
    | some s =>
      let c := firstStart s.base s.cycle (m1.net.ports[k].clk + 100000)
      mbxDone (scheduleList m1 k c none) b stOk c
    | none =>
      let m2 := if m1.net.ports[k].change.isSome then minc (modPort m1 k (fun po => { po with change := none })) (Ctr.sluReplaced k.val) 1 else m1
      mbxDone { m2 with free := m2.free + 1 } b stOk (Config.openNat m2.free % 2 ^ 64))

/-- A port's counter reaches a reading. -/
def tickPort (m : Mod) (k : Fin 4) (t : Nat) : Mod := modPort m k (fun po => { po with clk := max po.clk t })

/-- SLUICE_ENTRY (R321): the port's gates take the states of the entry in force. -/
def sluiceEntry (m : Mod) (k : Fin 4) (t : Nat) : Mod := kickPort (setGates (sluiceDue (tickPort m k t) k) k) k

/-- SLUICE_CHANGE (R325): a loaded list takes over at CHANGE_TIME. -/
def sluiceChange (m0 : Mod) (k : Fin 4) (t : Nat) : Mod :=
  let m := tickPort m0 k t
  if m.net.ports[k].change.elim true (fun c => decide (m.net.ports[k].clk < c.1)) then m else kickPort (setGates (sluiceDue m k) k) k

/-- FRAME_TX_DONE (R324). -/
def frameTxDone (m0 : Mod) (k : Fin 4) (t : Nat) : Mod :=
  let m := tickPort m0 k t
  match m.net.ports[k].flight with
  | none => m
  | some (_, e) =>
    if m.net.ports[k].clk < e then m
    else kickPort (modPort m k (fun po => { po with flight := none, lastEnd := e })) k

/-- The most bytes of a frame (Table 16-3). -/
def maxL (m : Mod) (k : Fin 4) : Nat := if (portBoard m k).macsec then 9248 else 9216

/-- INGRESS_FRAME (R315, R459): a culvert frame for this module passes the INGRESS policer of its polder, or goes to the
module's own queue. `used` and `size` are the fill and size of the polder's receive buffer. -/
def ingressFrame (m : Mod) (k : Fin 4) (w : Wire) (used size : Nat) : Mod :=
  let accept (m : Mod) : Mod := { m with net := { m.net with rx := m.net.rx ++ [(k.val, w)] } }
  if !m.net.ports[k].up || fencedBit m.fence.link k.val || !w.culvert || w.dst != selfId m || decide (maxL m k < w.len) then m
  else if w.ftype == 2 || (w.ftype == 0 && moduleLevel w.ty) then accept m
  else
    let p := pn w.dstPol
    let q := m.pol[p]
    if !q.composed || q.fenced || !bit q.ethPorts k.val then m
    else
      let c : Cls := if bit (portBoard m k).lcPcp w.pcp then .lc else .be
      let i := polIdx 2 c
      let (col, act, pl) := police q.polic[i] (w.len * 1000) w.dei
      let m1 := countColour (modPol m p (fun q => { q with polic := q.polic.set i pl })) p i col w.len false
      if act == 3 || decide (size ≤ used) || (act == 1 && decide (3 * size < 4 * used)) then pinc m1 p (Ctr.ingDrop k.val) 1
      else accept m1

/-- MKA_FRAME (R458): firmware's key agreement; `agreed` says whether the exchange completed with it. -/
def mkaFrame (m : Mod) (k : Fin 4) (agreed : Bool) : Mod :=
  if m.net.ports[k].up && (portBoard m k).macsec && agreed then modPort m k (fun po => { po with secured := true }) else m

/-- NEIGHBOUR_FRAME (R458): a request for one of the port's addresses is answered. -/
def neighbourFrame (m : Mod) (k : Fin 4) (addr : Nat) : Mod :=
  let pb := portBoard m k
  if m.net.ports[k].up && !fencedBit m.fence.link k.val && m.net.board.isSome && addr != 0 && (addr == pb.ipv4 || addr == pb.ipv6) then
    emit m (.neighbour k.val addr pb.mac) else m

end Sys2Proof.Machine
end

