-- ==== Sys2Proof/Machine/Sec.lean ====
section
/-! DEFINITION. The secure element (chapter 12): measurements and quotes (R358 to R361), keys at rest and their sweep (R363 to R367), bounce
keys (R374) and the end of a sealed polder's keys (R377). -/

namespace Sys2Proof.Machine

def modSec (m : Mod) (p : Fin 16) (f : PolSec → PolSec) : Mod := modPol m p (fun q => { q with sec := f q.sec })

/-- A 256-bit random value from the secure element's DRBG (R352). -/
def takeRandom (m : Mod) : Nat × Mod := ((Config.random m.free).toNat, { m with free := m.free + 1 })

/-- A fresh at-rest key pair: 512 random bits (Table 12-3). -/
def takeKeyPair (m : Mod) : Nat × Mod :=
  let a := takeRandom m
  let b := takeRandom a.2
  (a.1 + 2 ^ 256 * b.1, b.2)

/-- SHA3-256 over integers in order, each little-endian at its width in bytes. -/
def sha3Of (l : List (Nat × Nat)) : Nat := sha3Bytes (l.flatMap (fun e => toBytes e.2 e.1))

/-- SHA3-256 over an ASCII label without terminator, then integers (R352). -/
def sha3Label (s : String) (l : List (Nat × Nat)) : Nat := sha3Bytes (ascii s ++ l.flatMap (fun e => toBytes e.2 e.1))

/-- D of the key derivations: 0x01 when DEBUG_LOCK is blown (R352). -/
def dByte (fz : Fuses) : Nat := if fz.debugLock then 1 else 0

/-- Key seeds and roots (Table 12-3). -/
def dikSeed (fz : Fuses) : Nat := sha3Label "CS1600-DIK" [(32, fz.uds), (1, dByte fz)]
def srk (fz : Fuses) : Nat := sha3Label "CS1600-SRK" [(32, fz.uds), (1, dByte fz)]

/-- FW_DIGEST of an image: SHA3-256 of its header (R355). -/
def fwDigest (i : Option FwImage) : Nat := (i.map (fun x => sha3Of [(128, x.header)])).getD 0
def akSeed (fz : Fuses) (m : Mod) : Nat := sha3Label "CS1600-AK" [(32, fz.uds), (32, fwDigest m.sys.fw.running), (1, dByte fz)]

/-- The profile in force; three copies that differ are a module fault handled by the sweep (Table 15-3). -/
def profileNow (m : Mod) : Nat := m.front.profile.read (fun a _ _ => a) % 4

/-- Fence masks as the digests take them: nothing while none is closed, else each in 32 B after the fields of Table 12-5, since each closing changes
the digest (R385, log entry 12). -/
def fenceWords (l : List Nat) : List (Nat × Nat) := if l.all (· == 0) then [] else l.map (fun x => (32, x))

/-- Slice masks and the sealed flag at their register widths, in the order of Table 14-6 (log entry 12). -/
def maskWords (q : Polder) : List (Nat × Nat) := [(2, q.slice.arr), (2, q.slice.berm), (2, q.slice.toe), (8, q.slice.crest)]

/-- CONFIG_DIGEST (Table 12-5), the fuse words as Table 15-4 holds them. -/
def configDigest (fz : Fuses) (m : Mod) : Nat :=
  let f := m.fence
  sha3Of (fz.keyHash.toList.map (fun k => (32, k)) ++ [(4, fz.revoke), (8, fz.svnMin), (4, b2n fz.debugLock), (8, fz.serial), (1, profileNow m)] ++
    (List.range 16).flatMap (fun i => maskWords m.pol[pn i] ++ [(1, b2n m.pol[pn i].sealed)]) ++
    fenceWords [f.polder.orRead, f.array.orRead, f.berm.orRead, f.toe.orRead, f.link.orRead, f.units.orRead, f.vdom.orRead, f.phase.orRead, f.sensor.orRead])

/-- The fences that lie over units of a polder's slice. -/
def sliceFences (m : Mod) (p : Fin 16) : List Nat :=
  let q := m.pol[p]
  let s := q.slice
  [((List.range 256).filter (fun a => bit s.arr (a / 16) && arrayFenced m a)).foldl (fun n a => n + 2 ^ a) 0,
   m.fence.berm.orRead &&& s.berm,
   ((List.range 32).filter (fun c => bit s.toe (c / 2) && fencedBit m.fence.toe c)).foldl (fun n c => n + 2 ^ c) 0,
   b2n (fencedBit m.fence.units p.val), b2n (fencedBit m.fence.units (16 + p.val)), m.fence.vdom.orRead &&& s.arr]

/-- POLDER_DIGEST (Table 12-5). -/
def polderDigest (m : Mod) (p : Fin 16) : Nat :=
  let q := m.pol[p]
  sha3Of ([(1, p.val), (1, b2n q.sealed)] ++ maskWords q ++ [(32, q.tenant), (8, q.sec.bbBase), (8, q.sec.bbLen)] ++ fenceWords (sliceFences m p))

/-- The DIGEST of a model slot, zero for an empty one (Table 05-1). -/
def slotDigest (q : Polder) (k : Nat) : Nat := ((q.slots.get k).map (fun s => s.man.main.digest)).getD 0

/-- MODEL_DIGEST (Table 12-5): slot 0's in a sealed polder, else those of the 32 slots. -/
def modelDigest (q : Polder) : Nat :=
  if q.sealed then sha3Of [(32, slotDigest q 0)] else sha3Of ((List.range 32).map (fun k => (32, slotDigest q k)))

/-- KEM_DIGEST: zero where the polder has no KEM key (Table 12-5). -/
def kemDigest (q : Polder) : Nat := if q.sealed then sha3Of [(1184, Config.kemPub q.sec.kem)] else 0

/-- A module quote, or a quote of a polder, of the measurements at this instant, unsigned (Table 12-6). -/
def quoteOf (fz : Fuses) (m : Mod) (p : Option (Fin 16)) (nonce : Nat) : Quote :=
  let fw := m.sys.fw
  let svn := (fw.running.map FwImage.svn).getD 0
  let ak := Config.mldsaPub (akSeed fz m)
  let z (f : Polder → Nat) : Nat := (p.map (fun i => f m.pol[i])).getD 0
  let sealed := (p.map (fun i => m.pol[i].sealed)).getD false
  { kind := if p.isSome then 2 else 1, pending := fw.staged.isSome, debugOpen := !fz.debugLock, sealed := sealed, kem := sealed,
    polder := (p.map Fin.val).getD 0xFF, profile := profileNow m, nonce := nonce,
    deviceId := sha3Of [(1312, Config.mldsaPub (dikSeed fz))], moduleId := selfId m, idValid := m.front.modId.isSome, fwSvn := svn, time := m.hvl,
    romDigest := Config.romDigest, fwDigest := fwDigest fw.running, pendingDigest := fwDigest fw.staged, configDigest := configDigest fz m,
    polderDigest := (p.map (polderDigest m)).getD 0, modelDigest := z modelDigest, kemDigest := z kemDigest, keyEpoch := z Polder.keyEpoch,
    bbEpoch := z (fun q => q.sec.bbEpoch), tenant := z (fun q => if q.sealed then q.tenant else 0), signature := 0,
    kemKey := if sealed then z (fun q => Config.kemPub q.sec.kem) else 0, endorsedKey := ak,
    endorsement := Config.mldsaSign (dikSeed fz)
      (sha3Of [(1312, ak), (32, Config.romDigest), (32, fwDigest fw.running), (4, svn), (1, dByte fz)]) m.free }

/-- A quote signed: ML-DSA-44, hedged, over the SHA3-256 of its body, bytes 0 to 351 (R359). -/
def signQuote (m : Mod) (seed : Nat) (q : Quote) : Quote × Mod :=
  ({ q with signature := Config.mldsaSign seed (sha3Of [(352, quoteBytes q)]) (m.free + 1) }, minc { m with free := m.free + 2 } Ctr.quotes 1)

/-- The identity quote: device identity only (Table 12-6). -/
def identityQuote (fz : Fuses) (m : Mod) (nonce : Nat) : Quote :=
  let dik := Config.mldsaPub (dikSeed fz)
  { kind := 3, pending := false, debugOpen := !fz.debugLock, sealed := false, kem := false, polder := 0xFF, profile := 0xFF, nonce := nonce,
    deviceId := sha3Of [(1312, dik)], moduleId := selfId m, idValid := m.front.modId.isSome, fwSvn := 0, time := 0, romDigest := 0, fwDigest := 0,
    pendingDigest := 0, configDigest := 0, polderDigest := 0, modelDigest := 0, kemDigest := 0, keyEpoch := 0, bbEpoch := 0, tenant := 0,
    signature := 0, kemKey := 0, endorsedKey := dik, endorsement := Config.dikEndorse dik }

/-- A host range lies in a sealed polder's bounce window (R370). -/
def inBounce (q : Polder) (a n : Nat) : Bool := decide (q.sec.bbBase ≤ a) && decide (a + n ≤ q.sec.bbBase + q.sec.bbLen)

/-- ATTEST_QUOTE (R360, R361). Through a sealed polder's own mailbox the quote is a sealed record once bounce keys are live (R370). -/
def attestQuote (fz : Fuses) (m : Mod) (b : Box) : Mod := mbxRow m b 0x86 (fun a m =>
  let pol := fld a 0 0 8
  let host := fld a 8 0 64
  let p : Option (Fin 16) := if pol == 0xFF then none else some (pn pol)
  let q := m.pol[pn pol]
  let bad := (decide (15 < pol) && pol != 0xFF) || host % 64 != 0 || decide (fld a 16 0 32 < 7688) ||
    (p.isSome && !q.composed && !q.resetting) ||
    (match b with
     | .pol i => m.pol[i].sealed && decide (0 < m.pol[i].sec.bbEpoch) && !inBounce m.pol[i] host 7688
     | .mgmt => false)
  if bad then mbxDone m b stBadCmd 0
  else if m.sys.fw.act.isSome || (p.isSome && q.resetting) then mbxDone (minc m Ctr.notAttestableCnt 1) b stNotAttestable 0
  else
    let served := match b with
      | .pol i => wfqServe m i 8 1
      | .mgmt => m
    let r := signQuote served (akSeed fz m) (quoteOf fz m p (fld a 32 0 256))
    let img := quoteBytes r.1
    let m1 := match b with
      | .pol i => if 0 < r.2.pol[i].sec.bbEpoch then hostOut r.2 i host 7688 img else emit r.2 (.host host 7688 img)
      | .mgmt => emit r.2 (.host host 7688 img)
    mbxDone m1 b stOk (at8 16 7688))

/-- SEC_KEYSEL: the physical slot of CURRENT, whether PREVIOUS is occupied (Table 15-15). -/
def keyselOf (q : Polder) : Nat := q.sec.keysel.read (fun a _ _ => a)

/-- The vault holds each occupied key slot of a polder, wrapped under SRK, or for a sealed polder under its measurements (R367). -/
def vaultWrite (m : Mod) (p : Fin 16) : Mod :=
  let q := m.pol[p]
  let v : VaultEntry :=
    { sealed := q.sealed, polDigest := polderDigest m p, modDigest := modelDigest q, keysel := keyselOf q, key0 := q.sec.key0, key1 := q.sec.key1,
      epoch := q.keyEpoch }
  modFw m (fun f => { f with vault := f.vault.put p.val v })

/-- A polder's mailbox argument names a composed polder; the range check of POLDER at byte 0. -/
def argPolder (m : Mod) (a : Block) : Option (Fin 16) :=
  if decide (15 < fld a 0 0 8) || !(m.pol[pn (fld a 0 0 8)].composed) then none else some (pn (fld a 0 0 8))

/-- KEY_ROTATE with TARGET AT_REST (R365): CURRENT moves to PREVIOUS, a fresh key is CURRENT, KEY_EPOCH rises. -/
def keyRotateAtRest (m : Mod) (b : Box) : Mod := mbxRowIf m b 0x87 (fun a => !flg a 1 0) (fun a m =>
  match argPolder m a with
  | none => mbxDone m b stBadCmd 0
  | some p =>
    let q := m.pol[p]
    let k := keyselOf q
    if bit k 1 then mbxDone m b stKeyEpoch 0
    else if !m.entropyOk then mbxDone m b stRetry 0
    else
      let (r, m1) := takeKeyPair (wfqServe m p 8 1)
      let cur := 1 - k % 2
      let m2 := modPol m1 p (fun q => { q with
        keyEpoch := (q.keyEpoch + 1) % 2 ^ 32
        sec := { q.sec with keysel := Tri.mk1 (cur + 2 + 4), key0 := if cur == 0 then r else q.sec.key0,
                            key1 := if cur == 1 then r else q.sec.key1 } })
      let m3 := pinc (vaultWrite m2 p) p Ctr.keyRotations 1
      mbxDone m3 b stOk (at8 16 m3.pol[p].keyEpoch + at8 20 1))

/-- The epoch PREVIOUS holds (R363). -/
def prevEpoch (q : Polder) : Nat := (q.keyEpoch + 2 ^ 32 - 1) % 2 ^ 32

/-- A page whose Berm or Toe image is under the old epoch (R366). -/
def oldImage (q : Polder) (pg : Page) : Bool :=
  (pg.tier == .berm || pg.tier == .toe) && (pg.st == .resident || pg.st == .promoting || pg.st == .demoting) && pg.keyEpoch == prevEpoch q

/-- A resident page's clean copy under the old epoch. -/
def oldClean (q : Polder) (pg : Page) : Bool := pg.st == .resident && pg.oTier != .none && pg.oEpoch == prevEpoch q

/-- Sweep copies start for pages under the old epoch, at most 16 at once; pages being migrated wait for their commit, and a clean copy under
the old epoch is released (R366, Table 02-8). -/
def sweepStart (m : Mod) (p : Fin 16) : Mod :=
  let q := m.pol[p]
  let m0 := ((q.pages.filter (fun e => oldClean q e.2)).map (·.1)).foldl (fun m n => dropOther m p n) m
  let todo := (q.pages.filter (fun e => oldImage q e.2 && e.2.st == .resident && q.sec.sweep.all (fun c => c.page != e.1))).map (·.1)
  (todo.take (16 - q.sec.sweep.length)).foldl (fun m n =>
    match getPage m p n with
    | none => m
    | some pg => match takeFrame m p pg.tier with
      | none => m
      | some (f, m1) => modSec (if pg.tier == .toe then toeRead m1 pg.frame else m1) p (fun s => { s with sweep := s.sweep ++ [{ page := n, frame := f, tier := pg.tier, sample := pg.wgen }] })) m0

/-- The sweep is over: PREVIOUS is zeroized, its vault entry erased, PREV_LIVE cleared (R366). -/
def sweepEnd (m : Mod) (p : Fin 16) : Mod :=
  let q := m.pol[p]
  let k := keyselOf q
  if bit k 1 && q.sec.sweep.isEmpty && !q.pages.any (fun e => oldImage q e.2 || (e.2.oTier != .none && e.2.oEpoch == prevEpoch q)) then
    pinc (vaultWrite (modSec m p (fun s => { s with keysel := Tri.mk1 (k % 2), key0 := if k % 2 == 0 then s.key0 else 0,
                                                    key1 := if k % 2 == 1 then s.key1 else 0 })) p) p Ctr.keyRetired 1
  else m

/-- A finished sweep copy of a page commits, or is retried when the page was written meanwhile; a copy whose page left its place is dropped. A copy in
Toe commits once its unit is acknowledged (R366, Table 02-5). -/
def sweepCommit (m : Mod) (p : Fin 16) (n : Nat) : Mod :=
  match m.pol[p].sec.sweep.find? (fun c => c.page == n) with
  | none => m
  | some c =>
    let gone (m : Mod) : Mod := modSec m p (fun s => { s with sweep := s.sweep.filter (fun x => x.page != n) })
    match getPage m p n with
    | none => gone (dropFrame m c.tier c.frame)
    | some pg =>
      if !oldImage m.pol[p] pg || pg.tier != c.tier || pg.st != .resident then gone (dropFrame m c.tier c.frame)
      else if c.tier == .toe && !unitAcked m c.frame then m
      else if pg.wgen != c.sample then
        pinc (modSec m p (fun s => { s with sweep := updWhere s.sweep (fun x => x.page == n) (fun x => { x with sample := pg.wgen }) })) p
          Ctr.sweepRetry 1
      else
        let m1 := dropFrame (dropOther m p n) pg.tier pg.frame
        pinc (gone (modPage m1 p n (fun g => { g with frame := c.frame, keyEpoch := m.pol[p].keyEpoch }))) p Ctr.sweepPages 1

/-- KEY_SWEEP (R366): it pauses while a POLDER_RESET runs (Table 17-12). -/
def keySweep (m : Mod) (p : Fin 16) (n : Nat) : Mod :=
  let q := m.pol[p]
  if !q.composed || q.resetting || !bit (keyselOf q) 1 then m
  else sweepEnd (sweepStart (sweepCommit m p n) p) p

/-- The parts of a setup block (R374): ML-KEM-768 ciphertext, the tenant's ML-DSA-44 public key, its signature. -/
def setupCt (x : Block) : Nat := fld x 0 0 8704
def setupKey (x : Block) : Nat := fld x 1088 0 10496
def setupSig (x : Block) : Nat := fld x 2400 0 19360

/-- The digest a bounce setup signs, integers little-endian at their argument widths (R374). -/
def bounceMsg (q : Polder) (p : Fin 16) (x : Block) (base len : Nat) : Nat :=
  sha3Of [(1088, setupCt x), (32, kemDigest q), (4, q.sec.bbEpoch + 1), (1, p.val), (8, base), (8, len)]

/-- KEY_ROTATE with TARGET BOUNCE (R374): new bounce keys, a raised BB_EPOCH, counters reset, the window installed and a fresh KEM key. -/
def keyRotateBounce (m : Mod) (b : Box) (x : Block) : Mod := mbxRowIf m b 0x87 (fun a => flg a 1 0) (fun a m =>
  let base := fld a 16 0 64
  let len := fld a 24 0 64
  match argPolder m a with
  | none => mbxDone m b stBadCmd 0
  | some p =>
    let q := m.pol[p]
    if base % 4096 != 0 || len % 4096 != 0 || decide (len < 65536) || decide (2 ^ 34 < len) then mbxDone m b stBadCmd 0
    else if !m.entropyOk then mbxDone m b stRetry 0
    else
      let refuse := mbxDone (pinc m p Ctr.bbSetupFail 1) b stBadCmd 0
      if !q.sealed || sha3Of [(1312, setupKey x)] != q.tenant || !Config.mldsaVerify (setupKey x) (bounceMsg q p x base len) (setupSig x) then refuse
      else match Config.kemDecap q.sec.kem (setupCt x) with
        | none => refuse
        | some ss =>
          let (r, m1) := takeRandom (wfqServe m p 8 1)
          let m2 := modPol m1 p (fun q => { q with
            sqs := q.sqs.map (fun s => { s with lastCtr := 0 })
            sec := { q.sec with h2m := sha3Label "CS1600-BB-H2M" [(32, ss), (32, kemDigest q)], m2h := sha3Label "CS1600-BB-M2H" [(32, ss), (32, kemDigest q)],
                                bbEpoch := (q.sec.bbEpoch + 1) % 2 ^ 32, bbBase := base, bbLen := len, m2hCtr := 0, kem := r } })
          mbxDone (pinc m2 p Ctr.bbSetup 1) b stOk (at8 16 m2.pol[p].sec.bbEpoch))

/-- The end of a sealed polder's keys (R377): both key slots, bounce keys, KEM key and transfer keys are zeroized and their vault entries
erased. -/
def wipeKeys (m : Mod) (p : Fin 16) : Mod :=
  modFw (modPol m p (fun q => { q with tks := [], sec := PolSec.blank })) (fun f => { f with vault := f.vault.del p.val })

/-- Keys that a start left in the vault serve again once the polder is composed and, where it is sealed, its measurements are those the entry was
wrapped under (R377, R494). -/
def vaultUnlock (m : Mod) (p : Fin 16) : Mod :=
  let q := m.pol[p]
  match m.sys.fw.vault.get p.val with
  | none => m
  | some v =>
    if q.composed && q.sec.locked && v.polDigest == polderDigest m p && v.modDigest == modelDigest q then
      modPol m p (fun q => { q with
        keyEpoch := v.epoch, sec := { q.sec with keysel := Tri.mk1 v.keysel, key0 := v.key0, key1 := v.key1, locked := false } })
    else m

end Sys2Proof.Machine
end

