-- ==== Sys2Proof/Machine/Culvert.lean ====
section
/-! DEFINITION. Culvert's receiving side and its timers (R465 to R468, R471), the ports messages travel on (R467), and transfer keys
(R375, R376). -/

namespace Sys2Proof.Machine

/-- The message types of Table 16-6; any other is discarded (R468). -/
def knownType (ty : Nat) : Bool := (decide (1 ≤ ty) && decide (ty ≤ 0x11)) || (decide (0x20 ≤ ty) && decide (ty ≤ 0x22))

/-- A 32-bit frame or message number of the wire as a number of the lane near a reference; none where it lies behind it. -/
def unwrap (ref w : Nat) : Option Nat :=
  let d := (w + 2 ^ 32 - ref % 2 ^ 32) % 2 ^ 32
  if d < 2 ^ 31 then some (ref + d) else none

/-- The first received frame of a type leaves the port's queue. -/
def takeRx (m : Mod) (ft : Nat) : Option ((Nat × Wire) × Mod) :=
  match m.net.rx.find? (fun x => x.2.ftype == ft) with
  | none => none
  | some x => some (x, { m with net := { m.net with rx := m.net.rx.erase x } })

/-- An ACK frame of a lane: ACK_PSN, its bitmap, and a congestion mark received since the last one (Table 16-5); its PSN, MSG_SEQ and
MSG_TYPE are 0 (DESIGN CHOICE, log entry 69). -/
def sendAck (m : Mod) (key : Nat) : Mod :=
  let l := laneOf m key
  let bits := (List.range 64).foldl (fun n i => if l.rxSeen.contains (l.rxNext + 1 + i) then n + 2 ^ i else n) 0
  let h := { msgHead m (key / 2) 0 0 none 0 (key % 2) with ftype := 1 }
  emit (putLane m key { l with sinceAck := 0, oldest := none, ece := false }) (.ack key (headBytes h false l.ece 0 0 0 l.rxNext 8 bits) bits)

/-- rxNext moves past frames already held. -/
def slide (l : Lane) : Nat → Lane
  | 0 => l
  | n + 1 => if l.rxSeen.contains l.rxNext then slide { l with rxSeen := l.rxSeen.erase l.rxNext, rxNext := l.rxNext + 1 } n else l

/-- The receiver holds the key a sealed message names (R376). -/
def keyHeld (t : Tk) (keygen : Nat) : Bool := (t.live && t.gen % 2 == keygen) || (t.prev.isSome && (t.gen + 1) % 2 == keygen)

/-- The next message of a lane, complete: delivered, or discarded when it fails authentication or its type is unknown (R466, R468, R471). -/
def deliverOne (m : Mod) (src key : Nat) : Option Mod :=
  let l := laneOf m key
  let fs := l.rxFrames.filter (fun f => f.msg == l.rxMsg)
  match fs.find? (fun f => f.last) with
  | none => none
  | some z =>
    if !(List.range (z.seg + 1)).all (fun i => fs.any (fun f => f.seg == i)) then none
    else
      let p := pn z.dstPol
      let t := tkOf m p src z.srcPol
      let l1 := { l with rxFrames := l.rxFrames.filter (fun f => f.msg != l.rxMsg), rxMsg := l.rxMsg + 1 }
      if z.sealed && !(fs.all RxFrame.ok && keyHeld t z.keygen) then
        some (logFault (putLane m key l1) 0x04 z.port fLinkCrc 0 false 0)
      else if !knownType z.ty then some (putLane m key l1)
      else
        let m1 := putLane m key { l1 with inbox := l1.inbox ++ [z] }
        some (if z.sealed then putTk m1 p src z.srcPol { t with recv := if t.gen % 2 == z.keygen then t.recv + 1 else t.recv } else m1)

def deliverN (m : Mod) (src key : Nat) : Nat → Mod
  | 0 => m
  | n + 1 => match deliverOne m src key with
    | none => m
    | some m1 => deliverN m1 src key n

/-- CULVERT_DATA (R466): a received DATA frame is checked, deduplicated and held until its message is complete; every sixteenth one is answered
with an ACK. After a NOTICE, JOURNAL frames of its sender are discarded (Table 16-9). -/
def culvertData (m0 : Mod) (t : Nat) : Mod :=
  match takeRx (tickHvl m0 t) 0 with
  | none => tickHvl m0 t
  | some ((port, w), m) =>
    if !w.check || (w.ty == 0x08 && ((m.peers.get w.src).map Peer.noticed).getD false) then m
    else
      let key := laneKey w.src (w.lane % 2)
      let m1 := heard m w.src
      let l := laneOf m1 key
      let l1 := { l with sinceAck := l.sinceAck + 1, oldest := some (l.oldest.getD m1.hvl), ece := l.ece || w.ce }
      let l2 := match unwrap l.rxNext w.psn with
        | none => l1
        | some psn =>
          if l.rxSeen.contains psn then l1
          else
            let f : RxFrame :=
              { psn := psn, msg := (unwrap l.rxMsg w.msg).getD w.msg, seg := w.seg, last := w.last, ty := w.ty, srcPol := w.srcPol, dstPol := w.dstPol,
                port := port, sealed := w.sealed, keygen := w.keygen, ok := w.auth }
            slide { l1 with rxSeen := l1.rxSeen ++ [psn], rxFrames := l1.rxFrames ++ [f] } (l1.rxSeen.length + 1)
      let m2 := putLane m1 key l2
      let m3 := if 16 ≤ l2.sinceAck then sendAck m2 key else m2
      deliverN m3 w.src key (l2.rxFrames.length + 1)

/-- Frames of a lane resent: each on the next usable port, its timer set (R466, R467). -/
def resend (m : Mod) (key : Nat) (psns : List Nat) (timer : Nat → Nat) : Mod :=
  psns.foldl (fun m n =>
    let l := laneOf m key
    match l.unacked.find? (fun f => f.psn == n), nextPort m with
    | some f, some k =>
      let f' := { f with port := k, sentAt := m.hvl, timer := timer f.timer, missed := 0 }
      let m1 := putLane m key { l with unacked := updWhere l.unacked (fun x => x.psn == n) (fun _ => f'), lastTx := m.hvl }
      queueFrame { m1 with net := { m1.net with rr := (k + 1) % 4 } } key f'
    | _, _ => m) m

/-- WIN of a lane (R466). -/
def laneWin (key : Nat) : Nat := if key % 2 == 0 then 256 else 2048

/-- CULVERT_ACK (R466): acknowledged frames are released, frames passed over by three ACKs are resent, ECE halves the window, and progress returns
the timers to 100 µs. -/
def culvertAck (m0 : Mod) (t : Nat) : Mod :=
  match takeRx (tickHvl m0 t) 1 with
  | none => tickHvl m0 t
  | some ((_, w), m) =>
    if !w.check then m
    else
      let key := laneKey w.src (w.lane % 2)
      let m1 := heard m w.src
      let l := laneOf m1 key
      let base := ((l.unacked.head?).map CulFrame.psn).getD l.nextPsn
      match unwrap base w.ackPsn with
      | none => m1
      | some ap =>
        if l.nextPsn < ap then m1
        else
          let got (f : CulFrame) : Bool := decide (f.psn < ap) || (decide (ap < f.psn) && decide (f.psn - ap - 1 < 64) && bit w.bitmap (f.psn - ap - 1))
          let top := (l.unacked.filter got).foldl (fun a f => max a f.psn) 0
          let rest := (l.unacked.filter (fun f => !got f)).map (fun f => if f.psn < top then { f with missed := f.missed + 1 } else f)
          let progress := decide (rest.length < l.unacked.length)
          let rest1 := if progress then rest.map (fun f => { f with timer := 100000 }) else rest
          let round := progress && decide (l.grow < ap)
          let win := if w.ece then max 16 (l.win / 2) else if round then min (laneWin key) (l.win + 1) else l.win
          let l1 := { l with unacked := rest1, win := win, grow := if round then l.nextPsn else l.grow }
          let m2 := resend (putLane m1 key l1) key ((rest1.filter (fun f => decide (3 ≤ f.missed))).map CulFrame.psn) id
          pumpAll (replAcked m2 w.src) key

/-- CULVERT_ACK_TIMER (R466): 10 µs after the oldest unacknowledged received frame. -/
def culvertAckTimer (m0 : Mod) (src lane t : Nat) : Mod :=
  let m := tickHvl m0 t
  match (laneOf m (laneKey src (lane % 2))).oldest with
  | none => m
  | some o => if o + 10000 ≤ m.hvl then sendAck m (laneKey src (lane % 2)) else m

/-- CULVERT_RESEND_TIMER (R466): the PSN is resent on the next port and its timer doubles, up to 10 ms. -/
def culvertResendTimer (m0 : Mod) (dst lane psn t : Nat) : Mod :=
  let m := tickHvl m0 t
  let key := laneKey dst (lane % 2)
  match (laneOf m key).unacked.find? (fun f => f.psn == psn) with
  | none => m
  | some f => if f.sentAt + f.timer ≤ m.hvl then resend m key [psn] (fun x => min 10000000 (2 * x)) else m

/-- KEEPALIVE_TIMER (R466): a lane idle for PEER_DEAD_MS / 4. -/
def keepaliveTimer (m0 : Mod) (dst lane t : Nat) : Mod :=
  let m := tickHvl m0 t
  let key := laneKey dst (lane % 2)
  match m.net.lanes.get key with
  | none => m
  | some l =>
    if l.unacked.isEmpty && l.queue.isEmpty && decide (l.lastTx + msNs m.own.peerDeadMs / 4 ≤ m.hvl) then
      send (putLane m key { l with lastTx := m.hvl }) dst 0 0 .keepalive
    else m

/-- A delivered message at the front of its lane goes to its consumer; without it nothing happens (R466). -/
def deliver (m : Mod) (src srcPol dstPol lane ty : Nat) (f : Mod → Mod) : Mod :=
  let key := laneKey src lane
  let l := laneOf m key
  match l.inbox with
  | [] => m
  | z :: rest =>
    if z.ty == ty && z.srcPol == srcPol && z.dstPol == dstPol && !m.sys.wd.sealed then
      let m1 := putLane m key { l with inbox := rest }
      if decide (4096 ≤ src) && ty != 0x0B then m1
      else if !moduleLevel ty && m.pol[pn dstPol].fenced then m1 else f m1
    else m

/-- A received KEEPALIVE counts as a frame from the peer (R466); its DATA frame has already been counted. -/
def recvKeepalive (m : Mod) (src : Nat) : Mod := deliver m src 0 0 0 0x0D (fun m => heard m src)

/-- A port leaves service: its queued, held and stamped frames are discarded, its arbiter state and sluice table are cleared, and every frame sent
there and not acknowledged is resent on the other ports (R467, Table 10-7). -/
def portLeaves (m : Mod) (k : Fin 4) : Mod :=
  let po := m.net.ports[k]
  let n := po.queue.length + po.cands.length + (if po.flight.isSome then 1 else 0)
  let m1 := modPort m k (fun po => { po with
    queue := [], cands := [], flight := none, sluice := none, change := none, resume := none, gates := 255, entry := 0 })
  let m2 := { m1 with net := { m1.net with arbs := m1.net.arbs.sel (fun key _ => decide (key < 8 * k.val) || decide (8 * k.val + 8 ≤ key)) } }
  let m3 := minc m2 (Ctr.discardFence k.val) n
  m3.net.lanes.foldl (fun m e => resend m e.1 ((e.2.unacked.filter (fun f => f.port == k.val)).map CulFrame.psn) id) m3

/-- A hello of a transfer-key exchange: a KIND 2 quote of the polder and a ciphertext, zero in the first one (R375). -/
def sendHello (fz : Fuses) (m : Mod) (p : Fin 16) (mod pol ct : Nat) : Mod :=
  let r := signQuote m (akSeed fz m) (quoteOf fz m (some p) 0)
  putMsg r.2 mod pol p.val none .lc (.tkHello r.1 ct)

/-- What waited for a transfer key goes: messages held for the peer, then journal records, oldest first (R376). -/
def tkRelease (m : Mod) (p : Fin 16) (mod pol : Nat) : Mod :=
  let due := m.net.held.filter (fun h => h.dst == mod && h.pol == pol && h.src == p.val)
  let m1 := { m with net := { m.net with held := m.net.held.filter (fun h => !(h.dst == mod && h.pol == pol && h.src == p.val)) } }
  let m2 := due.foldl (fun m h => send m h.dst h.pol h.src h.msg) m1
  (m2.jr.q.filter (fun x => !x.sent && x.r.desc.sealed && recSendable m2 x.r)).foldl flushOne m2

/-- A new key with a peer polder: the next generation, counters at zero; the receiver keeps the previous key for at most 60 s (R376). -/
def tkInstall (m : Mod) (p : Fin 16) (mod pol key : Nat) : Mod :=
  let t := tkOf m p mod pol
  let t' : Tk :=
    { live := true, key := key, gen := t.next, next := t.next + 1, since := m.hvl, sent := 0, recv := 0, helloSent := false,
      prev := if t.live then some (m.hvl + 60000000000) else none, prevKey := if t.live then t.key else 0 }
  tkRelease (pinc (putTk m p mod pol t') p Ctr.tkEstablished 1) p mod pol

/-- What R375 asks of a peer's quote; `verifies` says whether its signature and endorsement verify. -/
def quoteOk (m : Mod) (p : Fin 16) (q : Quote) (verifies : Bool) : Bool :=
  let o := m.pol[p]
  verifies && q.kind == 2 && q.sealed && !q.debugOpen && o.sealed && q.modelDigest == modelDigest o && q.tenant == o.tenant

/-- TK_HELLO (R375). A first hello is answered with a ciphertext under the sender's KEM key; where both sides have begun, the hello of the
lower module identifier stands (log entry 14). -/
def tkHello (fz : Fuses) (m : Mod) (src srcPol : Nat) (p : Fin 16) (q : Quote) (ct : Nat) (verifies : Bool) : Mod :=
  deliver m src srcPol p.val 0 0x0C (fun m =>
    if !m.pol[p].composed then m
    else
    let t := tkOf m p src srcPol
    if !quoteOk m p q verifies then pinc (putTk m p src srcPol { t with helloSent := false }) p Ctr.tkRefused 1
    else if ct == 0 then
      if t.helloSent && decide (selfId m < src) then m
      else
        let (r, m1) := takeRandom m
        let e := Config.kemEncap q.kemKey r
        tkInstall (sendHello fz m1 p src srcPol e.1) p src srcPol e.2
    else if !t.helloSent then m
    else match Config.kemDecap m.pol[p].sec.kem ct with
      | none => pinc (putTk m p src srcPol { t with helloSent := false }) p Ctr.tkRefused 1
      | some ss => tkInstall m p src srcPol ss)

/-- TK_RENEW (R376): a key in use for 23 h or for 2^31 messages starts an exchange; so does a sealed polder without a key (log entry 14). -/
def tkRenew (fz : Fuses) (m0 : Mod) (p : Fin 16) (mod pol t : Nat) : Mod :=
  let m := tickHvl m0 t
  let k := tkOf m p mod pol
  let due := k.live && !k.helloSent && (decide (k.since + 82800000000000 ≤ m.hvl) || decide (2 ^ 31 ≤ k.sent) || decide (2 ^ 31 ≤ k.recv))
  if m.pol[p].composed && m.pol[p].sealed && m.front.modId.isSome && (due || !k.live) then
    sendHello fz (putTk m p mod pol { k with helloSent := true }) p mod pol 0
  else m

/-- TK_EXPIRE (R376): a key that reached 24 h or 2^32 messages is zeroized; replicas to that peer fail. -/
def tkExpire (m0 : Mod) (p : Fin 16) (mod pol t : Nat) : Mod :=
  let m := tickHvl m0 t
  let k := tkOf m p mod pol
  if k.live && (decide (k.since + 86400000000000 ≤ m.hvl) || decide (2 ^ 32 ≤ k.sent) || decide (2 ^ 32 ≤ k.recv)) then
    let m1 := putTk m p mod pol { k with live := false, key := 0, prev := none, prevKey := 0 }
    (m1.pol[p].ck.jobs.filter (fun j => j.ck.sealed && j.repl.any (fun r => r.mod == mod && r.pol == pol && r.st != .done && r.st != .failed))).foldl
      (fun m j => replFail m p j.ck.sid mod pol) m1
  else m

/-- TK_PREVIOUS_DISCARD (R376): the previous key goes once its messages are delivered, at the latest 60 s after the switch. -/
def tkPreviousDiscard (m0 : Mod) (p : Fin 16) (mod pol t : Nat) : Mod :=
  let m := tickHvl m0 t
  let k := tkOf m p mod pol
  let open_ := [0, 1].any (fun ln => (laneOf m (laneKey mod ln)).rxFrames.any (fun f => f.sealed && f.srcPol == pol && f.keygen != k.gen % 2))
  match k.prev with
  | none => m
  | some d => if decide (d ≤ m.hvl) || (decide (0 < k.recv) && !open_) then putTk m p mod pol { k with prev := none, prevKey := 0 } else m

end Sys2Proof.Machine
end

