-- ==== Sys2Proof/Machine/Conf.lean ====
section
/-! DEFINITION. Configuration and accounting by mailbox: QUOTA_SET (R59), PEER_CONF (R110, R411), CKPT_SCHEDULE (R293), CNT_SNAP (R408, R445 to R447),
ENERGY_REPORT (R347), and the records kept across starts (R491). -/

namespace Sys2Proof.Machine

/-- The POLDER_COMPOSE argument that composes a polder as it stands (Table 14-6). -/
def composeArg (p : Nat) (q : Polder) : Block :=
  at8 0 (p % 16 + 16 * b2n q.sealed + 32 + 64) + at8 1 q.ethPorts + at8 2 q.slice.arr + at8 4 q.slice.berm + at8 6 q.slice.toe + at8 8 q.slice.crest +
  at8 20 q.lcArrays + at8 24 q.beStripHs + at8 28 q.recallCfg.sink + at8 29 q.recallCfg.probe + at8 30 q.recallCfg.window + at8 32 q.recallCfg.pages +
  at8 34 q.recallCfg.deadlineUs + (if q.sealed then at8 40 1 else 0)

def savePol (p : Nat) (q : Polder) : SavedPol :=
  { arg := composeArg p q, tenant := q.tenant, crest := q.dCrest, berm := q.dBerm, toe := q.dToe, heatMs := q.heatMs, ck := q.ck.conf,
    pw := q.pw.conf }

/-- The records of Table 17-7 written: the module's settings, and each composed polder; a saved polder that is not composed keeps its record (R491). -/
def saveCfg (m : Mod) : Mod :=
  let old := (m.sys.boot.saved.map Saved.pols).getD []
  let comp := (List.range 16).filter (fun i => m.pol[pn i].composed)
  let pols := comp.foldl (fun (t : SMap SavedPol) i => t.put i (savePol i m.pol[pn i])) old
  let s : Saved :=
    { profile := profileNow m, own := m.own, buddy := m.jr.buddy, timeConf := m.sys.time.conf, stepNs := m.sys.time.stepNs,
      caps := m.sys.pw.caps.read (fun a b c => min a (min b c)), pw := m.sys.pw.conf,
      polic := comp.foldl (fun (t : SMap (List PolSet)) i => t.put i (m.pol[pn i].polic.toList.map Policer.set)) [],
      wts := comp.foldl (fun (t : SMap (SMap Nat)) i => t.put i m.pol[pn i].wts) [],
      sluices := m.net.ports.toList.map (fun po => match po.change with
        | some (_, l) => l
        | none => po.sluice),
      pols := pols }
  modBoot m (fun b => { b with saved := some s })

/-- A mailbox command that ends OK and whose settings are kept across starts. -/
def mbxSaved (m : Mod) (b : Box) (res : Block) : Mod := mbxDone (saveCfg m) b stOk res

/-- A dike record of a QUOTA_SET argument (Table 02-6). DIRECT is fixed at 1 outside Crest. -/
def dikeOf (a : Block) (at_ : Nat) (crest : Bool) : Dike :=
  { ceil := fld a at_ 0 32, lcReserve := fld a (at_ + 4) 0 32, pinMax := fld a (at_ + 8) 0 32, heatPromote := fld a (at_ + 12) 0 8,
    coolEn := flg a (at_ + 13) 0, direct := if crest then flg a (at_ + 13) 1 else true, coolMs := fld a (at_ + 14) 0 16 }

/-- A record that QUOTA_SET refuses with BAD_CMD (R59). -/
def dikeBad (m : Mod) (q : Polder) (t : Tier) (d : Dike) : Bool :=
  decide (sliceFrames m q t < d.ceil) || decide (d.ceil < d.lcReserve) || decide (d.ceil < d.pinMax) ||
  (t != .crest && d.heatPromote != 0) || (t == .toe && d.pinMax != 0) || (t != .toe && d.coolMs == 0)

/-- A record that QUOTA_SET refuses with QUOTA. -/
def dikeLow (q : Polder) (t : Tier) (d : Dike) : Bool :=
  (t != .toe && decide (d.pinMax < pinnedIn q t)) || decide (d.ceil < pinnedIn q t) || (t == .toe && decide (d.ceil < occ q .toe))

/-- QUOTA_SET (R59): dikes and heat epoch change at one instant; the spillway then works to the new watermarks, and the model cache follows (R167). -/
def quotaSet (m : Mod) (b : Box) : Mod := mbxRow m b 0x89 (fun a m =>
  match argPolder m a with
  | none => mbxDone m b stBadCmd 0
  | some p =>
    let q := m.pol[p]
    let c := if flg a 1 0 then dikeOf a 16 true else q.dCrest
    let r := if flg a 1 1 then dikeOf a 32 false else q.dBerm
    let t := if flg a 1 2 then dikeOf a 48 false else q.dToe
    let ms := fld a 2 0 16
    if decide (1000 < ms) || (flg a 1 0 && dikeBad m q .crest c) || (flg a 1 1 && dikeBad m q .berm r) || (flg a 1 2 && dikeBad m q .toe t) then
      mbxDone m b stBadCmd 0
    else if q.fenced then mbxDone m b stFenced 0
    else if (flg a 1 0 && dikeLow q .crest c) || (flg a 1 1 && dikeLow q .berm r) || (flg a 1 2 && dikeLow q .toe t) then mbxDone m b stQuota 0
    else
      let m1 := modPol m p (fun q => { q with dCrest := c, dBerm := r, dToe := t, heatMs := if ms == 0 then q.heatMs else ms })
      let m2 := spill m1 p
      let m3 := if highMark c < crestSettled m2.pol[p] && (victims m2.pol[p] .crest 3).isEmpty then cacheTrim m2 p 64 else m2
      mbxSaved m3 b 0)

/-- Every live descriptor goes to a new buddy: a DESC record, or an OWN record for one in transfer (R110). -/
def journalAll (m : Mod) : Mod :=
  (m.dir.filter (fun e => e.2.own != .none)).foldl (fun m e => (sendRec m e.1 (recOf (if busyOwn e.2 then 3 else 1) e.2.pol e.2)).2) m

/-- BUDDY changed or cleared (R110): the former buddy is sent a RELEASE record, what waited for it happens, and the new one is sent every live
descriptor. -/
def setBuddy (m : Mod) (nb : Option Nat) : Mod :=
  if nb == m.jr.buddy then m
  else
    let m1 := match m.jr.buddy with
      | none => m
      | some _ => (sendRec m (2 ^ 24) (recOf 5 0 (Desc.blank 0))).2
    let acts := m1.jr.acts
    let mu := if m1.jr.down then buddyUp m1 else m1
    let m2 := { mu with jr := { mu.jr with buddy := none, q := [], acts := [], down := false, resentTo := none } }
    let m3 := acts.foldl (fun m a => runAct m a.1 a.2) m2
    journalAll { m3 with jr := { m3.jr with buddy := nb, lastAck := m3.hvl, waitSince := m3.hvl } }

/-- PEER_CONF (R411, Table 14-8). -/
def peerConf (m : Mod) (b : Box) : Mod := mbxRow m b 0x93 (fun a m =>
  let lease := fld a 2 0 16
  let guard := fld a 4 0 16
  let dead := fld a 6 0 16
  let deg := fld a 8 0 16
  let nb := fld a 10 0 12
  let no := flg a 10 15
  let badT := decide (lease < 100) || decide (60000 < lease) || decide (guard < 10) || decide (lease < 2 * guard) || decide (dead < 20) ||
    decide (5000 < dead) || decide (deg < 1) || decide (1000 < deg)
  if (flg a 0 0 && badT) || (flg a 0 1 && !no && m.front.modId == some nb) then mbxDone m b stBadCmd 0
  else
    let m1 := if flg a 0 0 then { m with own := { m.own with leaseMs := lease, guardMs := guard, peerDeadMs := dead, degradeMs := deg } } else m
    let m2 := if flg a 0 2 then { m1 with own := { m1.own with adopt := (List.range 16).map (fun i => fld a (12 + i / 2) (4 * (i % 2)) 4) } } else m1
    let m3 := if flg a 0 1 then setBuddy m2 (if no then none else some nb) else m2
    mbxSaved m3 b 0)

/-- CKPT_SCHEDULE (R293, Table 09-5). -/
def ckptSchedule (m : Mod) (b : Box) : Mod := mbxRow m b 0x94 (fun a m =>
  let c : CkConf :=
    { enable := flg a 1 0, onPark := flg a 1 1, every := fld a 2 0 16, chainMax := fld a 4 0 8, retain := fld a 5 0 8, share := fld a 6 0 8,
      inflight := fld a 7 0 8, repl := (List.range (fld a 8 0 3)).map (fun i => (fld a (12 + 4 * i) 0 12, fld a (12 + 4 * i) 12 4)) }
  match argPolder m a with
  | none => mbxDone m b stBadCmd 0
  | some p =>
    if c.every == 0 || c.chainMax == 0 || c.retain == 0 || decide (16 < c.retain) || c.share == 0 || decide (50 < c.share) || c.inflight == 0 ||
       decide (4 < fld a 8 0 3) then mbxDone m b stBadCmd 0
    else mbxSaved (modCk m p (fun k => { k with conf := c })) b 0)

/-- The units inside a cofferdam by UNIT_TYPE (Table 13-3). -/
def unitsFenced (m : Mod) (ty : Nat) : Nat :=
  let f := m.fence
  match ty with
  | 0x01 => ((List.range 256).filter (fun a => arrayFenced m a)).length
  | 0x02 => popcount f.berm.orRead 16
  | 0x03 => popcount f.toe.orRead 32
  | 0x04 => popcount (f.link.orRead % 16) 4
  | 0x05 => popcount (f.link.orRead / 16 % 4) 2
  | 0x06 => popcount (f.link.orRead / 256 % 16) 4
  | 0x07 => popcount (f.units.orRead % 65536) 16
  | 0x08 => popcount (f.units.orRead / 65536) 16
  | 0x09 => popcount f.vdom.orRead 16
  | 0x0A => popcount f.phase.orRead 24
  | 0x0C => popcount f.sensor.orRead 36
  | _ => 0

/-- The module's counters at one instant with the gauges a snapshot loads (R84, R154, R349, R402). -/
def snapMod (m : Mod) : Ctrs :=
  let c1 := (List.range 32).foldl (fun (c : Ctrs) ch => c.wr (Ctr.wearPct ch) (((m.ftl.chans.get ch).map Sys2Proof.Machine.wearPct).getD 0)) m.ctr
  let c2 := (List.range 32).foldl (fun (c : Ctrs) ty => c.wr (Ctr.unitsFenced ty) (unitsFenced m ty)) c1
  let c3 := c2.wr Ctr.tjMaxC ((m.sys.pw.tjMax / 10).toNat)
  (List.range 16).foldl (fun (c : Ctrs) i =>
    let x : Ctrs := if m.pol[pn i].sealed then [] else m.pol[pn i].ctr
    (List.range 18).foldl (fun (c : Ctrs) k => c.wr (Ctr.exactEnergy i k) (x.rd (Ctr.energyNj + 8 * k))) c) c3

/-- A polder's counters at one instant: energy rows as published, gauges as they stand (R447). -/
def snapPol (q : Polder) : Ctrs :=
  let c1 := (List.range 18).foldl (fun (c : Ctrs) k => c.wr (Ctr.energyNj + 8 * k) ((q.pw.pub.get (Ctr.energyNj + 8 * k)).getD 0)) q.ctr
  (c1.wr Ctr.polPaceKhz q.pw.pace).wr Ctr.vcoreMv q.pw.vcore

/-- The header of a holding region (Table 15-11a). -/
def snapHead (c old : Ctrs) (base t pt close : Nat) : Ctrs :=
  (((c.wr base (old.rd base + 1)).wr (base + 8) t).wr (base + 16) pt).wr (base + 24) close

/-- A counter of a snapshot with n more. -/
def addTo (c : Ctrs) (k n : Nat) : Ctrs := c.wr k (c.rd k + n)

/-- A wait that goes on at the snapshot. -/
def addWait (c : Ctrs) (k : Nat) (since : Option Nat) (now : Nat) : Ctrs :=
  match since with
  | none => c
  | some t => addTo c k (now - t)

/-- The waits of a polder that go on at a snapshot, counted up to it (R408): its counters of nanoseconds hold those that have passed, whether
or not the wait has ended (DEDUCED, log 15). -/
def withWaits (m : Mod) (p : Fin 16) (c : Ctrs) : Ctrs :=
  let q := m.pol[p]
  let c1 := q.sqs.toList.foldl (fun (c : Ctrs) (r : Sq) =>
    addWait (addWait (addWait c Ctr.cqWaitNs r.cqSince q.clk) Ctr.shareWaitNs r.shareSince q.clk) (Ctr.polHoldNs r.heldIdx) r.held q.clk) c
  let frames := (m.net.ports.toList.flatMap Port.queue).filter (fun (f : EgrFrame) => f.pol == p.val && !f.passed)
  let c2 := frames.foldl (fun (c : Ctrs) f => addWait c (Ctr.polHoldNs (polIdx 1 f.cls)) f.held q.clk) c1
  let ready := ((q.passes.filter (fun (x : Pass) => x.lc)).flatMap Pass.since).map (fun (e : StripKey × Nat) => q.clk - e.2)
  addTo c2 Ctr.lcWaitNs ready.sum

/-- BUDDY_DOWN_MS up to a snapshot (R117). -/
def withDown (m : Mod) (c : Ctrs) : Ctrs := if m.jr.down then addTo c Ctr.buddyDownMs ((m.hvl - m.jr.downAt) / 1000000) else c

def snapPolder (m : Mod) (p : Fin 16) : Mod :=
  modPol m p (fun q => { q with hold := snapHead (withWaits m p (snapPol q)) q.hold 0x1000 m.hvl q.clk q.pw.closeAt })

def snapRes (t n : Nat) : Block := at8 16 (t % 2 ^ 64) + at8 24 (n % 2 ^ 64)

/-- CNT_SNAP with module scope (R408): every module and composed-polder counter at one instant; the gauges that hold a
largest value since the previous snapshot begin again (R117, R349). -/
def cntSnap (m : Mod) (b : Box) (t : Nat) (ts : List Nat) : Mod := mbxRowIf m b 0x95 (fun a => !flg a 0 0) (fun _ m =>
  match b with
  | .pol _ => mbxDone m b stBadCmd 0
  | .mgmt =>
    let m0 := (List.finRange 16).foldl (fun m p => if m.pol[p].composed then tickPol m p (ts.getD p.val 0) else m) (tickHvl m t)
    let m1 := { m0 with front := { m0.front with hold := snapHead (withDown m0 (snapMod m0)) m0.front.hold 0x8000 m0.hvl 0 0, snapNum := m0.front.snapNum + 1 } }
    let m2 := (List.range 16).foldl (fun m i => if m.pol[pn i].composed then snapPolder m (pn i) else m) m1
    let m3 := { m2 with ctr := m2.ctr.wr Ctr.journalLagMaxUs 0, jr := { m2.jr with lag := 0 } }
    mbxDone (modPw m3 (fun x => { x with tjMax := x.tj })) b stOk (snapRes m2.hvl (m2.front.hold.rd 0x8000)))

/-- CNT_SNAP with polder scope (R408). -/
def cntSnapPolder (m : Mod) (b : Box) (t pt : Nat) : Mod := mbxRowIf m b 0x95 (fun a => flg a 0 0) (fun a m =>
  let p := pn (fld a 1 0 4)
  if !m.pol[p].composed then mbxDone m b stBadCmd 0
  else
    let m1 := snapPolder (tickPol (tickHvl m t) p pt) p
    mbxDone m1 b stOk (snapRes m1.hvl (m1.pol[p].hold.rd 0x1000)))

/-- The published totals of a report as (identifier, counter key or none for a job, nJ), non-zero ones only (Table 11-11). -/
def energyRows (q : Polder) (mode : Nat) : List (Nat × Option Nat × Nat) :=
  let key (id k : Nat) : Nat × Option Nat × Nat := (id, some k, (q.pw.pub.get k).getD 0)
  let rows := match mode with
    | 0 => q.pw.pubJobs.map (fun (e : Nat × Nat) => (e.1, none, e.2))
    | 1 => (List.range 16).map (fun r => key r (Ctr.ringEnergyNj r))
    | _ => [key 0 Ctr.energyNj, key 0xFFFF Ctr.energyBgNj]
  rows.filter (fun r => r.2.2 != 0)

/-- A reported total falls by its published value (R347). -/
def energyReset (q : Polder) (r : Nat × Option Nat × Nat) : Polder :=
  match r.2.1 with
  | none => { q with pw := { q.pw with jobs := q.pw.jobs.upd r.1 (fun x => x - r.2.2), pubJobs := q.pw.pubJobs.del r.1 } }
  | some k => { q with ctr := q.ctr.wr k (q.ctr.rd k - r.2.2), pw := { q.pw with pub := q.pw.pub.del k } }

/-- ENERGY_REPORT (R347). -/
def energyReport (m : Mod) (b : Box) : Mod := mbxRow m b 0x90 (fun a m =>
  let mode := fld a 1 0 2
  let host := fld a 8 0 64
  match argPolder m a with
  | none => mbxDone m b stBadCmd 0
  | some p =>
    let q := m.pol[p]
    let rows := energyRows q mode
    let out := rows.take (fld a 16 0 32)
    let attested := b == .pol p && decide (0 < q.sec.bbEpoch) && inBounce q host (16 * out.length)
    if mode == 3 || host % 64 != 0 || (q.sealed && !attested) then mbxDone m b stBadCmd 0
    else
      let m1 := hostOut m p host (16 * out.length) (pack (energyFields (out.map (fun r => (r.1, r.2.2 / 1000000)))))
      let m2 := if flg a 1 2 then modPol m1 p (fun q => out.foldl energyReset q) else m1
      mbxDone m2 b stOk (at8 16 (q.pw.closeAt % 2 ^ 64) + at8 24 (out.length % 2 ^ 32) + at8 28 ((rows.length - out.length) % 2 ^ 32)))

end Sys2Proof.Machine
end

