-- ==== Sys2Proof/Machine/Power.lean ====
section
/-! DEFINITION. Power, thermal control and energy accounting (chapter 11): the effective cap (R330, R341, R342), the controller's modes and budgets
(R333 to R336), POWER_BUDGET (R337), junction temperature (R338), clamps (R340), and the energy charged to polders, rings and jobs (R343 to R346). -/

namespace Sys2Proof.Machine

/-- PWR_CAPS as read: the lowest of its copies (Table 15-3). -/
def capsNow (m : Mod) : Nat := m.sys.pw.caps.read (fun a b c => min a (min b c))
def capW (m : Mod) : Nat := capsNow m % 65536
def floorW (m : Mod) : Nat := capsNow m / 65536 % 65536

/-- The highest CAP_W in force: 18 W less for each fenced phase (Table 13-3). -/
def capHigh (m : Mod) : Nat := 420 - 18 * popcount m.fence.phase.orRead 24

def lentW (m : Mod) : Nat := (m.sys.pw.lent.map Loan.watts).sum
def borrowedW (m : Mod) : Nat := (m.sys.pw.borrowed.map Loan.watts).sum

/-- The effective cap (R330). -/
def capEff (m : Mod) : Nat := max (floorW m) (min (capHigh m) (min (capW m) (capHigh m) + borrowedW m - lentW m))

/-- FALLBACK is entered (Table 11-3). -/
def enterFallback (m : Mod) : Mod := minc (modPw m (fun x => { x with mode := 1, overN := 0, calm := 0 })) Ctr.pwrFallbackN 1

/-- CLAMPED is entered: borrowed watts are dropped at once (R342). -/
def enterClamped (m : Mod) : Mod := modPw m (fun x => { x with mode := 2, borrowed := [] })

/-- The effective cap is noted: a fall of more than 20 W within 1 ms leaves FRACTION (Table 11-3). -/
def capChanged (m : Mod) : Mod :=
  let c := capEff m
  let recent := m.sys.pw.capAt.takeWhile (fun e => decide (m.hvl < e.1 + 1000000))
  let before := (m.sys.pw.capAt.drop recent.length).take 1
  let m1 := modPw m (fun x => { x with capAt := (m.hvl, c) :: (recent ++ before) })
  if m.sys.pw.mode == 0 && (recent ++ before).any (fun e => decide (c + 20 < e.2)) then enterFallback m1 else m1

-- Configuration (R337).

/-- A zero field leaves its value unchanged. -/
def keep (old new : Nat) : Nat := if new == 0 then old else new

/-- A value of a field that is given and lies outside its range. -/
def outOf (v lo hi : Nat) : Bool := v != 0 && (decide (v < lo) || decide (hi < v))

/-- The module's settings with a POWER_BUDGET argument's fields put in (Table 11-5). -/
def modConf (c : PwrConf) (a : Block) : PwrConf :=
  { fracC := keep c.fracC (fld a 6 0 8), fracM := keep c.fracM (fld a 7 0 8), fracL := keep c.fracL (fld a 8 0 8), tjSoft := keep c.tjSoft (fld a 9 0 8),
    vLo := keep c.vLo (fld a 10 0 16), vHi := keep c.vHi (fld a 12 0 16), group := keep c.group (fld a 24 0 16),
    shiftMax := keep c.shiftMax (fld a 26 0 16), offerMs := keep c.offerMs (fld a 28 0 16),
    crit := (List.range 8).map (fun i => keep (c.crit.getD i 0xFFFF) (fld a (32 + 2 * i) 0 16)) }

def newCaps (m : Mod) (a : Block) : Nat × Nat := (keep (capW m) (fld a 2 0 16), keep (floorW m) (fld a 4 0 16))

/-- A module-scope argument that completes with BAD_CMD. -/
def modBudgetBad (m : Mod) (a : Block) : Bool :=
  let f := [fld a 6 0 8, fld a 7 0 8, fld a 8 0 8]
  let c := modConf m.sys.pw.conf a
  let k := newCaps m a
  outOf (fld a 2 0 16) 120 420 || outOf (fld a 4 0 16) 120 420 || f.any (fun v => decide (100 < v)) || (f.sum != 0 && f.sum != 100) ||
  outOf (fld a 9 0 8) 70 100 || outOf (fld a 10 0 16) 550 850 || outOf (fld a 12 0 16) 550 850 || decide (100 < fld a 26 0 16) ||
  outOf (fld a 28 0 16) 10 1000 || decide (k.1 < k.2) || decide (c.vHi < c.vLo)

/-- A polder's settings with an argument's fields put in; from its own mailbox WEIGHT is ignored and V_LO and V_HI are clipped to the module range. -/
def polConf (m : Mod) (own : Bool) (c : PolPwrConf) (a : Block) : PolPwrConf :=
  let clip (v : Nat) : Nat := if own && v != 0 then max m.sys.pw.conf.vLo (min m.sys.pw.conf.vHi v) else v
  { policy := keep c.policy (fld a 16 0 2), weight := if own then c.weight else keep c.weight (fld a 17 0 8), vLo := keep c.vLo (clip (fld a 18 0 16)),
    vHi := keep c.vHi (clip (fld a 20 0 16)), vSet := keep c.vSet (fld a 22 0 16), acctMs := keep c.acctMs (fld a 30 0 16) }

/-- A polder-scope argument that completes with BAD_CMD. -/
def polBudgetBad (m : Mod) (b : Box) (a : Block) : Bool :=
  let p := pn (fld a 1 0 8)
  let own := b != .mgmt
  let c := polConf m own m.pol[p].pw.conf a
  decide (16 ≤ fld a 1 0 8) || (own && b != .pol p) || !m.pol[p].composed || fld a 16 0 2 == 3 || outOf (fld a 18 0 16) 550 850 ||
  outOf (fld a 20 0 16) 550 850 || outOf (fld a 22 0 16) 550 850 || outOf (fld a 30 0 16) 10 1000 || decide (c.vHi < c.vLo)

def budgetBad (m : Mod) (b : Box) (a : Block) : Bool :=
  if flg a 0 0 then polBudgetBad m b a else b != .mgmt || modBudgetBad m a

/-- A valid change takes effect. -/
def applyBudget (m : Mod) (own : Bool) (a : Block) : Mod :=
  if flg a 0 0 then
    modPol m (pn (fld a 1 0 8)) (fun q => { q with pw := { q.pw with conf := polConf m own q.pw.conf a } })
  else
    let k := newCaps m a
    capChanged (modPw m (fun x => { x with caps := Tri.mk1 (k.1 + 65536 * k.2), conf := modConf x.conf a }))

/-- The result of POWER_BUDGET. -/
def budgetRes (m : Mod) (a : Block) : Block :=
  at8 16 (capEff m) + at8 18 m.sys.pw.mode + (if flg a 0 0 then at8 20 m.pol[pn (fld a 1 0 8)].pw.vcore else 0)

/-- While CLAMPED with the junction at or above 100 °C a release is turned away (R337). -/
def releaseHot (m : Mod) (a : Block) : Bool := flg a 0 1 && m.sys.pw.mode == 2 && decide (1000 ≤ m.sys.pw.tj)

/-- A POWER_BUDGET command accepted: it completes at once when it is refused, and otherwise applies at the next control interval. -/
def takeBudget (m : Mod) (b : Box) (a : Block) : Mod :=
  if releaseHot m a then mbxDone m b stRetry 0
  else if budgetBad m b a then mbxDone m b stBadCmd 0
  else modPw m (fun x => { x with cmds := x.cmds ++ [(b, a)] })

/-- POWER_BUDGET with module scope (R337). -/
def powerBudget (m : Mod) (b : Box) : Mod := mbxRowIf m b 0x88 (fun a => !flg a 0 0 && !flg a 0 1) (fun a m => takeBudget m b a)

/-- POWER_BUDGET with polder scope (R337). -/
def powerBudgetPolder (m : Mod) (b : Box) : Mod := mbxRowIf m b 0x88 (fun a => flg a 0 0 && !flg a 0 1) (fun a m => takeBudget m b a)

/-- POWER_BUDGET with CLAMP_RELEASE (R333, R337). -/
def clampRelease (m : Mod) (b : Box) : Mod := mbxRowIf m b 0x88 (fun a => flg a 0 1) (fun a m => takeBudget m b a)

/-- CLAMPED ends: what was stored takes effect (R337). -/
def leaveClamped (m : Mod) : Mod :=
  let m1 := enterFallback (modPw m (fun x => { x with later := [], gate := false, wdGate := false }))
  m.sys.pw.later.foldl (fun m e => if e.1 < 16 && !m.pol[pn e.1].composed then m else applyBudget m e.2.2 e.2.1) m1

/-- One command at its control interval: stored in CLAMPED, applied otherwise; the settings are kept across starts (R491). -/
def runBudget (m : Mod) (e : Box × Block) : Mod :=
  let (b, a) := e
  if releaseHot m a then mbxDone m b stRetry 0
  else if budgetBad m b a then mbxDone m b stBadCmd 0
  else
    let own := b != .mgmt
    let m1 := if m.sys.pw.mode == 2 && !flg a 0 1 then
        modPw m (fun x => { x with later := x.later ++ [(if flg a 0 0 then fld a 1 0 8 else 16, a, own)] })
      else applyBudget (if m.sys.pw.mode == 2 then leaveClamped m else m) own a
    mbxSaved m1 b (budgetRes m1 a)

def runBudgets (m : Mod) : Mod :=
  m.sys.pw.cmds.foldl runBudget (modPw m (fun x => { x with cmds := [] }))

-- Modes (R333).

/-- Telemetry is stale (Table 11-3). -/
def stale (m : Mod) (age : Nat) : Bool :=
  decide (500000 < age) || (List.range 16).any (fun i =>
    m.pol[pn i].composed && !m.pol[pn i].fenced && decide (m.pol[pn i].pw.paceAt + 1000000 < m.hvl))

/-- The counters of whole milliseconds since the last interval (Table 11-13). -/
def countMs (m : Mod) (n : Nat) (exceeds : Bool) : Mod :=
  let x := m.sys.pw
  let m1 := minc m Ctr.pwrFallbackMs (if x.mode == 1 then n else 0)
  let m2 := minc m1 Ctr.pwrClampMs (if x.mode == 2 then n else 0)
  let m3 := minc m2 Ctr.pwrOverCapMs (if exceeds then n else 0)
  let m4 := minc m3 Ctr.thermSoftMs (if 10 * (x.conf.tjSoft : Int) ≤ x.tj then n else 0)
  minc (minc m4 Ctr.pwrLentMs (n * lentW m)) Ctr.pwrBorrowedMs (n * borrowedW m)

/-- The mode at a control interval (Table 11-3). -/
def modeStep (m : Mod) (s : PwrSample) : Mod :=
  let n := m.hvl / 1000000 - m.sys.pw.msAt
  let exceeds := decide (capEff m * 1000 < s.inMw)
  let st := stale m s.age
  let m1 := modPw (countMs m n exceeds) (fun x => { x with
    msAt := max x.msAt (m.hvl / 1000000)
    overN := if exceeds then x.overN + n else if n == 0 then x.overN else 0
    calm := if st || exceeds then 0 else if x.mode == 1 then x.calm + n else 0 })
  let x := m1.sys.pw
  if x.mode == 0 && (st || decide (5 ≤ x.overN)) then enterFallback m1
  else if x.mode == 1 && decide (20 ≤ x.calm) then modPw m1 (fun x => { x with mode := 0, overN := 0, calm := 0 })
  else m1

-- Budgets (R334, R335) and pace (R336).

/-- The typical rate at a VCORE, in units of 0.2 MG/s, taken linearly between the rows of Table 04-3. -/
def rateAt (v : Nat) : Nat :=
  let t := [55, 70, 85, 100, 111, 121, 130]
  let i := (v - 550) / 50
  t.getD i 130 * 50 + (t.getD (i + 1) 130 - t.getD i 130) * ((v - 550) % 50)

/-- The highest V_HI the settings allow a polder; V_LO and V_HI in force: its range within the module's, V_HI lowered by R338. -/
def vHiSet (m : Mod) (q : Polder) : Nat := min m.sys.pw.conf.vHi q.pw.conf.vHi
def vHiNow (m : Mod) (q : Polder) : Nat := max 550 (vHiSet m q - q.pw.vhiCut)
def vLoNow (m : Mod) (q : Polder) : Nat := min (vHiNow m q) (max m.sys.pw.conf.vLo q.pw.conf.vLo)

/-- A polder is idle when it has started no strip for 1 ms (R336). -/
def idle (m : Mod) (q : Polder) : Bool :=
  match q.pw.stripAt with
  | none => true
  | some t => decide (t + 1000000 ≤ m.hvl)

/-- Polders that take part in the compute budget. -/
def paced (m : Mod) (i : Nat) : Bool := m.pol[pn i].composed && !m.pol[pn i].fenced

/-- Compute is held back: a busy polder in PERF or FIXED runs below the VCORE that its policy names (R334). -/
def belowPolicy (m : Mod) (q : Polder) : Bool :=
  !idle m q && ((q.pw.conf.policy == 0 && decide (q.pw.vcore < vHiNow m q)) || (q.pw.conf.policy == 2 && decide (q.pw.vcore < q.pw.conf.vSet)))

def compHeld (m : Mod) : Bool := (List.range 16).any (fun i => paced m i && belowPolicy m m.pol[pn i])

/-- The ratio of load to input power over the last 1 ms; with no input power it is open. -/
def effNow (m : Mod) : Rat :=
  let x := m.sys.pw
  if x.inMw == 0 then (Config.openNat m.free : Rat) / 100 else (x.compMw + x.memMw + x.linkMw + x.fixedMw : Nat) / (x.inMw : Rat)

/-- Load watts left of a cap after the fixed domain, in mW. -/
def availMw (m : Mod) (cap : Nat) : Rat := (cap * 1000 : Nat) * effNow m - (m.sys.pw.fixedMw : Rat)

def toMw (r : Rat) : Nat := r.floor.toNat

/-- Budgets in FRACTION (R334): what idle domains leave goes to those held back, and is freeboard when none is. -/
def fractionSplit (m : Mod) (heldMem heldLink : Bool) : Rat × Rat × Rat × Rat :=
  let x := m.sys.pw
  let avail := availMw m (capEff m)
  let held := [compHeld m, heldMem, heldLink]
  let frac := [x.conf.fracC, x.conf.fracM, x.conf.fracL]
  let use := [x.compMw, x.memMw, x.linkMw]
  let b := frac.map (fun (f : Nat) => (f : Rat) * avail / 100)
  let ds := [0, 1, 2]
  let spare := (ds.map (fun d => if held.getD d false then (0 : Rat) else max 0 (b.getD d 0 - (use.getD d 0 : Nat)))).foldl (· + ·) 0
  let fs := (ds.map (fun d => if held.getD d false then frac.getD d 0 else 0)).sum
  let out := ds.map (fun d =>
    if held.getD d false then b.getD d 0 + (if fs == 0 then 0 else spare * (frac.getD d 0 : Nat) / (fs : Rat))
    else min (b.getD d 0) ((use.getD d 0 : Nat) : Rat))
  (out.getD 0 0, out.getD 1 0, out.getD 2 0, if held.any id then 0 else spare)

/-- Budgets in FALLBACK and CLAMPED (R335), CLAMPED at FLOOR_W (R340): memory and links first. -/
def prioritySplit (m : Mod) (demMem demLink : Nat) : Rat × Rat × Rat :=
  let x := m.sys.pw
  let avail := availMw m (if x.mode == 2 then floorW m else capEff m)
  let bm := min ((x.memMw + demMem : Nat) : Rat) avail
  let bl := min ((x.linkMw + demLink : Nat) : Rat) (avail - bm)
  (avail - bm - bl, bm, bl)

/-- Compute power of the active arrays at VCORE 0.55 V. -/
def leastMw (m : Mod) (pc : List Nat) : Rat :=
  ((List.range 16).map (fun i =>
    let v := m.pol[pn i].pw.vcore
    if paced m i && v != 0 then ((pc.getD i 0 * 550 * 550 * rateAt 550 : Nat) : Rat) / ((v * v * rateAt v : Nat) : Rat) else 0)).foldl (· + ·) 0

/-- The budgets put in force, with the gating of strip issue that they call for (R335, R336), no looser than the warden's (R340). -/
def setBudgets (m : Mod) (c d l : Rat) (pc : List Nat) : Mod :=
  modPw m (fun x => { x with bComp := toMw c, bMem := toMw d, bLink := toMw l, beGate := decide (c < leastMw m pc), gate := x.wdGate || (decide (c ≤ 0) && decide (c < leastMw m pc)) })

/-- v_cap of a polder for its share of the compute budget (R336). -/
def vCap (m : Mod) (q : Polder) (pc : Nat) (share : Rat) : Nat :=
  let vn := q.pw.vcore
  let lo := vLoNow m q
  let ok (v : Nat) : Bool := decide (((pc * v * v * rateAt v : Nat) : Rat) ≤ share * ((vn * vn * rateAt vn : Nat) : Rat))
  let vs := ((List.range 61).map (fun k => 550 + 5 * k)).filter (fun v => decide (lo ≤ v) && decide (v ≤ vHiNow m q) && ok v)
  vs.getLastD lo

/-- The VCORE that a polder's policy chooses (Table 11-4), on the 5 mV grid (R332). -/
def vTarget (m : Mod) (q : Polder) (cap : Nat) : Nat :=
  let v := if idle m q then vLoNow m q
    else match q.pw.conf.policy with
      | 0 => cap
      | 1 => min q.pw.conf.vSet cap
      | _ => if q.pw.conf.vSet ≤ cap then q.pw.conf.vSet else cap
  550 + 5 * ((v - 550) / 5)

/-- One polder's VCORE moves by at most 25 mV towards its target (R336). -/
def paceOne (m : Mod) (pc : List Nat) (b : Rat) (i : Nat) : Mod :=
  if !paced m i then m
  else
    let q := m.pol[pn i]
    let ws := ((List.range 16).filter (fun j => paced m j && !idle m m.pol[pn j])).map (fun j => m.pol[pn j].pw.conf.weight)
    let share := if ws.sum == 0 then 0 else b * (q.pw.conf.weight : Rat) / (ws.sum : Rat)
    let t := vTarget m q (vCap m q (pc.getD i 0) share)
    let v := q.pw.vcore
    let low := compHeld m && decide (v < vHiNow m q) && !idle m q
    modPol m (pn i) (fun q => { q with pw := { q.pw with
      vcore := if v < t then min t (v + 25) else max t (v - 25)
      lowSince := if low then some (q.pw.lowSince.getD m.hvl) else none } })

/-- Every polder's VCORE, each judged as the interval found the module. -/
def paceAll (m : Mod) (pc : List Nat) (b : Rat) : Mod :=
  (List.range 16).foldl (fun a i => { a with pol := a.pol.set (pn i) (paceOne m pc b i).pol[pn i] }) m

/-- Budgets and paces of one interval. -/
def shareOut (m0 : Mod) (s : PwrSample) : Mod :=
  let m := modPw m0 (fun x => { x with inMw := s.inMw, compMw := s.compMw, memMw := s.memMw, linkMw := s.linkMw, fixedMw := s.fixedMw })
  let (c, d, l, free) := if m.sys.pw.mode == 0 then fractionSplit m s.heldMem s.heldLink
    else let (c, d, l) := prioritySplit m s.demMem s.demLink
         (c, d, l, 0)
  let m1 := modPw (setBudgets m c d l s.pc) (fun x => { x with
    spare := ((m.hvl, toMw free) :: x.spare).filter (fun e => decide (m.hvl < e.1 + 100000000)) })
  paceAll { m1 with free := m1.free + 1 } s.pc c

-- Energy (R343, R344).

/-- The share of an energy that falls to a part, in whole nJ; the rounding of a share that is no whole number is open. -/
def shareNj (e num den free : Nat) : Nat :=
  if den == 0 then 0 else e * num / den + (if e * num % den == 0 then 0 else Config.openNat free % 2)

/-- Energy charged to a polder, to a job or the polder's background, and to a ring (R344). -/
def chargeTo (m : Mod) (c : Payer) (nj : Nat) : Mod :=
  modPol m (pn c.pol) (fun q =>
    let c1 := q.ctr.inc Ctr.energyNj nj
    let c2 := if c.job == 0xFFFF then c1.inc Ctr.energyBgNj nj else c1
    let c3 := match c.ring with
      | some r => c2.inc (Ctr.ringEnergyNj (r % 16)) nj
      | none => c2
    { q with
      ctr := c3
      pw := if c.job == 0xFFFF then q.pw else { q.pw with jobs := q.pw.jobs.put c.job ((q.pw.jobs.get c.job).getD 0 + nj) } })

/-- A domain's dynamic energy split over activity records by weight, each record's part over its owners in equal shares (R343, R344); what is
left goes to ENERGY_UNATTRIB. -/
def chargeDomain (m : Mod) (dyn : Nat) (acts : List Activity) : Mod :=
  let w := (acts.map Activity.weight).sum
  let r := acts.foldl (fun (a : Mod × Nat) (x : Activity) =>
    let os := x.dest.charges
    os.foldl (fun (a : Mod × Nat) (c : Payer) =>
      if !a.1.pol[pn c.pol].composed then a
      else
        let nj := shareNj dyn x.weight (w * os.length) a.1.free
        (chargeTo { a.1 with free := a.1.free + 1 } c nj, a.2 + nj)) a) (m, 0)
  minc r.1 Ctr.energyUnattribNj (dyn - r.2)

/-- The key of a domain's static energy: domain (0 to 15 VCORE domains, 16 memory, 17 links), VCORE step and 5 °C band. -/
def staticKey (m : Mod) (d vcore : Nat) : Nat := (d * 64 + (vcore - 550) / 5) * 64 + ((m.sys.pw.tj + 1000) / 50).toNat

/-- Static energy of a domain is measured when it is idle and taken off otherwise; the dynamic part is what is left. -/
def lessStatic (m : Mod) (key e : Nat) (isIdle : Bool) : Mod × Nat :=
  if isIdle then (minc (modPw m (fun x => { x with static := x.static.put key e })) Ctr.energyUnattribNj e, 0)
  else
    let st := min e ((m.sys.pw.static.get key).getD 0)
    (minc m Ctr.energyUnattribNj st, e - st)

/-- The compute activity of a polder. -/
def compActs (s : PwrSample) (i : Nat) : List Activity :=
  s.acts.filter (fun (x : Activity) => x.dom == 0 && (x.dest.charges.head?.map Payer.pol) == some i)

/-- One interval's energy (R343): a polder's VCORE domains over its own records, memory and links over all records of theirs. -/
def chargeEnergy (m : Mod) (s : PwrSample) : Mod :=
  let owned := (List.range 16).foldl (fun a i =>
    if !a.pol[pn i].composed then a
    else
      let acts := compActs s i
      let r := (bitsOf a.pol[pn i].slice.arr 16).foldl (fun (b : Mod × Nat) g =>
        let x := lessStatic b.1 (staticKey b.1 g b.1.pol[pn i].pw.vcore) (s.eVdom.getD g 0) acts.isEmpty
        (x.1, b.2 + x.2)) (a, 0)
      chargeDomain r.1 r.2 acts) m
  let alone := ((List.range 16).filter (fun g => (ownerOf m (fun k => bit k.arr g)) == 255)).map (fun g => s.eVdom.getD g 0)
  let m1 := minc owned Ctr.energyUnattribNj (alone.sum + s.eRest)
  let mem := s.acts.filter (fun (x : Activity) => x.dom == 1)
  let a := lessStatic m1 (staticKey m1 16 550) s.eMem mem.isEmpty
  let m2 := chargeDomain a.1 a.2 mem
  let lk := s.acts.filter (fun (x : Activity) => x.dom == 2)
  let b := lessStatic m2 (staticKey m2 17 550) s.eLink lk.isEmpty
  chargeDomain b.1 b.2 lk

/-- Waits on ceilings, gating and shortened refresh are counted (R339, Table 11-13). -/
def countHolds (m : Mod) (s : PwrSample) : Mod :=
  let m1 := s.memHold.foldl (fun m e => pinc m (pn e.1) (Ctr.memHoldNs (e.2.1 % 3)) e.2.2) m
  let m2 := s.linkHold.foldl (fun m e => pinc m (pn e.1) (Ctr.linkHoldNs (e.2.1 % 5)) e.2.2) m1
  let m3 := s.gateNs.foldl (fun m e => pinc m (pn e.1) Ctr.pwrGateNs e.2) m2
  (bitsOf s.refresh 16).foldl (fun m d => minc m (Ctr.thermBerm d) 1) m3

-- Shifting power (R341, R342).

/-- A strip of a job waits or runs in a polder. -/
def jobActive (q : Polder) (job : Nat) : Bool :=
  q.passes.any (fun x => (x.job.isSome && x.jobId == job) ||
    (x.vec.elim false (fun z => z.tags.any (fun t => ((findTaken q t).map Taken.job) == some job))) || x.seqs.any (fun s =>
    s.ended.isNone && ((findTaken q s.req).map Taken.job) == some job))

/-- The module is a borrower (R341). -/
def borrower (m : Mod) : Bool :=
  (List.range 16).any (fun i =>
    let q := m.pol[pn i]
    q.composed && (match q.pw.lowSince with
      | some t => decide (t + 10000000 ≤ m.hvl)
      | none => false) && m.sys.pw.conf.crit.any (fun j => j != 0xFFFF && jobActive q j))

def mayShift (m : Mod) : Bool := m.sys.pw.conf.group != 0 && m.sys.pw.mode != 2 && timeLocked m

/-- A borrower asks its group, at most once per OFFER_MS; how much it asks for, within SHIFT_MAX_W, and its NONCE are open. -/
def askGroup (m : Mod) : Mod :=
  let x := m.sys.pw
  let room := x.conf.shiftMax - borrowedW m
  let due := match x.lastReq with
    | none => true
    | some t => decide (t + x.conf.offerMs * 1000000 ≤ m.hvl)
  if !(mayShift m && borrower m && due) || room == 0 then m
  else
    let w := Config.openNat m.free % room + 1
    let nonce := Config.openNat (m.free + 1) % 2 ^ 32
    let m1 := modPw { m with free := m.free + 2 } (fun x => { x with lastReq := some m.hvl, nonce := nonce })
    let y : PowerMsg := { kind := 1, group := x.conf.group, watts := w, offerMs := 0, nonce := nonce, src := selfId m, sendNs := 0 }
    (m.sys.disc.table.filter (fun (e : Announce) => e.valid && e.id != selfId m)).foldl (fun m (e : Announce) => send m e.id 0 0 (.power y)) m1

/-- Freeboard over the last 100 ms, in whole watts (R341). -/
def freeboard (m : Mod) : Nat :=
  let l := m.sys.pw.spare.map (·.2)
  if l.isEmpty then 0 else l.sum / l.length / 1000

/-- A REQUEST of the group is answered with what freeboard, SHIFT_MAX_W and FLOOR_W allow; the cap is lowered first (R341, Table 11-7 step 1). -/
def recvRequest (m : Mod) (src : Nat) (y : PowerMsg) : Mod :=
  let x := m.sys.pw
  let f := freeboard m
  let w := min (min (f - 10) (x.conf.shiftMax - lentW m)) (min y.watts (capEff m - floorW m))
  if !(mayShift m && y.kind == 1 && y.group == x.conf.group && decide (10 ≤ f)) || w == 0 then m
  else
    let m1 := capChanged (modPw m (fun x => { x with lent := x.lent ++ [{ watts := w, at_ := m.hvl + x.conf.offerMs * 1000000 }] }))
    send m1 src 0 0 (.power { kind := 2, group := x.conf.group, watts := w, offerMs := x.conf.offerMs, nonce := y.nonce, src := selfId m, sendNs := m.hvl })

/-- An OFFER raises the effective cap when it can be lowered again before D (R342, Table 11-7 step 2). -/
def recvPowerOffer (m : Mod) (y : PowerMsg) : Mod :=
  let x := m.sys.pw
  let d := y.sendNs + y.offerMs * 1000000 - 1000000
  let w := min y.watts (min (x.conf.shiftMax - borrowedW m) (capHigh m - capEff m))
  if !(mayShift m && y.kind == 2 && y.group == x.conf.group && y.nonce == x.nonce && x.lastReq.isSome && decide (m.hvl + y.watts * 50000 ≤ d)) || w == 0 then m
  else capChanged (modPw m (fun x => { x with borrowed := x.borrowed ++ [{ watts := w, at_ := d }] }))

/-- POWER_REQUEST. -/
def powerRequest (m : Mod) (src t : Nat) (y : PowerMsg) : Mod := deliver (tickHvl m t) src 0 0 0 0x0A (fun m => recvRequest (heard m src) src y)

/-- POWER_OFFER. -/
def powerOffer (m : Mod) (src t : Nat) (y : PowerMsg) : Mod := deliver (tickHvl m t) src 0 0 0 0x0A (fun m => recvPowerOffer (heard m src) y)

/-- OFFER_DEADLINE: borrowed watts fall by 20 W per ms so that they are gone by D (Table 11-7 step 3). The ramp is no sudden fall of the cap. -/
def offerDeadline (m0 : Mod) (t : Nat) : Mod :=
  let m := tickHvl m0 t
  let was := capEff m
  let fall (l : Loan) : Loan := { l with watts := min l.watts ((l.at_ - m.hvl) / 50000) }
  let m1 := modPw m (fun x => { x with borrowed := (x.borrowed.map fall).filter (fun (l : Loan) => l.watts != 0) })
  let drop := was - capEff m1
  if drop == 0 then m1
  else capChanged (modPw m1 (fun x => { x with capAt := x.capAt.map (fun (e : Nat × Nat) => (e.1, e.2 - drop)) }))

/-- OFFER_RETURN: lent watts come back OFFER_MS after the send (Table 11-7 step 4). -/
def offerReturn (m0 : Mod) (t : Nat) : Mod :=
  let m := tickHvl m0 t
  if m.sys.pw.lent.any (fun (l : Loan) => decide (l.at_ ≤ m.hvl)) then
    capChanged (modPw m (fun x => { x with lent := x.lent.filter (fun (l : Loan) => decide (m.hvl < l.at_)) }))
  else m

-- The rows of time and temperature.

/-- CONTROL_INTERVAL (R334 to R336, R343): changes apply, the mode is judged, energy is charged, budgets and paces are set, a borrower asks, and
dispatchers go on. The controller stands still while every management pair is silent. -/
def controlInterval (m0 : Mod) (s : PwrSample) (t : Nat) : Mod :=
  let m := tickHvl m0 t
  if m.sys.wd.coresWedged then m
  else
    let m1 := askGroup (countHolds (shareOut (chargeEnergy (modeStep (runBudgets m) s) s) s) s)
    (List.range 16).foldl (fun m i => if m.pol[pn i].composed then dispatch m (pn i) else m) m1

/-- A sensor's reading with its test offset (R451). -/
def sensorRead (m : Mod) (temps : List Int) (i : Nat) : Int := temps.getD i 0 + (m.sys.wd.sensorOff.get i).getD 0

/-- The junction maximum over the sensors that are not fenced (R338, Table 13-3); none when all are. -/
def junction (m : Mod) (temps : List Int) : Option Int :=
  ((List.range 36).filter (fun i => !fencedBit m.fence.sensor i)).foldl (fun (a : Option Int) i =>
    some (match a with
      | none => sensorRead m temps i
      | some v => max v (sensorRead m temps i))) none

/-- THERMAL_SAMPLE (R338): the junction is read and CLAMPED is entered at 105 °C; a departure from the operating range is recorded with ENV (R382),
with an open FAULT below 0 °C (log entry 42). The warden's tick `wt` at which it reached
110 °C is kept for R397. -/
def thermalSample (m0 : Mod) (temps : List Int) (t wt : Nat) : Mod :=
  let m := tickWd (tickHvl m0 t) wt
  let tj := (junction m temps).getD m.sys.pw.tj
  let leaves := decide (0 ≤ m.sys.pw.tj) && decide (m.sys.pw.tj ≤ 1050) && (decide (tj < 0) || decide (1050 < tj))
  let m0 := modPw m (fun x => { x with tj := tj, tjMax := max tj x.tjMax, tjAt := m.hvl })
  let m1 := if leaves then logFault m0 0x1F 0 (if tj < 0 then Config.openNat m.free % 256 else fThermHigh) 0 true tj.toNat else m0
  let m2 := modWd m1 (fun w => { w with
    hotSince := if 1100 ≤ tj then some (w.hotSince.getD w.ticks) else none
    thermHigh := w.thermHigh && decide (1100 ≤ tj) })
  if 1050 ≤ tj && m2.sys.pw.mode != 2 && !m2.sys.wd.coresWedged then enterClamped m2 else m2

/-- V_HI in force of every polder lowered by 25 mV, but not below 0.55 V, or raised by 25 mV, back to the configured value (R338). -/
def cutVhi (m : Mod) (hot : Bool) : Mod :=
  (List.range 16).foldl (fun m i => modPol m (pn i) (fun q => { q with pw := { q.pw with
    vhiCut := if hot then min (vHiSet m q - 550) (q.pw.vhiCut + 25) else q.pw.vhiCut - 25 } })) m

/-- THERM_VHI_STEP (R338): every 10 ms at or above TJ_SOFT, every 100 ms below TJ_SOFT − 3 °C. -/
def thermVhiStep (m0 : Mod) (t : Nat) : Mod :=
  let m := tickHvl m0 t
  let x := m.sys.pw
  let soft : Int := 10 * (x.conf.tjSoft : Int)
  let hot := decide (soft ≤ x.tj)
  if (hot && decide (x.cutAt + 10000000 ≤ m.hvl)) || (decide (x.tj < soft - 30) && decide (x.cutAt + 100000000 ≤ m.hvl)) then
    modPw (cutVhi m hot) (fun x => { x with cutAt := m.hvl })
  else m

/-- POWER_CLAMP's effect (R340): every VCORE domain at 0.55 V, strip issue gated, ceilings at the split of R335 at FLOOR_W, mode CLAMPED. -/
def powerClamp (m : Mod) : Mod :=
  let m1 := (List.range 16).foldl (fun m i => if m.pol[pn i].composed then
    modPol m (pn i) (fun q => { q with pw := { q.pw with vcore := 550 } }) else m) (enterClamped m)
  let (c, d, l) := prioritySplit m1 0 0
  modPw { m1 with free := m1.free + 1 } (fun x => { x with bComp := toMw c, bMem := toMw d, bLink := toMw l, beGate := true, gate := true, wdGate := true })

/-- PACE_UPDATE (R124): rates of the arrays of a polder's slice over the last 100 µs, and the polder's mean over those not fenced. -/
def paceUpdate (m0 : Mod) (p : Fin 16) (rates : List Nat) (t : Nat) : Mod :=
  let m := tickPol m0 p t
  if !m.pol[p].composed then m
  else
    let as := m.pol[p].arrayList.zipIdx
    let m1 := as.foldl (fun (m : Mod) (e : Nat × Nat) => { m with ctr := m.ctr.wr (Ctr.paceKhz e.1) (rates.getD e.2 0) }) m
    let live := (as.filter (fun (e : Nat × Nat) => !arrayFenced m e.1)).map (fun (e : Nat × Nat) => rates.getD e.2 0)
    modPol m1 p (fun q => { q with pw := { q.pw with pace := if live.isEmpty then 0 else live.sum / live.length, paceAt := m.hvl } })

/-- An accounting interval closes: every total is published in whole mJ (R346). -/
def publish (q : Polder) (at_ : Nat) : Polder :=
  let mj (v : Nat) : Nat := v / 1000000 * 1000000
  let nz (l : SMap Nat) : SMap Nat := SMap.sel l (fun _ (v : Nat) => v != 0)
  { q with pw := { q.pw with
      closeAt := at_
      pubJobs := nz (q.pw.jobs.map (fun (e : Nat × Nat) => (e.1, mj e.2)))
      pub := nz ((List.range 18).map (fun k => (Ctr.energyNj + 8 * k, mj (q.ctr.rd (Ctr.energyNj + 8 * k))))) } }

/-- ACCOUNTING_CLOSE (R346), every ACCT_MS of the polder's counter. -/
def accountingClose (m0 : Mod) (p : Fin 16) (t : Nat) : Mod :=
  let m := tickPol m0 p t
  let q := m.pol[p]
  let acct := q.pw.conf.acctMs * 1000000
  if !q.composed || acct == 0 || decide (q.clk < q.pw.closeAt + acct) then m
  else modPol m p (fun q => publish q (q.pw.closeAt + acct * ((q.clk - q.pw.closeAt) / acct)))

end Sys2Proof.Machine
end

