-- ==== Sys2Proof/Machine/Faults.lean ====
section
/-! DEFINITION. Faults of single units, what masks them, and the cofferdams that close over them (R381 to R389, Tables 13-2 and 13-3), with
what ends when a polder, an array, a device or a channel leaves. -/

namespace Sys2Proof.Machine

def modFence (m : Mod) (f : Fences → Fences) : Mod := { m with fence := f m.fence }

/-- A fence mask with a bit set or cleared: a write sets all copies (R437). -/
def maskBit (t : Tri Nat) (i : Nat) (b : Bool) : Tri Nat := Tri.mk1 (setBit t.orRead i b)

/-- How many units a type has, where a fence can close over one of them (Table 13-3); 0 otherwise. -/
def unitCount (ty : Nat) : Nat :=
  match ty with
  | 0x01 => 256 | 0x02 => 16 | 0x03 => 32 | 0x04 => 4 | 0x05 => 2 | 0x06 => 4 | 0x07 => 16 | 0x08 => 16 | 0x09 => 16 | 0x0A => 24 | 0x0C => 36
  | _ => 0

/-- A unit is inside a cofferdam. -/
def unitFenced (m : Mod) (ty i : Nat) : Bool :=
  let f := m.fence
  match ty with
  | 0x01 => arrayFenced m i
  | 0x02 => fencedBit f.berm i
  | 0x03 => fencedBit f.toe i
  | 0x04 => fencedBit f.link i
  | 0x05 => fencedBit f.link (4 + i)
  | 0x06 => fencedBit f.link (8 + i)
  | 0x07 => fencedBit f.units i
  | 0x08 => fencedBit f.units (16 + i)
  | 0x09 => fencedBit f.vdom i
  | 0x0A => fencedBit f.phase i
  | 0x0C => fencedBit f.sensor i
  | _ => false

/-- The fence mask of a unit's type with its bit set or cleared (Table 15-7). -/
def putFence (m : Mod) (ty i : Nat) (b : Bool) : Mod :=
  modFence m (fun f => match ty with
    | 0x01 => { f with array := maskBit f.array i b }
    | 0x02 => { f with berm := maskBit f.berm i b }
    | 0x03 => { f with toe := maskBit f.toe i b }
    | 0x04 => { f with link := maskBit f.link i b }
    | 0x05 => { f with link := maskBit f.link (4 + i) b }
    | 0x06 => { f with link := maskBit f.link (8 + i) b }
    | 0x07 => { f with units := maskBit f.units i b }
    | 0x08 => { f with units := maskBit f.units (16 + i) b }
    | 0x09 => { f with vdom := maskBit f.vdom i b }
    | 0x0A => { f with phase := maskBit f.phase i b }
    | 0x0C => { f with sensor := maskBit f.sensor i b }
    | _ => f)

-- Work that ends.

/-- Every command taken and not completed ends with a status; passes, jobs, waits and vector work are dropped without commit (R389, R495,
R500). GEN_STEP reports END 5 with ABORTED and END 6 otherwise (Table 07-2). -/
def stopPolder (m : Mod) (p : Fin 16) (st : Nat) : Mod :=
  let m0 := modPol m p (fun q => { q with passes := [], heldSeqs := [], front := [], arrays := [], releases := [] })
  let rs := m0.pol[p].reqs
  let m1 := (rs.filter (fun r => !r.running) ++ rs.filter Req.running).foldl (fun m r => finishReq m p r st (if st == stAborted then 5 else 6) 0) m0
  let m2 := vecAbort m1 p
  let m3 := m2.pol[p].jobs.foldl (fun m j => complete m p j.tag (jobRes j.done st)) m2
  let m4 := completeAll (modPol m3 p (fun q => { q with jobs := [] })) p (m3.pol[p].taken.map Taken.tag) (rSt st)
  modPol m4 p (fun q => { q with
    waits := [], memWaits := [], modelWaits := [], inWaits := [], reqs := [], ops := 0
    slots := q.slots.mapKV (fun _ s => { s with dropAtBoundary := false, closing := false, evictCrest := none }) })

/-- Passes of a polder that a lost unit leaves without a way to end: their sequences end with FENCED at a step boundary now. -/
def endPasses (m : Mod) (p : Fin 16) (which : Pass → Bool) : Mod :=
  ((m.pol[p].passes.filter (fun x => which x && x.job.isNone && x.vec.isNone)).map Pass.id).foldl (fun m id =>
    endDecodePass (modPass m p id (fun x => { x with
      seqs := x.seqs.map (fun s => if s.ended.isNone then { s with ended := some stFenced } else s) })) p id) m

/-- Jobs and queries whose strips can no longer run end with FENCED. -/
def endJobs (m : Mod) (p : Fin 16) (which : Job → Bool) : Mod :=
  ((m.pol[p].jobs.filter which).map Job.tag).foldl (fun m t =>
    endJob m p t stFenced) m

/-- With no array left every command that needs a strip completes with FENCED (Table 13-3). -/
def noArrays (m : Mod) (p : Fin 16) : Mod :=
  let m1 := endJobs (endPasses m p (fun _ => true)) p (fun _ => true)
  (m1.pol[p].passes.flatMap (fun x => x.vec.elim [] VecPass.tags)).foldl (fun m t => endQuery m p t stFenced) m1

/-- An array leaves its polder (Table 04-12, Table 05-9). -/
def arrayGone (m : Mod) (p : Fin 16) (a : Nat) : Mod :=
  let m1 := arrayLeaves m p a true
  let m2 := if (liveArrays m1 p).isEmpty then noArrays m1 p else m1
  kick m2 p ⟨[], []⟩

/-- The polder whose slice holds a unit. -/
def ownerPol (m : Mod) (ty i : Nat) : Option (Fin 16) :=
  let o := unitOwner m ty i
  if o < 16 && m.pol[pn o].composed then some (pn o) else none

def onOwner (m : Mod) (ty i : Nat) (f : Fin 16 → Mod → Mod) : Mod :=
  match ownerPol m ty i with
  | none => m
  | some p => f p m

/-- A page's frames on a fenced Berm device (Table 02-8): a copy that touches it ends with the page where it was, a clean Toe copy takes over,
and a page whose only copy was there is LOST. -/
def bermPage (d : Nat) (p : Fin 16) (m : Mod) (n : Nat) : Mod :=
  match getPage m p n with
  | none => m
  | some pg =>
    let src := pg.tier == .berm && pg.frame / 1048576 == d && pg.st != .zero && pg.st != .lost
    let oth := pg.oTier == .berm && pg.other / 1048576 == d
    let copying := pg.st == .promoting || pg.st == .demoting
    let m1 := if copying && (src || oth) then modPage (dropOther m p n) p n (fun g => { g with st := .resident, pre := [], forPage := none })
      else if oth then dropOther m p n else m
    if !src then m1
    else if !copying && pg.oTier == .toe then swing m1 p n
    else pageGone m1 p n

/-- The page-table pages of a polder on a fenced Berm device are gone with it; the entries that the engines hold are written to table pages on other
devices where Berm has room (R34, R43, Table 02-8, log entry 63). -/
def tablesGone (d : Nat) (p : Fin 16) (m : Mod) : Mod :=
  let m1 := modPol m p (fun q => { q with tables := q.tables.filter (fun e => e.2 / 1048576 != d) })
  (takeTables m1 p).toOption.getD m1

/-- The directory share of a fenced Berm device (R93): cached entries go to the refuge, others are fetched from the buddy, or lost without one. -/
def dirShareGone (m : Mod) (d : Nat) : Mod :=
  let share := (m.dir.filter (fun e => e.1 % 16 == d && e.2.own != .none &&
    !(List.range 16).any (fun i => m.pol[pn i].cache.any (fun c => c.1 == e.1)))).map (·.1)
  let new := share.filter (fun i => !m.refetch.contains i && !m.dirGone.contains i)
  if m.jr.buddy.isSome then { m with refetch := m.refetch ++ new } else { m with dirGone := m.dirGone ++ new }

def bermGone (m : Mod) (d : Nat) : Mod :=
  let m1 := onOwner m 0x02 d (fun p m =>
    let m1 := modPol m p (fun q => { q with sec := { q.sec with sweep := q.sec.sweep.filter (fun c => !(c.tier == .berm && c.frame / 1048576 == d)) } })
    kick (tablesGone d p ((m1.pol[p].pages.map (·.1)).foldl (bermPage d p) m1)) p ⟨[], []⟩)
  dirShareGone m1 d

/-- The unfenced management pairs. -/
def livePairs (m : Mod) : List Nat := (List.range 4).filter (fun i => !unitFenced m 0x06 i)

/-- The pair that serves a mailbox and the rings of its polder (R388). -/
def servedBy (m : Mod) (box : Nat) : Nat := (m.sys.wd.pairs.get box).getD (Config.pairOf box % 4)

def boxOf (i : Nat) : Box := if i < 16 then .pol (pn i) else .mgmt

/-- A mailbox and its rings leave a fenced pair: what has not committed completes with RETRY, and they move to the unfenced pair that serves the
fewest (R388). -/
def moveBox (m : Mod) (i : Nat) : Mod :=
  let b := boxOf i
  let waits := m.sys.pw.cmds.any (fun c => c.1 == b)
  let m1 := modPw m (fun x => { x with cmds := x.cmds.filter (fun c => c.1 != b) })
  let x := getMbx m1 b
  let m2 := if x.busy && (!x.started || waits) then mbxDone m1 b stRetry 0 else m1
  let m3 := if i < 16 then
      completeAll m2 (pn i) ((m2.pol[pn i].taken.filter (fun t => !t.started)).map Taken.tag) (rSt stRetry) else m2
  let load (k : Nat) : Nat := ((List.range 17).filter (fun j => servedBy m3 j == k)).length
  match (livePairs m3).foldl (fun (best : Option Nat) k => match best with
      | none => some k
      | some j => if load k < load j then some k else some j) none with
  | none => m3
  | some k => modWd m3 (fun w => { w with pairs := w.pairs.put i k })

def pairGone (m : Mod) (k : Nat) : Mod := ((List.range 17).filter (fun i => servedBy m i == k)).foldl moveBox m

-- Polder fences (R389).

/-- A polder's queued and stamped units leave the ports (R389, Table 10-7). -/
def unitsLeave (m : Mod) (p : Fin 16) : Mod :=
  (List.range 4).foldl (fun m k =>
    let k' : Fin 4 := ⟨k % 4, Nat.mod_lt k (by decide)⟩
    let po := m.net.ports[k']
    let n := (po.queue.filter (fun f => f.pol == p.val)).length + (po.cands.filter (fun (e : Nat × Cand) => e.2.fr.pol == p.val)).length
    minc (modPort m k' (fun po => { po with
      queue := po.queue.filter (fun f => f.pol != p.val), cands := po.cands.filter (fun (e : Nat × Cand) => e.2.fr.pol != p.val) }))
      (Ctr.discardFence k) n) m

/-- A cofferdam closes around a polder (R389). A POLDER_COMPOSE of it that is waiting completes with FENCED (Table 13-12). While every management pair is
silent nothing completes. -/
def fencePolder (m : Mod) (p : Fin 16) : Mod :=
  let x := m.front.mbx
  let compose := x.busy && !x.started && x.runCmd % 256 == 0x81 && fld x.runArg 0 0 4 == p.val
  if !m.pol[p].composed then (if compose then mbxDone m .mgmt stFenced 0 else m)
  else if m.pol[p].fenced then m
  else
    let m1 := modFence (modPol m p (fun q => { q with fenced := true })) (fun f => { f with polder := maskBit f.polder p.val true })
    let m2 := logFault (unitsLeave (pinc m1 p Ctr.polderFences 1) p) 0x1F p.val fFenceCmd 5 false 0
    if m.sys.wd.coresWedged then modPol m2 p (fun q => { q with passes := [], arrays := [] }) else stopPolder m2 p stFenced

-- Module seal (R390).

/-- NOTICE to the buddy on every unfenced culvert port whose link is up, three times (R472). -/
def sendNotice (fz : Fuses) (m : Mod) (kind : Nat) : Mod :=
  match m.jr.buddy with
  | none => m
  | some b =>
    let ports := (List.range 4).filter (fun k =>
      bit ((m.net.board.map Board.culvertPorts).getD 0) k && !fencedBit m.fence.link k && m.net.ports[(⟨k % 4, Nat.mod_lt k (by decide)⟩ : Fin 4)].up)
    let x := kind % 256 + at8 8 (fz.serial % 2 ^ 64)
    let h : CulHead := { ftype := 2, lane := 0, keygen := none, src := selfId m, srcPol := 0, dst := b, dstPol := 0, ty := 0 }
    ports.foldl (fun m k => (List.range 3).foldl (fun m _ => emit m (.notice k b (headBytes h false false 0 0 0 0 16 x) x)) m) m

/-- The seal area that holds the newest valid image: 0 A, 1 B. -/
def newestArea (w : Warden) : Option Nat :=
  let a := (w.sealA.filter SealImage.valid).map SealImage.num
  let b := (w.sealB.filter SealImage.valid).map SealImage.num
  match a, b with
  | none, none => none
  | some _, none => some 0
  | none, some _ => some 1
  | some x, some y => some (if y < x then 0 else 1)

def sealArea (w : Warden) (k : Nat) : Option SealImage := if k == 0 then w.sealA else w.sealB
def putSeal (w : Warden) (k : Nat) (s : Option SealImage) : Warden := if k == 0 then { w with sealA := s } else { w with sealB := s }

/-- The area a seal writes: the one that does not hold the newest valid image. -/
def sealTarget (w : Warden) : Nat := if newestArea w == some 0 then 1 else 0

/-- An activation not yet at its commit point is abandoned: slot A's header is erased (R503). -/
def dropActivation (m : Mod) : Mod :=
  match m.sys.fw.act with
  | none => m
  | some a => if a.step < 3 then modFw m (fun f => { f with act := none, req := none, slotA := none }) else modFw m (fun f => { f with act := none })

/-- One step of Table 13-4. -/
def sealStep (fz : Fuses) (kind : Nat) (m : Mod) (n : Nat) : Mod :=
  let w := m.sys.wd
  let k := sealTarget w
  match n with
  | 1 => (List.range 16).foldl (fun m i => fencePolder m (pn i)) (dropActivation m)
  | 2 => sendNotice fz m kind
  | 3 =>
    let num := ((w.sealA.map SealImage.num).getD 0) + ((w.sealB.map SealImage.num).getD 0) + 1
    let img : SealImage :=
      { num := num, dir := m.dir.filter (fun e => e.2.own != .none),
        asked := (List.finRange 16).flatMap (fun p => m.pol[p].ck.restores.map (fun (r : Restore) => (r.idx, r.asked))),
        recs := m.jr.q.map (fun (x : JSent) => (x.idx, x.r)), log := w.log, valid := false }
    modWd m (fun w => { putSeal w k (some img) with copied := w.log })
  | 4 => modWd m (fun w => { putSeal w k ((sealArea w k).map (fun (s : SealImage) => { s with valid := true })) with toeDirty := false })
  | _ => modWd (minc m Ctr.seals 1) (fun w => { w with sealed := true, sealing := none })

/-- A seal runs on to a step (R390), its NOTICE of a kind; it starts when none is under way, and a sealed module seals no more. -/
def sealTo (fz : Fuses) (kind : Nat) (m : Mod) (n : Nat) : Mod :=
  if m.sys.wd.sealed then m
  else
    let done := m.sys.wd.sealing.getD 0
    ((List.range 5).map (fun i => i + 1)).foldl (fun m k =>
      if done < k && k ≤ n then sealStep fz kind (modWd m (fun w => { w with sealing := some k })) k else m) m

/-- A module fault (R384): firmware has the warden seal, unless every management pair is silent. -/
def moduleFault (fz : Fuses) (m : Mod) (ty i fault : Nat) (detail : Block) : Mod :=
  let m1 := logFault m ty i fault 7 false detail
  if m.sys.wd.coresWedged then m1 else sealTo fz 1 m1 5

/-- CORES_WEDGED is set: the warden waits for AUTO_SEAL or a command (R384). -/
def setWedged (m : Mod) : Mod :=
  if m.sys.wd.coresWedged then m
  else logFault (modWd m (fun w => { w with coresWedged := true, wedgedAt := w.ticks })) 0x06 0 fCoresWedged 0 false 0

-- Closing and opening cofferdams (R385 to R388).

/-- A perturbation armed at a unit that is fenced is gone (R452). -/
def dropArms (m : Mod) : Mod :=
  modWd m (fun w => { w with arms := w.arms.filter (fun x => !(match x.kind, x.target with
    | 1, 0 => false
    | 1, 2 => unitFenced m 0x02 x.unit
    | 3, _ => unitFenced m 0x06 x.unit
    | _, _ => unitFenced m 0x01 x.unit)) })

/-- A cofferdam closes over a unit that is not inside one (Table 13-3). -/
def closeFence (fz : Fuses) (m : Mod) (ty i : Nat) : Mod :=
  let m1 := dropArms (putFence m ty i true)
  match ty with
  | 0x01 => onOwner m1 ty i (fun p m => arrayGone m p i)
  | 0x02 => bermGone m1 i
  | 0x03 => loseUnits (movePending m1 i) (deadUnits m1 none)
  | 0x04 => ptpPortGone (portLeaves m1 ⟨i % 4, Nat.mod_lt i (by decide)⟩) i
  | 0x05 => if unitFenced m1 0x05 (1 - i) then moduleFault fz m1 ty i fLinkCrc 0 else m1
  | 0x06 => if (livePairs m1).isEmpty then setWedged m1 else pairGone m1 i
  | 0x07 => if m1.pol[pn i].composed then kick (endPasses m1 (pn i) (fun _ => true)) (pn i) ⟨[], []⟩ else m1
  | 0x08 =>
    if m1.pol[pn i].composed then
      let m2 := endPasses m1 (pn i) (fun x => !x.fromCrest)
      let streams (j : Job) : Bool := !((m2.pol[pn i].slots.get j.slot).map Slot.fromCrest).getD false
      kick (endJobs m2 (pn i) streams) (pn i) ⟨[], []⟩
    else m1
  | 0x09 => onOwner m1 ty i (fun p m => (List.range 16).foldl (fun m k => arrayGone m p (16 * i + k)) m)
  | 0x0A => capChanged (minc m1 Ctr.phaseFaults 1)
  | _ => m1

/-- A fault that ends in a fence: logged with ACTION 4, then the cofferdam closes, unless it is closed already. -/
def faultFence (fz : Fuses) (m : Mod) (ty i fault : Nat) (detail : Block) : Mod :=
  if unitCount ty ≤ i || unitFenced m ty i then m
  else closeFence fz (logFault m ty i fault 4 false detail) ty i

/-- FENCE_UNIT (R386). -/
def fenceUnit (fz : Fuses) (m : Mod) (b : Box) : Mod := mbxRow m b 0x8D (fun a m =>
  let ty := fld a 0 0 8
  let i := fld a 2 0 16
  if unitCount ty ≤ i || (ty == 0x06 && !unitFenced m ty i && (livePairs m).length ≤ 1) then mbxDone m b stBadCmd 0
  else if unitFenced m ty i then mbxDone m b stOk 0
  else mbxDone (faultFence fz m ty i fFenceCmd 0) b stOk (at8 16 1))

/-- A unit rejoins its slice, empty (R387): a Toe channel with its blocks free, an array that its VCORE domain feeds. -/
def rejoin (m : Mod) (ty i : Nat) : Mod :=
  let m1 := putFence m ty i false
  match ty with
  | 0x03 => judgeWear (modChan m1 i (fun c => { c with
      waiting := []
      blks := c.blks.mapKV (fun _ (b : FlashBlk) => if b.retired || !b.used then b else
        { b with reads := 0, pe := b.pe + 1, marked := false, suspect := false, used := false, age := 0 }) })) i
  | 0x06 => modWd m1 (fun w => { w with silent := setBit w.silent i false })
  | 0x0A => m1
  | _ => onOwner m1 ty i (fun p m => kick m p ⟨[], []⟩)

/-- The self-test of a fenced unit and what follows it; an array whose VCORE domain is off cannot pass. -/
def selfTest (m : Mod) (ty i : Nat) (pass : Bool) : Bool × Mod :=
  if !unitFenced m ty i then (true, m)
  else if !pass || (ty == 0x01 && fencedBit m.fence.vdom (i / 16)) then (false, logFault m ty i fSelftest 0 false 0)
  else (true, rejoin m ty i)

/-- UNFENCE_UNIT (R387); `pass` says whether the unit's self-test passes. -/
def unfenceUnit (m : Mod) (b : Box) (pass : Bool) : Mod := mbxRow m b 0x8E (fun a m =>
  let ty := fld a 0 0 8
  let i := fld a 2 0 16
  if unitCount ty ≤ i || ty == 0x0A || ((ownerPol m ty i).map (fun p => m.pol[p].fenced)).getD false then mbxDone m b stBadCmd 0
  else
    let was := unitFenced m ty i
    let (ok, m1) := selfTest m ty i pass
    if ok then mbxDone m1 b stOk (at8 16 (b2n was)) else mbxDone m1 b stFenced 0)

-- Detection (Table 13-2).

/-- Error instants of a unit within a window, with this one. -/
def noteError (m : Mod) (key window : Nat) : Nat × Mod :=
  let l := m.hvl :: ((m.sys.wd.recent.get key).getD []).filter (fun t => decide (m.hvl < t + window))
  (l.length, modWd m (fun w => { w with recent := w.recent.put key l }))

def errKey (kind ty i : Nat) : Nat := (kind * 256 + ty) * 1024 + i

/-- A fault met by an armed perturbation of its kind and unit uses it up, and TST_INJECTED counts it (R451). -/
def spend (m : Mod) (hit : Arm → Bool) : Mod :=
  if m.sys.wd.arms.any hit then
    modWd m (fun w => { w with arms := w.arms.eraseP hit, tstInjected := (w.tstInjected + 1) % 2 ^ 32 })
  else m

def armHit (kind target unit : Nat) (double : Bool) (x : Arm) : Bool :=
  x.kind == kind && x.target == target && x.double == double && x.unit == unit

/-- RESIDUE_MISMATCH (R145): one recomputation masks it, or fences the array when `again` the tile mismatches. -/
def residueMismatch (fz : Fuses) (m : Mod) (a : Nat) (again : Bool) : Mod :=
  if 256 ≤ a || arrayFenced m a then m
  else
    let m1 := minc (spend m (armHit 0 0 a false)) (Ctr.resFault a) 1
    if again then faultFence fz (minc m1 (Ctr.resFault a) 1) 0x01 a fResidue 0
    else logFault (minc m1 (Ctr.resRetryOk a) 1) 0x01 a fResidue 1 false 0

/-- HANDSHAKE_STALL (R146): the tiles are reissued; the array is fenced when its self-test fails or it stalls again in the same step. -/
def handshakeStall (fz : Fuses) (m : Mod) (p : Fin 16) (a : Nat) (pass : Bool) : Mod :=
  match m.pol[p].arrays.get a with
  | none => m
  | some sl => match sl.run with
    | none => m
    | some key =>
      if arrayFenced m a || m.pol[p].fenced then m
      else
        let repeat_ := sl.stalled == some key.pass
        let m1 := arrayLeaves (minc (spend m (armHit 2 0 a false)) (Ctr.hsStall a) 1) p a false
        let m2 := modPol m1 p (fun q => { q with arrays := q.arrays.upd a (fun s => { s with stalled := some key.pass }) })
        if !pass || repeat_ then faultFence fz m2 0x01 a fHsStall 0
        else dispatch (logFault m2 0x01 a fHsStall 3 false 0) p

/-- FABRIC_PORT_ERROR: one resend masks it; a second on the port within 1 ms fences the array there. -/
def fabricPortError (fz : Fuses) (m0 : Mod) (a t : Nat) : Mod :=
  let m := tickHvl m0 t
  if 256 ≤ a || arrayFenced m a then m
  else
    let (n, m1) := noteError m (errKey 1 0x01 a) 1000000
    if 2 ≤ n then faultFence fz m1 0x01 a fResidue 0 else logFault m1 0x01 a fResidue 2 false 0

/-- FABRIC_WEDGE: FAB_WEDGED is set at the warden's tick `wt`, and the warden acts by R384. -/
def fabricWedge (m0 : Mod) (t wt : Nat) : Mod :=
  let m := tickWd (tickHvl m0 t) wt
  if m.sys.wd.fabWedged then m
  else logFault (modWd m (fun w => { w with fabWedged := true, wedgedAt := w.ticks })) 0x15 0 fFabWedged 0 false 0

/-- ACT_STORE_ECC: corrected, or the strip is reissued and rows computed again (R177); a second uncorrectable word within 1 s fences the array. -/
def actStoreEcc (fz : Fuses) (m0 : Mod) (a t : Nat) (uncorr : Bool) (detail : Block) : Mod :=
  let m := if arrayFenced m0 a then tickHvl m0 t else spend (tickHvl m0 t) (armHit 1 1 a uncorr)
  if 256 ≤ a || arrayFenced m a then m
  else if !uncorr then logFault (minc m (Ctr.eccCorr (3 + a)) 1) 0x01 a fEccCorr 1 false detail
  else
    let (n, m1) := noteError (minc m (Ctr.eccUncorr (3 + a)) 1) (errKey 2 0x01 a) 1000000000
    if 2 ≤ n then faultFence fz m1 0x01 a fEccUncorr detail
    else onOwner (logFault m1 0x01 a fEccUncorr 3 false detail) 0x01 a (fun p m => dispatch (arrayLeaves m p a true) p)

/-- CREST_ECC: corrected and written back; an uncorrectable word of a page is recovered by R66, one of the descriptor cache is taken from Berm again. -/
def crestEcc (m0 : Mod) (die : Nat) (uncorr : Bool) (page : Option (Fin 16 × Nat)) (detail : Block) : Mod :=
  let m := if 4 ≤ die then m0 else spend m0 (fun x => x.kind == 1 && x.target == 0 && x.double == uncorr)
  if 4 ≤ die then m
  else if !uncorr then logFault (minc m (Ctr.eccCorr 0) 1) 0x0B die fEccCorr 1 false detail
  else
    let m1 := logFault (minc m (Ctr.eccUncorr 0) 1) 0x0B die fEccUncorr 1 false detail
    match page with
    | none => m1
    | some (p, n) => match getPage m1 p n with
      | none => m1
      | some pg => if pg.tier == .crest then tierReadFail m1 p n 0 false false else m1

/-- CREST_SCRUB: one full pass every 4 s of the warden's oscillator (R383). -/
def crestScrub (m0 : Mod) (t wt : Nat) : Mod :=
  let m := tickWd (tickHvl m0 t) wt
  if !wdPassed m m.sys.wd.scrubAt 4000000000 then m
  else modWd (minc m Ctr.crestScrubPasses 1) (fun w => { w with scrubAt := w.ticks })

/-- CREST_DIE_FAULT: a module fault. -/
def crestDieFault (fz : Fuses) (m : Mod) (die : Nat) : Mod := if 4 ≤ die then m else moduleFault fz m 0x0B die fEccUncorr 0

/-- BERM_ECC: corrected by ECC, or by the one re-read, or recovered by R66. -/
def bermEcc (m0 : Mod) (d t : Nat) (uncorr again : Bool) (page : Option (Fin 16 × Nat)) (detail : Block) : Mod :=
  let m := if unitFenced m0 0x02 d then tickHvl m0 t else spend (tickHvl m0 t) (armHit 1 2 d uncorr)
  if 16 ≤ d || unitFenced m 0x02 d then m
  else if !uncorr then logFault (minc m (Ctr.eccCorr 1) 1) 0x02 d fEccCorr 1 false detail
  else if again then logFault m 0x02 d fEccUncorr 2 false detail
  else
    let (_, m1) := noteError (minc m (Ctr.eccUncorr 1) 1) (errKey 3 0x02 d) 1000000000
    let m2 := logFault m1 0x02 d fEccUncorr 0 false detail
    match page with
    | none => m2
    | some (p, n) => match getPage m2 p n with
      | none => m2
      | some pg => if pg.tier == .berm && pg.frame / 1048576 == d then tierReadFail m2 p n 0 false false else m2

/-- BERM_DEVICE_FAULT: 4 uncorrectable reads within 1 s (cause 0), an access that timed out (1), or a failed training check (2). -/
def bermDeviceFault (fz : Fuses) (m0 : Mod) (d cause t : Nat) : Mod :=
  let m := tickHvl m0 t
  let reads := (((m.sys.wd.recent.get (errKey 3 0x02 d)).getD []).filter (fun x => decide (m.hvl < x + 1000000000))).length
  match cause with
  | 0 => if 4 ≤ reads then faultFence fz m 0x02 d fEccUncorr 0 else m
  | 1 => faultFence fz m 0x02 d fTimeout 0
  | _ => faultFence fz m 0x02 d fSelftest 0

/-- BERM_TRAINING_CHECK: every 100 ms of the warden's oscillator (R383); devices of `bad` fail and are fenced. -/
def bermTrainingCheck (fz : Fuses) (m0 : Mod) (t wt bad : Nat) : Mod :=
  let m := tickWd (tickHvl m0 t) wt
  if !wdPassed m m.sys.wd.trainAt 100000000 then m
  else (bitsOf bad 16).foldl (fun m d => faultFence fz m 0x02 d fSelftest 0) (modWd m (fun w => { w with trainAt := w.ticks }))

/-- TOE_CHANNEL_FAULT: a command timed out (cause 0), 64 reconstructions within 1 s (1), or a scan-engine mismatch (2). -/
def toeChannelFault (fz : Fuses) (m : Mod) (ch cause : Nat) : Mod :=
  match cause with
  | 0 => faultFence fz m 0x03 ch fTimeout 0
  | 1 => faultFence fz m 0x03 ch fEccUncorr 0
  | _ => faultFence fz m 0x03 ch fDup 0

/-- LOCKSTEP_MISMATCH (R388): the pair is fenced and what it served moves; the last pair leaves the module without one. -/
def lockstepMismatch (fz : Fuses) (m : Mod) (k : Nat) : Mod :=
  if 4 ≤ k || unitFenced m 0x06 k then m
  else faultFence fz (minc (spend m (armHit 3 0 k false)) (Ctr.lockstepMismatch k) 1) 0x06 k fLockstep 0

/-- HEARTBEAT_LOSS: a pair silent at the warden's tick `wt` is fenced; when every pair is silent CORES_WEDGED is set. -/
def heartbeatLoss (fz : Fuses) (m0 : Mod) (k t wt : Nat) : Mod :=
  let m := tickWd (tickHvl m0 t) wt
  if 4 ≤ k || unitFenced m 0x06 k then m
  else faultFence fz (modWd m (fun w => { w with silent := setBit w.silent k true })) 0x06 k fTimeout 0

/-- AUTO_SEAL (R384): 100 ms after CORES_WEDGED or FAB_WEDGED on the warden's oscillator, when WMB_CONF asks for it. -/
def autoSeal (fz : Fuses) (m0 : Mod) (t wt : Nat) : Mod :=
  let m := tickWd (tickHvl m0 t) wt
  let w := m.sys.wd
  if bit (w.conf.read (fun _ _ _ => 1)) 0 && (w.coresWedged || w.fabWedged) && wdPassed m w.wedgedAt 100000000 && w.sealing.isNone then
    sealTo fz 1 m 5
  else m

/-- DUP_MISMATCH: one retry masks it; a second within 1 ms fences a sampler unit or pump and is a module fault in an engine. -/
def dupMismatch (fz : Fuses) (m0 : Mod) (ty i t : Nat) : Mod :=
  let m := tickHvl m0 t
  let engine := decide (0x10 ≤ ty) && decide (ty ≤ 0x14) && i == 0
  let unit := (ty == 0x07 || ty == 0x08) && decide (i < 16) && !unitFenced m ty i
  if !(engine || unit) then m
  else
    let (n, m1) := noteError (minc m (Ctr.dupMismatch ty) 1) (errKey 4 ty i) 1000000
    if n < 2 then logFault m1 ty i fDup 2 false 0
    else if unit then faultFence fz m1 ty i fDup 0 else moduleFault fz m1 ty i fDup 0

/-- PHASE_FAULT: the phase is switched off, and the highest cap falls by 18 W. -/
def phaseFault (fz : Fuses) (m : Mod) (i : Nat) : Mod := faultFence fz m 0x0A i fPhase 0

/-- VCORE_DOMAIN_FAULT: the domain is off and its 16 arrays are fenced with it. -/
def vcoreDomainFault (fz : Fuses) (m : Mod) (g : Nat) : Mod := faultFence fz m 0x09 g fPhase 0

/-- HVL_LANE_CRC: link replay recovers the packet. -/
def hvlLaneCrc (m : Mod) (half : Nat) : Mod := if 2 ≤ half || unitFenced m 0x05 half then m else logFault m 0x05 half fLinkCrc 1 false 0

/-- HVL_LANE_LOSS: the link runs at ×8 on the other half; both halves lost are a module fault. -/
def hvlLaneLoss (fz : Fuses) (m : Mod) (half : Nat) : Mod := faultFence fz m 0x05 half fLinkCrc 0

/-- ETH_PORT_FAULT. -/
def ethPortFault (fz : Fuses) (m : Mod) (k : Nat) : Mod := faultFence fz m 0x04 k fLinkCrc 0

/-- SENSOR_IMPLAUSIBLE: the sensor is left out of the maximum. -/
def sensorImplausible (fz : Fuses) (m : Mod) (i : Nat) (detail : Block) : Mod := faultFence fz m 0x0C i fSensor detail

/-- OSC_CHECK (R393): the length of the warden's tick in ps against the HVL counter, every 10 ms; beyond ±5 % it is logged and later records carry ENV. -/
def oscCheck (m0 : Mod) (t tickPs : Nat) : Mod :=
  let m := tickHvl m0 t
  if m.hvl < m.sys.wd.oscAt + 10000000 then m
  else
    let drift := decide (40 * tickPs < 19 * 1953125) || decide (21 * 1953125 < 40 * tickPs)
    let m1 := modWd m (fun w => { w with oscAt := m.hvl, tickPs := tickPs })
    if drift then modWd (logFault m1 0x1F 0 fOsc 0 false 0) (fun w => { w with oscBad := true }) else modWd m1 (fun w => { w with oscBad := false })

/-- FAULT_LOG_COPY (R399): every 1 s a live management pair copies the new records into the Toe module reserve. -/
def faultLogCopy (m0 : Mod) (t : Nat) : Mod :=
  let m := tickHvl m0 t
  if m.sys.wd.coresWedged || m.sys.wd.sealed || decide (m.hvl < m.sys.wd.copyAt + 1000000000) then m
  else modWd m (fun w => { w with copied := w.log, copyAt := m.hvl })

end Sys2Proof.Machine
end

