-- ==== Sys2Proof/Machine/Warden.lean ====
section
/-! DEFINITION. The warden's mailbox and its commands (R393 to R397, Table 13-8) but WARM_RESET, and what the warden does on its own. -/

namespace Sys2Proof.Machine

def modWmb (m : Mod) (f : Wmb → Wmb) : Mod := modWd m (fun w => { w with mbx := f w.mbx })

/-- A warden command's row: the accepted command of this opcode runs on its argument, once. -/
def wdRow (m : Mod) (opcode : Nat) (f : Block → Mod → Mod) : Mod :=
  let x := m.sys.wd.mbx
  if x.busy && !x.started && x.runCmd % 256 == opcode then f x.runArg (modWmb m (fun x => { x with started := true })) else m

/-- The end of a warden command: RES, STATUS, BUSY 0 and DONE 1, and management vector 516 (R425). -/
def wdDone (m : Mod) (status : Nat) (res : Block) : Mod :=
  mgmtIrq (modWmb m (fun x => { x with res := res, status := status, busy := false, done := true, started := false })) 4

/-- Over SMBus a non-zero HOST is refused (R395). -/
def hostBad (m : Mod) (host : Nat) : Bool := m.sys.wd.mbx.src && host != 0

/-- A result goes to HOST, or to the result buffer when HOST is 0 (R395). -/
def wdOut (m : Mod) (host len : Nat) (b : WBuf) : Mod := if host == 0 then modWd m (fun w => { w with buf := b }) else emit m (.host host len (bufBytes b))

/-- FAULT_LOG_READ (R396). -/
def faultLogRead (m : Mod) : Mod := wdRow m 0xC0 (fun a m =>
  let host := fld a 8 0 64
  let max' := if fld a 16 0 32 == 0 then 256 else fld a 16 0 32
  let l := m.sys.wd.log.reverse
  let oldest := (l.head?.map FaultRec.seq).getD m.sys.wd.nextSeq
  let start := max (fld a 0 0 64) oldest
  let sel := (l.filter (fun (r : FaultRec) => decide (start ≤ r.seq))).take max'
  if 256 < max' || hostBad m host then wdDone m stBadCmd 0
  else wdDone (wdOut m host (64 * sel.length) (.faults sel)) stOk
    (sel.length + at8 8 (((sel.getLast?.map (fun (r : FaultRec) => r.seq + 1)).getD start) % 2 ^ 64) + at8 16 (oldest % 2 ^ 64)))

/-- POLDER_FENCE (R389). -/
def polderFence (m : Mod) : Mod := wdRow m 0xC1 (fun a m =>
  let m1 := (bitsOf (fld a 0 0 16) 16).foldl (fun m i => fencePolder m (pn i)) m
  wdDone m1 stOk (m1.fence.polder.orRead % 65536))

/-- POWER_CLAMP (R340). -/
def powerClampCmd (m : Mod) : Mod := wdRow m 0xC2 (fun _ m =>
  let m1 := powerClamp m
  wdDone m1 stOk (floorW m1))

/-- MODULE_SEAL (R390) up to a step of Table 13-4; it completes with the last. A sealed module's seal stands. -/
def moduleSeal (fz : Fuses) (m : Mod) (step : Nat) : Mod :=
  let x := m.sys.wd.mbx
  if !(x.busy && x.runCmd % 256 == 0xC3) then m
  else
    let m1 := sealTo fz 1 (modWmb m (fun x => { x with started := true })) step
    if m1.sys.wd.sealed then
      let k := (newestArea m1.sys.wd).getD 0
      wdDone m1 stOk ((((sealArea m1.sys.wd k).map (fun (s : SealImage) => s.dir.length)).getD 0) + at8 4 k)
    else m1

/-- IDENTITY_QUOTE (R360). -/
def identityQuoteCmd (fz : Fuses) (m : Mod) : Mod := wdRow m 0xC4 (fun a m =>
  let host := fld a 8 0 64
  if fld a 16 0 32 < 7688 || hostBad m host then wdDone m stBadCmd 0
  else
    let (q, m1) := signQuote m (dikSeed fz) (identityQuote fz m (fld a 32 0 256))
    wdDone (wdOut m1 host 7688 (.quote q)) stOk (at8 16 7688))

/-- WARDEN_THERM_CLAMP (R397): 110 °C held for 1 ms on the warden's oscillator. -/
def wardenThermClamp (m0 : Mod) (t wt : Nat) : Mod :=
  let m := tickWd (tickHvl m0 t) wt
  match m.sys.wd.hotSince with
  | none => m
  | some s =>
    if !wdPassed m s 1000000 || m.sys.wd.thermHigh then m
    else modWd (powerClamp (logFault m 0x1F 0 fThermHigh 6 true m.sys.pw.tj.toNat)) (fun w => { w with thermHigh := true })

/-- THERM_TRIP (R397): the seal, then every VCORE domain and the Berm and Toe PHYs off; THERMTRIP_L follows the seal (R514). -/
def thermTrip (fz : Fuses) (m : Mod) : Mod :=
  if m.sys.wd.thermTrip || decide (m.sys.pw.tj < 1150) then m
  else
    let m1 := modWd (logFault m 0x1F 0 fThermTrip 7 true m.sys.pw.tj.toNat) (fun w => { w with thermTrip := true })
    let m2 := sealTo fz 3 m1 5
    modPins ((List.range 16).foldl (fun m i => modPol m (pn i) (fun q => { q with pw := { q.pw with vcore := 0 } })) m2) (fun p => { p with tripLow := true, bermRate := [] })

end Sys2Proof.Machine
end

