-- ==== Sys2Proof/Machine/Blank.lean ====
section
/-! DEFINITION. The values every part holds right after reset, before anything is composed: the register reset columns of chapters 13 to 15, the
defaults of Tables 03-8, 06-5, 09-5 and 11-5, and zero where the spec gives none (log entry 1). -/

namespace Sys2Proof.Machine

def masksNone : Masks := { arr := 0, crest := 0, berm := 0, toe := 0 }

/-- Recall parameters by default (Table 06-5). -/
def recallDefault : Recall := { sink := 4, probe := 8, window := 64, pages := 256, deadlineUs := 2000 }

def dikeNone : Dike := { ceil := 0, lcReserve := 0, pinMax := 0, heatPromote := 0, coolEn := false, direct := false, coolMs := 0 }

/-- Dikes of a composed polder by default (R56, R50). -/
def dikeDefault (t : Tier) (frames : Nat) : Dike :=
  { ceil := frames, lcReserve := 0, pinMax := if t == .toe then 0 else frames / 2, heatPromote := if t == .crest then 24 else 0,
    coolEn := t != .toe, direct := true, coolMs := match t with
      | .crest => 50
      | .berm => 30000
      | _ => 0 }

/-- A polder's power settings by default; WEIGHT is its granules (Table 11-5). -/
def pwConfDefault (granules : Nat) : PolPwrConf := { policy := 0, weight := granules, vLo := 550, vHi := 850, vSet := 600, acctMs := 100 }

def polPwrBlank : PolPwr :=
  { conf := { policy := 0, weight := 0, vLo := 0, vHi := 0, vSet := 0, acctMs := 100 }, vcore := 0, vhiCut := 0, pace := 0, paceAt := 0, stripAt := none,
    lowSince := none, jobs := [], pubJobs := [], pub := [], closeAt := 0 }

def ckStateBlank : CkState :=
  { store := ckStoreEmpty, repl := [], conf := ckConfDefault, jobs := [], ins := [], restores := [], streams := [], due := [] }

/-- A polder that is not composed and holds nothing. -/
def polderBlank : Polder :=
  { composed := false, sealed := false, fenced := false, tenant := 0, ethPorts := 0, masks := Tri.mk1 masksNone, lcArrays := 0, beStripHs := 32768,
    recallCfg := recallDefault, clk := 0, heatMs := 8, nextHeat := 0, dCrest := dikeNone, dBerm := dikeNone, dToe := dikeNone, pages := [], sess := [],
    imports := [], waits := [], memWaits := [], slots := [], arrays := [], passes := [], nextPass := 0, lastJob := 0, front := [], heldSeqs := [],
    modelWaits := [], drbg := Drbg.blank, jobs := [], reqs := [], releases := [], sqs := Vector.replicate 16 Sq.blank,
    cqs := Vector.replicate 16 Cq.blank, rrNext := 0, ops := 0, taken := [], events := [], mbx := Mbx.blank, pintEn := 0, ctr := [], hold := [],
    short := 0, keyEpoch := 0, cache := [], inWaits := [], xfers := [], claims := [], ck := ckStateBlank, vec := Vec.empty, sec := PolSec.blank,
    resetting := false, rst := none, diss := none, pw := polPwrBlank, polic := Vector.replicate 6 Policer.off, refill := 0, wts := [], tables := [], toeRr := 0, tks := [] }

/-- Ownership parameters by default (Table 03-8). -/
def ownDefault : OwnParams := { leaseMs := 2000, guardMs := 100, peerDeadMs := 250, degradeMs := 10, adopt := List.range 16 }

def journalBlank : Journal :=
  { buddy := none, down := false, resentTo := none, downAt := 0, lastAck := 0, waitSince := 0, next := 0, block := 0, q := [], acts := [], lag := 0 }

/-- No cofferdam is closed (Table 15-7). -/
def fencesNone : Fences :=
  { polder := Tri.mk1 0, array := Tri.mk1 0, berm := Tri.mk1 0, toe := Tri.mk1 0, link := Tri.mk1 0, units := Tri.mk1 0, vdom := Tri.mk1 0,
    phase := Tri.mk1 0, sensor := Tri.mk1 0 }

/-- The management front end (Tables 14-1, 15-4, 15-5, 15-13, 15-15). -/
def frontReset (profile : Nat) : Front :=
  { profile := Tri.mk1 profile, stage := 1, ready := false, mbxReady := false, modId := none, xdTimeout := 0, intEn := 0, snapNum := 0, hold := [],
    cmpShadow := 0, cmpLatches := 0, privMap := Tri.mk1 0, mbx := Mbx.blank }

/-- The FTL's own state with no channel enumerated; limits are the defaults of R74 and R75. -/
def ftlBlank : Ftl :=
  { chans := [], units := [], rows := [], nextRow := 0, rr := 0, rdLimit := 100000, retentionDays := 60, op := 0, clean := false }

def netBlank : Net :=
  { board := none, ports := Vector.replicate 4 Port.blank, rr := 0, lanes := [], arbs := [], held := [], rx := [] }

/-- Module power settings by default (Table 11-5). -/
def pwrConfDefault : PwrConf :=
  { fracC := 55, fracM := 30, fracL := 15, tjSoft := 100, vLo := 550, vHi := 850, group := 0, shiftMax := 0, offerMs := 100,
    crit := List.replicate 8 0xFFFF }

/-- The power controller: FRACTION, with CAP_W 420 and FLOOR_W 120 (Table 15-6). -/
def pwrReset : Pwr :=
  { mode := 0, caps := Tri.mk1 0x007801A4, conf := pwrConfDefault, cmds := [], later := [], lent := [], borrowed := [], capAt := [],
    overN := 0, calm := 0, msAt := 0, cutAt := 0, inMw := 0, compMw := 0, memMw := 0, linkMw := 0, fixedMw := 0, bComp := 0, bMem := 0,
    bLink := 0, beGate := false, gate := false, wdGate := false, spare := [], static := [], tj := 0, tjMax := 0, tjAt := 0, vin := 0, iin := 0, lastReq := none,
    nonce := 0 }

/-- The warden mailbox (Table 13-5). -/
def wmbReset : Wmb :=
  { cmd := 0, arg := 0, busy := false, done := false, status := 0, tag := 0, src := false, dropped := 0, res := 0, dwin := 0, runCmd := 0, runArg := 0,
    started := false }

/-- The warden: WMB_STATE reads 1 (VIN_GOOD) and WMB_CONF reads 1 (Table 13-5); the length of a tick is not measured yet (R393). -/
def wardenReset : Warden :=
  { mbx := wmbReset, conf := Tri.mk1 1, buf := .empty, log := [], nextSeq := 1, copied := [], copyAt := 0, vinGood := true, coresWedged := false,
    fabWedged := false, bootFail := false, sealed := false, thermHigh := false, thermTrip := false, wedgedAt := 0, hotSince := none, ticks := 0,
    tickPs := 0, oscBad := false, oscAt := 0, recent := [], sealing := none, sealA := none, sealB := none, toeDirty := false, silent := 0,
    pairs := [], arms := [], tstIgnored := 0, tstInjected := 0, sensorReg := 0, sensorOff := [], scrubAt := 0, trainAt := 0, trAt := 0 }

/-- Time parameters; STEP_NS defaults to 100,000 ns (R461), though TRF_STEP_NS resets to 0 (Table 15-8) until start-up sets it. -/
def timeReset : TimeState := { conf := 0, stepNs := 0, lastSeq := none, sync := [] }

def discReset : Disc :=
  { table := [], up := none, due := none, anchor := 0, asked := none, tries := 0, fresh := [], tickAt := 0, relays := [], forward := [], fixed := false }

def pinsReset : Pins :=
  { failing := false, off := false, mrst := false, hvlRst := false, smbAddr := 0, wp := 0, test := 0, hvlGen := 0, bermRate := [], smbOff := 0,
    tripLow := false }

def fwNone : FwState := { slotA := none, slotB := none, staged := none, running := none, act := none, req := none, vault := [] }

def bootNone : BootState :=
  { prov := none, ident := 0, fmtNonce := 0, formatted := false, crestFail := false, saved := none, mirror := [] }

def sysReset : Sys :=
  { fw := fwNone, pw := pwrReset, wd := wardenReset, time := timeReset, disc := discReset, pins := pinsReset, boot := bootNone }

/-- The module with nothing in it. -/
def modBlank : Mod :=
  { working := false, hvl := 0, front := frontReset 0, fence := fencesNone, dir := [], sidNext := 0, jr := journalBlank, own := ownDefault, peers := [],
    ftl := ftlBlank, net := netBlank, entropyOk := true, pol := Vector.replicate 16 polderBlank, ctr := [], refetch := [], dirGone := [], out := [],
    free := 0, sys := sysReset }

end Sys2Proof.Machine
end

