-- ==== Sys2Proof/Machine/Compose.lean ====
section
/-! DEFINITION. Composition and dissolution of polders: POLDER_COMPOSE (R409, R494), the profiles and PROFILE_SELECT (R490 to R493), POLDER_DISSOLVE
(R495) and POLDER_RESET (R500). -/

namespace Sys2Proof.Machine

/-- The masks of a POLDER_COMPOSE argument (Table 14-6). -/
def argMasks (a : Block) : Masks := { arr := fld a 2 0 16, crest := fld a 8 0 64, berm := fld a 4 0 16, toe := fld a 6 0 16 }

/-- The masks of a saved polder. -/
def SavedPol.masks (s : SavedPol) : Masks := argMasks s.arg

def savedPols (m : Mod) : SMap SavedPol := (m.sys.boot.saved.map Saved.pols).getD []

/-- A polder that is saved but not composed holds its slice and its pages (R492, R495). -/
def heldPol (m : Mod) (i : Nat) : Bool := !m.pol[pn i].composed && (savedPols m).has i

/-- The slice another polder holds, composed or saved. -/
def slicesOf (m : Mod) (i : Nat) : Masks :=
  if m.pol[pn i].composed then m.pol[pn i].slice
  else ((savedPols m).get i).elim masksNone SavedPol.masks

def overlap (x y : Masks) : Bool :=
  x.arr &&& y.arr != 0 || x.crest &&& y.crest != 0 || x.berm &&& y.berm != 0 || x.toe &&& y.toe != 0

/-- A mask that names what another polder holds, or nothing but fenced units (R409). -/
def masksBad (m : Mod) (p : Fin 16) (x : Masks) : Bool :=
  x.arr == 0 || x.crest == 0 || x.berm == 0 ||
  (List.range 16).any (fun i => i != p.val && overlap x (slicesOf m i)) ||
  (bitsOf x.arr 16).any (fun g => (List.range 16).all (fun k => arrayFenced m (16 * g + k))) ||
  (bitsOf x.berm 16).any (fun d => fencedBit m.fence.berm d) ||
  (bitsOf x.toe 16).any (fun k => fencedBit m.fence.toe (2 * k) && fencedBit m.fence.toe (2 * k + 1))

/-- A scheduling or recall parameter out of the range of Table 05-7 or 06-5. -/
def paramsBad (a : Block) : Bool :=
  (flg a 0 5 && (decide (16 * popcount (fld a 2 0 16) 16 < fld a 20 0 16) || decide (fld a 24 0 32 < 4096) || decide (1048576 < fld a 24 0 32))) ||
  (flg a 0 6 && (decide (16 < fld a 28 0 8) || fld a 29 0 8 == 0 || decide (64 < fld a 29 0 8) || fld a 30 0 16 == 0 || decide (256 < fld a 30 0 16) ||
    decide (1024 < fld a 32 0 16) || decide (fld a 34 0 16 < 100) || decide (50000 < fld a 34 0 16)))

/-- The cases in which POLDER_COMPOSE composes nothing (R409, R357). -/
def composeBad (fz : Fuses) (m : Mod) (p : Fin 16) (a : Block) : Bool :=
  m.pol[p].composed || masksBad m p (argMasks a) || paramsBad a || (flg a 0 4 && (fld a 40 0 64 == 0 || !fz.debugLock))

/-- A rebuilt object's page that lay in Crest or Berm is placed there again as a home page; Crest falls back to Berm (R518). -/
def placeKept (m : Mod) (p : Fin 16) (n : Nat) : Mod :=
  match getPage m p n with
  | none => m
  | some pg =>
    if pg.st != .zero || pg.tier == .none then m
    else
      let f := match (if pg.tier == .crest then takeFrame m p .crest else none) with
        | some (f, m1) => some (Tier.crest, f, m1)
        | none => (takeFrame m p .berm).map (fun (x : Nat × Mod) => (Tier.berm, x.1, x.2))
      match f with
      | some (t, f, m1) => settleAt m1 p n t f
      | none => modPage m p n (fun g => { g with tier := .none })

/-- The pages, indexes and stores of a polder that is not composed leave it (R377, R493, R495). -/
def releaseHeld (m : Mod) (p : Fin 16) : Mod :=
  let m1 := releasePages m p (m.pol[p].pages.map (·.1))
  modPol m1 p (fun q => { q with vec := Vec.empty, ck := { q.ck with store := ckStoreEmpty, repl := [] } })

/-- The keys a polder starts with (R363, R494): those of its vault entry where its saved record has the same masks, locked while a sealed one has not
met R377; otherwise a fresh key at KEY_EPOCH 1. -/
def composeKeys (m : Mod) (p : Fin 16) (same : Bool) : Mod :=
  match (if same then m.sys.fw.vault.get p.val else none) with
  | some v =>
    if v.sealed then
      let (r, m1) := takeKeyPair m
      modPol m1 p (fun q => { q with keyEpoch := v.epoch, sec := { q.sec with keysel := Tri.mk1 0, key0 := r, key1 := 0, locked := true } })
    else modPol m p (fun q => { q with keyEpoch := v.epoch, sec := { q.sec with keysel := Tri.mk1 v.keysel, key0 := v.key0, key1 := v.key1 } })
  | none =>
    let (r, m1) := takeKeyPair m
    vaultWrite (modPol m1 p (fun q => { q with keyEpoch := 1, sec := { q.sec with keysel := Tri.mk1 0, key0 := r, key1 := 0 } })) p

/-- A polder composed from an argument (R494, R56, R320, Table 11-5): what survived of it (R518) is mapped anew; its parameters start at their defaults,
its counters at zero. Descriptors in transfer are cached (R91). Its counter runs on, its rings and its mailbox stay as they were written, and its holding registers keep the last snapshot (R447). -/
def composeWith (m : Mod) (p : Fin 16) (a : Block) (tenant : Nat) : Mod :=
  let x := argMasks a
  let isSealed := flg a 0 4
  let g := popcount x.arr 16
  let same := ((savedPols m).get p.val).elim false (fun (s : SavedPol) => s.masks == x && flg s.arg 0 4 == isSealed && s.tenant == tenant)
  let m0 := if same then m else modFw (releaseHeld m p) (fun f => { f with vault := f.vault.del p.val })
  let m1 := modPol m0 p (fun q =>
    { polderBlank with
      composed := true, sealed := isSealed, tenant := tenant, ethPorts := fld a 1 0 4, masks := Tri.mk1 x
      lcArrays := if flg a 0 5 then fld a 20 0 16 else 0
      beStripHs := if flg a 0 5 then fld a 24 0 32 else 32768
      recallCfg := if flg a 0 6 then
          { sink := fld a 28 0 8, probe := fld a 29 0 8, window := fld a 30 0 16, pages := fld a 32 0 16, deadlineUs := fld a 34 0 16 }
        else recallDefault
      clk := q.clk, nextHeat := q.clk + 8000000, refill := q.clk / 1000, pages := q.pages, vec := q.vec, hold := q.hold
      sqs := q.sqs, cqs := q.cqs, rrNext := q.rrNext, mbx := q.mbx
      ck := { ckStateBlank with store := q.ck.store, repl := q.ck.repl }
      pw := { polPwrBlank with conf := pwConfDefault g, vcore := 550, closeAt := q.clk }
      wts := (List.range 9).map (fun k => (k, g)) })
  let m2 := modPol m1 p (fun q => { q with
    dCrest := dikeDefault .crest (sliceFrames m1 q .crest), dBerm := dikeDefault .berm (sliceFrames m1 q .berm)
    dToe := dikeDefault .toe (sliceFrames m1 q .toe) })
  let m3 := composeKeys m2 p same
  let m4 := if isSealed then
      let (r, m) := takeRandom m3
      modPol m p (fun q => { q with sec := { q.sec with kem := r } })
    else m3
  let m5 := (takeTables (reseed m4 p) p).toOption.getD m4
  let m6 := storeGauge ((m5.pol[p].pages.map (·.1)).foldl (fun m n => placeKept m p n) m5) p
  (m6.dir.filter (fun e => e.2.pol == p.val && busyOwn e.2)).foldl (fun m e => cacheInstall m p e.1) m6

/-- POLDER_COMPOSE (R409, R494); `tenant` is the TENANT_DIGEST read from companion memory. The saved record is written. -/
def polderCompose (fz : Fuses) (m : Mod) (b : Box) (tenant : Nat) : Mod := mbxRow m b 0x81 (fun a m =>
  let p := pn (fld a 0 0 4)
  if composeBad fz m p a then mbxDone m b stBadCmd 0
  else mbxSaved (composeWith m p a (if flg a 0 4 then tenant else 0)) b 0)

/-- A saved polder composed from its record (R492): its argument, then the settings of Table 17-7. Policers start disabled (R316) with the settings that
were kept; weights are those kept. -/
def composeSaved (m : Mod) (i : Nat) (s : SavedPol) : Mod :=
  let p := pn i
  let m1 := composeWith m p s.arg s.tenant
  let sv := m.sys.boot.saved
  let pol := (sv.bind (fun (c : Saved) => c.polic.get i)).getD []
  let wts := sv.bind (fun (c : Saved) => c.wts.get i)
  modPol m1 p (fun q => { q with
    dCrest := s.crest, dBerm := s.berm, dToe := s.toe, heatMs := s.heatMs, ck := { q.ck with conf := s.ck }, pw := { q.pw with conf := s.pw }
    polic := Vector.ofFn (fun (k : Fin 6) => { Policer.off with set := { (pol.getD k.val PolSet.off) with en := false } })
    wts := wts.getD q.wts })

-- Profiles.

/-- The default polders of a profile with their masks (Table 17-6). -/
def profileDefault (profile : Nat) : List (Nat × Masks) :=
  match profile with
  | 0 => (List.range 16).map (fun p => (p, { arr := 1 <<< p, crest := 0xF <<< (4 * p), berm := 1 <<< p, toe := 1 <<< p }))
  | 1 => (List.range 4).map (fun q => (q, { arr := 0xF <<< (4 * q), crest := 0xFFFF <<< (16 * q), berm := 0xF <<< (4 * q), toe := 0xF <<< (4 * q) }))
  | 2 => [(0, { arr := 0x0FFF, crest := 0x0000FFFFFFFFFFFF, berm := 0x00FF, toe := 0x000F }),
          (1, { arr := 0xF000, crest := 0xFFFF000000000000, berm := 0xFF00, toe := 0xFFF0 })]
  | _ => [(0, { arr := 0xFFFF, crest := 0xFFFFFFFFFFFFFFFF, berm := 0xFFFF, toe := 0xFFFF })]

/-- The POLDER_COMPOSE argument of a default polder: ETH_PORTS 0xF, not sealed, every parameter at its default (R490). -/
def defaultArg (p : Nat) (x : Masks) : Block :=
  at8 0 p + at8 1 0xF + at8 2 x.arr + at8 4 x.berm + at8 6 x.toe + at8 8 x.crest

/-- The defaults of a profile composed; a polder whose slice a fence leaves without what R409 asks is left out. -/
def composeDefaults (fz : Fuses) (m : Mod) (profile : Nat) : Mod :=
  (profileDefault profile).foldl (fun m e =>
    let a := defaultArg e.1 e.2
    if composeBad fz m (pn e.1) a then m else composeWith m (pn e.1) a 0) m

/-- Stage 13 and PROFILE_SELECT: each saved polder that is not sealed is composed from its record; sealed ones stay uncomposed (R492). -/
def composeAllSaved (m : Mod) : Mod :=
  (savedPols m).foldl (fun m e =>
    if flg e.2.arg 0 4 || m.pol[pn e.1].composed then m else composeSaved m e.1 e.2) m

/-- Held pages and records of every saved polder go (R493). -/
def dropSaved (m : Mod) : Mod :=
  let m1 := (savedPols m).foldl (fun m e => modFw (modPol (releaseHeld m (pn e.1)) (pn e.1) (fun q =>
    { polderBlank with clk := q.clk, hold := q.hold })) (fun f => { f with vault := f.vault.del e.1 })) m
  modBoot m1 (fun b => { b with saved := none })

/-- PROFILE_SELECT (R493). XD_MODE follows the profile in force (R434). -/
def profileSelect (fz : Fuses) (m : Mod) (b : Box) : Mod := mbxRow m b 0x80 (fun a m =>
  let pr := fld a 0 0 2
  if (List.range 16).any (fun i => m.pol[pn i].composed || m.pol[pn i].diss.isSome) then mbxDone m b stBusy 0
  else
    let setProfile (m : Mod) : Mod := { m with front := { m.front with profile := Tri.mk1 pr } }
    let m1 := if (m.sys.boot.saved.map Saved.profile) == some pr then composeAllSaved (setProfile m)
      else composeDefaults fz (setProfile (dropSaved m)) pr
    mbxSaved m1 b (at8 16 pr))

-- Dissolution and reset.

/-- Frames queued and policers: the polder's units leave the ports, and its candidates every arbiter (Table 10-7). -/
def leaveTraffic (m : Mod) (p : Fin 16) : Mod :=
  let m1 := unitsLeave m p
  { m1 with net := { m1.net with arbs := m1.net.arbs.map (fun (e : Nat × Arb) => (e.1, { e.2 with fin := e.2.fin.del p.val })) } }

/-- POLICER_SET commands that wait for the polder's next refill end with ABORTED: the policers are disabled (Table 10-7). -/
def policersOff (m : Mod) (p : Fin 16) : Mod :=
  let waits := m.front.mbx.busy && m.front.mbx.started && m.front.mbx.runCmd % 256 == 0x8B && fld m.front.mbx.runArg 0 0 4 == p.val
  let m1 := if waits then mbxDone m .mgmt stAborted 0 else m
  modPol m1 p (fun q => { q with polic := q.polic.map (fun x => { x with set := { x.set with en := false }, pending := none }) })

/-- Step 2 of Tables 17-10 and R495: passes are gone, ACTIVE sessions are PARKED, imports discarded, restores and checkpoints in progress abandoned. -/
def settleSessions (m : Mod) (p : Fin 16) : Mod :=
  let act := (m.dir.filter (fun e => e.2.pol == p.val && e.2.own == .owned && e.2.life == .active)).map (·.1)
  let m1 := act.foldl (fun m i => changeDesc (modSess m p i (fun s => { s with reviving := false, revPaused := false })) i
    (fun d => { d with life := .parked })) m
  let m2 := m1.pol[p].imports.foldl (fun m (i : Import) => discardImport m p i.sid (rSt stAborted) (some stAborted)) m1
  let m3 := m2.pol[p].ck.restores.foldl (fun m (r : Restore) => restoreAbandon m p r.idx stAborted) m2
  m3.pol[p].ck.jobs.foldl (fun m (j : CkJob) => ckAbandon m p j.ck.sid (rSt stAborted)) m3

/-- A session ends with its polder: FREE is journaled and its entry freed. -/
def freeSession (m : Mod) (p : Fin 16) (idx : Nat) : Mod :=
  match desc? m idx with
  | none => m
  | some d =>
    let m1 := journalFree m idx d
    freeDesc (modPol m1 p (fun q => { q with sess := q.sess.del idx, xfers := q.xfers.filter (fun x => x.idx != idx) })) p idx

/-- A polder still has a lease that POLDER_DISSOLVE waits for (R495, Table 03-9). -/
def leasesLeft (m : Mod) (p : Fin 16) : Bool := m.dir.any (fun e => e.2.pol == p.val && e.2.own == .pendingOut)

/-- Steps 3 and 4 of R495: FREE for every session, every page released, keys and vault entries zeroized, the saved record erased, the slices freed. -/
def dissolveEnd (m : Mod) (p : Fin 16) : Mod :=
  let own := (m.dir.filter (fun e => e.2.pol == p.val && e.2.own != .none)).map (·.1)
  let m1 := own.foldl (fun m i => freeSession m p i) m
  let m2 := wipeKeys (releaseHeld (leaveTraffic (policersOff m1 p) p) p) p
  let m3 := modPol m2 p (fun q =>
    let fin := if q.composed then publish q q.clk else q
    { polderBlank with clk := fin.clk, hold := fin.hold, mbx := fin.mbx, ctr := fin.ctr })
  modBoot (modFence m3 (fun f => { f with polder := maskBit f.polder p.val false })) (fun b => { b with saved := b.saved.map (fun (s : Saved) => { s with pols := s.pols.del p.val, polic := s.polic.del p.val, wts := s.wts.del p.val }) })

/-- A POLDER_RESET or POLDER_DISSOLVE of the polder is running. -/
def polderBusy (m : Mod) (p : Fin 16) : Bool := m.pol[p].rst.isSome || m.pol[p].diss.isSome

/-- POLDER_DISSOLVE (R495): steps 1 and 2; it goes on when the last PENDING_OUT lease has ended. -/
def polderDissolve (m : Mod) (b : Box) : Mod := mbxRow m b 0x82 (fun a m =>
  let p := pn (fld a 0 0 4)
  if polderBusy m p then mbxDone m b stBusy 0
  else if !m.pol[p].composed then
    if heldPol m p.val then mbxDone (dissolveEnd m p) b stOk 0 else mbxDone m b stBadCmd 0
  else
    let m1 := settleSessions (stopPolder m p stAborted) p
    if leasesLeft m1 p then modPol m1 p (fun q => { q with resetting := true, diss := some b })
    else mbxDone (dissolveEnd m1 p) b stOk 0)

/-- A dissolution that waits goes on once no PENDING_OUT lease is left (R495). -/
def dissolveGo (m : Mod) (p : Fin 16) : Mod :=
  match m.pol[p].diss with
  | none => m
  | some b => if leasesLeft m p then m else mbxDone (dissolveEnd m p) b stOk 0

/-- Every dissolution that waits, after a step that may have ended a lease. -/
def dissolveAll (m : Mod) : Mod := (List.finRange 16).foldl dissolveGo m

/-- The fenced units of a polder's slice, by type and index. -/
def fencedUnits (m : Mod) (p : Fin 16) : List (Nat × Nat) :=
  let s := m.pol[p].slice
  (bitsOf s.arr 16).map (fun g => (0x09, g)) ++ (bitsOf s.arr 16).flatMap (fun g => (List.range 16).map (fun k => (0x01, 16 * g + k))) ++
  (bitsOf s.berm 16).map (fun d => (0x02, d)) ++ (bitsOf s.toe 16).flatMap (fun k => [(0x03, 2 * k), (0x03, 2 * k + 1)]) ++ [(0x07, p.val), (0x08, p.val)]

/-- One step of Table 17-10. `good` names the fenced units that pass their self-test. -/
def resetStep (b : Box) (p : Fin 16) (good : List (Nat × Nat)) (m : Mod) (n : Nat) : Mod :=
  match n with
  | 1 =>
    let k := m.pol[p].taken.length
    modPol (stopPolder m p stAborted) p (fun q => { q with resetting := true, rst := some ⟨b, 1, k⟩ })
  | 2 => settleSessions m p
  | 3 => ((m.pol[p].slots).map (·.1)).foldl (fun m k => freeSlot m p k) m
  | 4 =>
    if !m.pol[p].sealed then m
    else
      let own := (m.dir.filter (fun e => e.2.pol == p.val && e.2.own != .none && e.2.own != .pendingOut)).map (·.1)
      releaseHeld (wipeKeys (own.foldl (fun m i => freeSession m p i) m) p) p
  | 5 =>
    let m1 := (fencedUnits m p).foldl (fun m u => (selfTest m u.1 u.2 (good.contains u)).2) m
    modPol (modFence m1 (fun f => { f with polder := maskBit f.polder p.val false })) p (fun q => { q with fenced := false })
  | _ =>
    let ab := (m.pol[p].rst.map RstRun.aborted).getD 0
    let m1 := leaveTraffic (policersOff m p) p
    let m2 := modPol m1 p (fun q =>
      let q' := publish q q.clk
      { q' with
        ctr := [], pintEn := 0, resetting := false, rst := none
        wts := (List.range 9).map (fun k => (k, popcount q'.slice.arr 16))
        pw := { q'.pw with jobs := [], pubJobs := [], pub := [] } })
    let m4 := if m2.pol[p].sealed then
        let (r, m) := takeRandom (composeKeys m2 p false)
        modPol m p (fun q => { q with sec := { q.sec with kem := r } })
      else m2
    mbxDone (modPol (reseed m4 p) p (fun q => { q with ctr := [] })) b stOk (at8 16 (ab % 2 ^ 32))

/-- POLDER_RESET (R500, Table 17-10) up to a step; a row for the same mailbox goes on where the last one stopped. -/
def polderReset (m : Mod) (b : Box) (step : Nat) (good : List (Nat × Nat)) : Mod :=
  let x := getMbx m b
  let p := pn (fld x.runArg 0 0 4)
  let run (m : Mod) (from_ : Nat) : Mod :=
    ((List.range 6).map (fun i => i + 1)).foldl (fun m k =>
      if from_ < k && k ≤ max 1 step then
        resetStep b p good (modPol m p (fun q => { q with rst := q.rst.map (fun (r : RstRun) => { r with step := k }) })) k
      else m) m
  match m.pol[p].rst with
  | some r => if r.box == b && x.busy && x.started && x.runCmd % 256 == 0x83 then run m r.step else
      mbxRow m b 0x83 (fun _ m => mbxDone m b stBusy 0)
  | none => mbxRow m b 0x83 (fun a m =>
      let p := pn (fld a 0 0 4)
      if polderBusy m p then mbxDone m b stBusy 0
      else if !m.pol[p].composed then mbxDone m b stBadCmd 0
      else run m 0)

end Sys2Proof.Machine
end

