-- ==== Sys2Proof/Machine/Start.lean ====
section
/-! DEFINITION. Start-up (R481 to R489, R498, R499): what a reset leaves, secure boot (R354 to R356, R503), FTL mount and format (R83, R488), the
restored directory (R391, R392), and the fourteen stages. -/

namespace Sys2Proof.Machine

-- What survives (Table 17-9, R518).

/-- A list after a power loss (R269): what had committed is present, everything else absent. -/
def listKept (y : VList) : VList :=
  let first := (y.upds.find? (fun u => u.kind == .ins || u.kind == .build)).map VUpd.first
  { y with next := first.getD y.next }

/-- An index after a reset: nothing is in flight; its log names committed changes only; it is not rebuilt yet. -/
def indexKept (x : VIndex) : VIndex :=
  { x with
    old := [], alls := [], dropping := none, rebuilt := false
    log := x.log.filter (fun e => let y := listOf x e.list
      if e.insert then decide (e.last < y.next) else decide (e.ver ≤ y.ver)) }

/-- A store after a reset (R300): committed checkpoints, and the chunks their records name, with their counts. -/
def storeKept (s : CkStore) : CkStore :=
  let ds := (s.cks.flatMap Ck.recs).map CkRec.digest
  { s with
    chunks := (s.chunks.map (fun c => { c with refs := (ds.filter (fun d => d == c.digest)).length })).filter (fun c => decide (0 < c.refs))
    rebuilt := false }

/-- A page of an object that survives: one in Toe stays where its unit was acknowledged; one in Crest or Berm is built again when its polder is
composed; everything else is freed (R82, R518). -/
def pageKept (units : SMap ToeUnit) (pg : Page) : Option Page :=
  let lives := match pg.owner with
    | .index _ _ => true
    | .rerank _ => true
    | .store _ => true
    | _ => false
  if !lives then none
  else
    let clean : Page :=
      { pg with pin := false, heat := 0, cool := 0, wgen := 0, dirty := false, oTier := .none, other := 0, oEpoch := 0, sample := 0, copied := 0
                pre := [], forPage := none }
    if pg.tier == .toe then (if pg.st == .lost || (SMap.get units pg.frame).isSome then some { clean with st := if pg.st == .lost then .lost else .resident } else none)
    else if pg.tier == .none then some clean
    else some { clean with st := .zero, frame := 0 }

/-- A polder as a reset leaves it: not composed, with what its own logs keep. Its counter runs on through a warm reset. -/
def polderKept (units : SMap ToeUnit) (q : Polder) (cold : Bool) : Polder :=
  { polderBlank with
    clk := if cold then 0 else q.clk
    pages := q.pages.filterMap (fun e => (pageKept units e.2).map (fun g => (e.1, g)))
    vec := { Vec.empty with idx := q.vec.idx.map (fun (e : Nat × VIndex) => (e.1, indexKept e.2)) }
    ck := { ckStateBlank with
      store := storeKept { q.ck.store with
        begins := q.ck.store.begins.filter (fun b => !q.ck.jobs.any (fun j => !j.beginAcked && j.ck.sid == b.1 && j.ck.seq == b.2.1)) }
      repl := q.ck.repl.map (fun (e : Nat × CkStore) => (e.1, storeKept e.2)) } }

/-- Pages of tails, sealed segments and tombstones that no list names any more. -/
def strayPages (q : Polder) : List Nat :=
  q.vec.idx.flatMap (fun e =>
    let ls := e.2.lists.map (·.2)
    let named := ls.flatMap (fun (y : VList) => y.sealed.map VSeg.page ++ y.tail.map VSeg.page ++ y.tombPage.toList)
    (objPages q e.1 objSealed ++ objPages q e.1 objTail ++ objPages q e.1 objTomb).filter (fun n => !named.contains n))

/-- The map units a mount finds (R82, R83 step 5): acknowledged ones, and the old contents of those whose rewrite was not. -/
def unitsMounted (us : SMap ToeUnit) : SMap ToeUnit :=
  us.filterMap (fun e => if e.2.acked then some (e.1, { e.2 with old := none })
    else e.2.old.map (fun o => (e.1, { e.2 with ch := o.ch, blk := o.blk, row := o.row, acked := true, old := none })))

/-- Stores and index logs give up the pages that what they kept no longer needs (R300, R269, R518). -/
def surplusGone (m : Mod) (p : Fin 16) : Mod :=
  m.pol[p].vec.idx.foldl (fun m e => logTrim m p e.1 (fun _ => false)) (shrinkStore (shrinkStore m p .toe) p .berm)

/-- Vector work in flight ends without commit, then each polder keeps what survives. -/
def poldersKept (m : Mod) (cold : Bool) : Mod :=
  let m0 := (List.finRange 16).foldl (fun m p => modPol m p (fun q => { q with
    vec := { q.vec with idx := q.vec.idx.map (fun (e : Nat × VIndex) => (e.1, { e.2 with lists := e.2.lists.mapKV (fun _ y => listKept y) })) } })) m
  (List.finRange 16).foldl (fun m p =>
    let m1 := vecAbort m p
    surplusGone (modPol (releasePages m1 p (strayPages m1.pol[p])) p (fun q => polderKept (unitsMounted m.ftl.units) q cold)) p) m0

/-- The FTL at a mount: acknowledged units of pages that are kept; every other Toe unit is free (R82, R518). After a cold start the HVL counter begins
again, and the blocks keep the powered time their data had (R75). -/
def unitsKept (m : Mod) (cold : Bool) : Mod :=
  let used := (List.finRange 16).flatMap (fun p => (m.pol[p].pages.filter (fun e => e.2.tier == .toe)).map (fun e => e.2.frame))
  let units := (unitsMounted m.ftl.units).filter (fun e => used.contains e.1)
  let rows := (m.ftl.rows.map (fun r => { r with units := r.units.filter (fun u => ((SMap.get units u).map ToeUnit.row) == some r.id) })).filter
    (fun r => !r.units.isEmpty)
  let aged (b : FlashBlk) : FlashBlk := if cold then { b with age := b.age + (m.hvl - b.since), since := 0 } else b
  { m with ftl := { m.ftl with
    units := units, rows := rows
    chans := m.ftl.chans.mapKV (fun _ c => { c with blks := c.blks.mapKV (fun _ b => aged b), waiting := [] }) } }

/-- The fault log a start begins with: the copied records after a cold start, with SEQ going on from them; the warden's own after a warm reset (R399,
Table 17-9). A warm reset ends SEALED, BOOT_FAIL, the wedged states and THERM_TRIP. -/
def wardenKept (w : Warden) (cold : Bool) : Warden :=
  if cold then { wardenReset with
    log := w.copied, nextSeq := (w.copied.head?.map (fun (r : FaultRec) => r.seq + 1)).getD 1, copied := w.copied, sealA := w.sealA, sealB := w.sealB,
    toeDirty := w.toeDirty }
  else { w with
    coresWedged := false, fabWedged := false, bootFail := false, sealed := false, thermTrip := false, sealing := none, silent := 0, pairs := [], arms := [],
    tstIgnored := 0, tstInjected := 0, sensorReg := 0, sensorOff := [] }

/-- Counters of the warden run on through a warm reset; every other counter starts at zero. -/
def ctrKept (c : Ctrs) : Ctrs :=
  [Ctr.faultRecords, Ctr.logOverwritten, Ctr.seals, Ctr.warmResets, Ctr.wedgedMs].foldl (fun (d : Ctrs) k => d.wr k (c.rd k)) []

/-- The shadow directories this module holds as a buddy lie in Toe and survive (R110, R518). -/
def peersKept (ps : SMap Peer) : SMap Peer :=
  (ps.filter (fun e => !e.2.shadow.isEmpty)).map (fun (e : Nat × Peer) => (e.1, { Peer.blank with shadow := e.2.shadow, heldJseq := e.2.heldJseq }))

/-- The module at the start of stage 3 (Table 17-9). `hold` keeps CLAMPED through a warm reset (R340). -/
def resetMod (m0 : Mod) (cold hold : Bool) : Mod :=
  let m := unitsKept (poldersKept (dropActivation m0) cold) cold
  let s := m.sys
  let wp : Pwr := if cold then pwrReset else { pwrReset with
    mode := if hold then s.pw.mode else 0, gate := hold && s.pw.gate, wdGate := hold && s.pw.wdGate, beGate := hold && s.pw.beGate, vin := s.pw.vin, iin := s.pw.iin, tj := s.pw.tj,
    tjMax := s.pw.tj, msAt := s.pw.msAt, cutAt := s.pw.cutAt, tjAt := s.pw.tjAt, nonce := s.pw.nonce }
  let pins : Pins := if cold then { pinsReset with hvlRst := s.pins.hvlRst } else { s.pins with wp := 0, test := 0, tripLow := false }
  { modBlank with
    working := true
    hvl := if cold then 0 else m.hvl
    front := { frontReset (if cold then 0 else m.front.profile.read (fun a _ _ => a) % 4) with stage := 2 }
    fence := if cold then fencesNone else { fencesNone with phase := m.fence.phase }
    sidNext := m.sidNext
    jr := { journalBlank with next := m.jr.next, block := m.jr.block }
    peers := peersKept m.peers
    ftl := { m.ftl with clean := false }
    net := if cold then netBlank else { netBlank with ports := m.net.ports.map (fun po => { Port.blank with clk := po.clk }) }
    entropyOk := if cold then true else m.entropyOk
    pol := m.pol
    ctr := if cold then [] else ctrKept m.ctr
    out := m.out, free := m.free
    sys :=
      { sysReset with
        fw := { s.fw with staged := none, running := none, act := none }
        pw := wp, wd := wardenKept s.wd cold, pins := pins
        boot := { s.boot with prov := none, crestFail := false, mirror := [] } } }

-- Stages 3 to 6: secure boot and Crest.

/-- An image that R355 accepts under the present fuses. -/
def imageValid (fz : Fuses) (i : FwImage) : Bool :=
  let k := i.keySlot
  sha3Of [(1312, i.key)] == fz.keyHash[k % 4]'(Nat.mod_lt k (by decide)) && !bit fz.revoke k &&
    decide (fz.minSvn ≤ i.svn) && i.digest == sha3Of [(i.bytes, i.body)] && i.sigOk

/-- An activation's fuse request blown (R351, R502): FW_SVN_MIN as a thermometer up to the staged SVN, and the key slots revoked. Fuses only blow. -/
def blowFuses (fz : Fuses) (r : FuseReq) : Fuses :=
  { fz with
    svnMin := fz.svnMin ||| (match r.raise with
      | some n => 2 ^ (min n 64) - 1
      | none => 0)
    revoke := fz.revoke ||| (r.revoke % 16) }

/-- Steps 3 to 5 of Table 12-4 with R503: the image booted, and the recorded fuse request of a committed activation. -/
def secureBoot (fz : Fuses) (m : Mod) : Fuses × Mod :=
  let fw := m.sys.fw
  let done (m : Mod) : Mod := { m with front := { m.front with stage := 4 } }
  match fw.slotA.filter (imageValid fz) with
  | some a =>
    let fz' := match fw.req with
      | some r => if r.header == a.header then blowFuses fz r else fz
      | none => fz
    (fz', done (modFw m (fun f => { f with running := some a, req := none })))
  | none =>
    let m1 := logFault m 0x14 0 fBootSlot 0 false 0
    match fw.slotB.filter (imageValid fz) with
    | some b => (fz, done (minc (modFw m1 (fun f => { f with running := some b, req := none })) Ctr.bootSlotFail 1))
    | none => (fz, modWd (logFault m1 0x14 1 fBootSlot 0 false 0) (fun w => { w with bootFail := true }))

/-- Units that fail their self-test are fenced, but for Berm devices and Toe channels, which stages 7 and 8 test (Table 17-9). -/
def selfTests (fz : Fuses) (m : Mod) (fails : List (Nat × Nat)) : Mod :=
  (fails.filter (fun u => u.1 != 0x02 && u.1 != 0x03)).foldl (fun m u => faultFence fz m u.1 u.2 fSelftest 0) m

/-- Stage 6: a Crest die that fails its march test is a module fault, and start stops at stage 5 (Table 17-3). Nothing is composed yet, so there is
nothing to seal. -/
def crestTest (m : Mod) (bad : List Nat) : Mod :=
  match bad with
  | [] => { m with front := { m.front with stage := 6 } }
  | _ => modBoot (bad.foldl (fun m d => logFault m 0x0B d fSelftest 7 false 0) m) (fun b => { b with crestFail := true })

/-- Stage 7: each Berm device trains at the highest rate it passes, or is fenced (R474). -/
def bermTrain (fz : Fuses) (m : Mod) (rates : List Nat) : Mod :=
  let rate (d : Nat) : Nat := rates.getD d 0
  let m1 := modPins m (fun p => { p with bermRate := ((List.range 16).filter (fun d => rate d != 0)).map (fun d => (d, rate d)) })
  let m2 := ((List.range 16).filter (fun d => rate d == 0)).foldl (fun m d => faultFence fz m 0x02 d fSelftest 0) m1
  { m2 with front := { m2.front with stage := 7 } }

-- Stage 8.

/-- The board record read, or the FTL's defaults with every port left down (R478). -/
def readBoard (m : Mod) (eeprom : Block) : Mod :=
  let b := boardOf eeprom
  let m1 := match b with
    | some _ => m
    | none => logFault m 0x1F 0 fSelftest 0 false 0
  let or0 (v d : Nat) : Nat := if v == 0 then d else v
  { m1 with
    net := { m1.net with board := b }
    ftl := { m1.ftl with
      rdLimit := or0 ((b.map Board.rdLimit).getD 0) 100000
      retentionDays := or0 ((b.map Board.retentionDays).getD 0) 60 } }

/-- What OP 0 to 2 leaves of the good capacity (R69, Table 17-4). -/
def opLeft (op n : Nat) : Nat := match op with
  | 1 => n * 15 / 16
  | 2 => n * 3 / 4
  | _ => n * 7 / 8

/-- Exported map units of a channel (R69, R70): the module's exported capacity in proportion to good blocks, rounded down. -/
def exportedOf (cs : List ChanIn) (op : Nat) (c : ChanIn) : Nat :=
  let cs' := cs.filter ChanIn.present
  let total := opLeft op ((cs'.map ChanIn.units).sum * 31 / 32) - 163840
  total * c.good / max 1 ((cs'.map ChanIn.good).sum)

/-- A channel as enumeration finds it: what was known of it, with the exported share of a format. Cycles, retired blocks, crossings and a read-only
state are the flash's own and outlive a format (R76 to R79, log entry 64). -/
def chanFound (old : Option Chan) (c : ChanIn) (exported rated : Nat) (fmt : Bool) : Chan :=
  let bad := (old.map (fun o => (o.blks.filter (fun e => e.2.retired)).length)).getD 0
  { exported := if fmt then exported else (old.map Chan.exported).getD exported, good := c.good
    spare := if fmt then c.spare - bad else (old.map Chan.spare).getD c.spare, thresh := c.thresh
    endurance := if rated == 0 then c.endurance else rated, blks := (old.map Chan.blks).getD [], crossed := (old.map Chan.crossed).getD 0
    readOnly := (old.map Chan.readOnly).getD false, waiting := [], rebuilt := false }

/-- Toe enumeration (R475): a channel without a target is fenced; a target of another model is logged. Rated endurance is the board's, or the parameter
page's (R76). The FTL then reads every programmed block (R75). -/
def enumerate (fz : Fuses) (m : Mod) (cs : List ChanIn) (fmt : Bool) : Mod :=
  (List.range 32).foldl (fun m k =>
    match cs[k]? with
    | none => faultFence fz m 0x03 k fSelftest 0
    | some c =>
      let m1 := if c.excluded == 0 then m else logFault m 0x03 k fSelftest 0 false 0
      if !c.present then faultFence fz m1 0x03 k fSelftest 0
      else
        let ch := chanFound (m1.ftl.chans.get k) c (exportedOf cs m1.ftl.op c) ((m1.net.board.map Board.endurance).getD 0) fmt
        scanBlocks { m1 with ftl := { m1.ftl with chans := m1.ftl.chans.put k ch } } k) m

/-- Toe is to be formatted (R488). -/
def mustFormat (fz : Fuses) (m : Mod) (p : Option Prov) : Bool :=
  !m.sys.boot.formatted || (match p with
    | some x => x.fmtSerial != 0 && x.fmtSerial == fz.serial && x.fmtNonce != m.sys.boot.fmtNonce
    | none => false)

/-- A block as a format leaves it: erased, with its cycles (R76, R79). -/
def wiped (b : FlashBlk) : FlashBlk :=
  { blkNew with pe := if b.used && !b.retired then b.pe + 1 else b.pe, retired := b.retired }

/-- A format (R488): everything outside the boot area goes, OP is applied, FORMAT_NONCE is stored. -/
def formatToe (m : Mod) (p : Option Prov) : Mod :=
  let op := (p.map Prov.op).getD 0
  let m1 := (List.finRange 16).foldl (fun m i => modPol m i (fun q => { polderBlank with clk := q.clk })) m
  let m2 := modWd (modFw m1 (fun f => { f with vault := [], req := none })) (fun w => { w with copied := [], sealA := none, sealB := none })
  let m3 := modBoot m2 (fun b => { b with formatted := true, fmtNonce := (p.map Prov.fmtNonce).getD 0, saved := none })
  { m3 with
    peers := []
    ftl := { ftlBlank with
      op := if op == 3 then 0 else op, rdLimit := m3.ftl.rdLimit, retentionDays := m3.ftl.retentionDays
      chans := m3.ftl.chans.mapKV (fun _ c => { c with blks := c.blks.mapKV (fun _ b => wiped b) }) } }

/-- A start is clean when the newest seal image is newer than the last map-log record (R483). -/
def cleanStart (m : Mod) : Bool := (newestArea m.sys.wd).isSome && !m.sys.wd.toeDirty

/-- A descriptor of the seal image as it comes back (R391). -/
def restoreDesc (m : Mod) (d : Desc) : Option Desc :=
  let lease := leaseAt m.pol[pn d.pol].clk m.own.leaseMs
  match d.own with
  | .none => none
  | .importing => none
  | .owned => some { d with life := .parked }
  | .pendingOut => some { d with lease := lease }
  | .relinquished => some { d with lease := lease }
  | .restoring => some { d with own := .owned, life := .parked, epoch := if d.pend == 0 then d.epoch else d.pend, pend := 0 }
  | .shadow => some d

/-- The directory after the mount: the newest seal image's, or nothing (R391, R392). -/
def restoreDir (m : Mod) (clean : Bool) : Mod :=
  match (if clean then sealArea m.sys.wd ((newestArea m.sys.wd).getD 0) else none) with
  | none => { m with dir := [] }
  | some img => { m with dir := img.dir.filterMap (fun e => (restoreDesc m e.2).map (fun d => (e.1, d))) }

/-- The settings kept across starts take effect (Table 17-7). -/
def loadSaved (m : Mod) : Mod :=
  match m.sys.boot.saved with
  | none => modTime m (fun t => { t with stepNs := 100000 })
  | some s =>
    let m1 := modTime { m with own := s.own, jr := { m.jr with buddy := s.buddy } } (fun t => { t with conf := s.timeConf, stepNs := s.stepNs })
    modPw m1 (fun x => { x with caps := Tri.mk1 s.caps, conf := s.pw })

/-- Stage 8: board record, provisioning block, enumeration, format or mount, the restored directory, and numbers begun at the block after the last one
recorded (R489, R110). Slot A is programmed again when slot B booted (R503). -/
def stage8 (fz : Fuses) (m : Mod) (b : BootIn) : Mod :=
  let prov := provOf b.eeprom
  let m1 := modBoot (readBoard m b.eeprom) (fun x => { x with prov := prov })
  let fmt := mustFormat fz m1 prov
  let m2 := if fmt then formatToe m1 prov else m1
  let m3 := enumerate fz m2 b.chans fmt
  let clean := !fmt && cleanStart m3
  let m4 := loadSaved m3
  let m5 := restoreDir { m4 with ftl := { m4.ftl with clean := clean } } clean
  let m6 := { m5 with
    sidNext := (m5.sidNext / 2 ^ 24 + 1) * 2 ^ 24
    jr := { m5.jr with next := (m5.jr.block + 1) * 2 ^ 24, block := m5.jr.block + 1 } }
  let m7 := (List.finRange 16).foldl (fun m p => modPol m p (fun q => { q with
    vec := { q.vec with idx := q.vec.idx.map (fun (e : Nat × VIndex) => (e.1, { e.2 with rebuilt := true })) }
    ck := { q.ck with
      store := { q.ck.store with rebuilt := true }
      repl := q.ck.repl.map (fun (e : Nat × CkStore) => (e.1, { e.2 with rebuilt := true })) } })) m6
  let m8 := modFw m7 (fun f => if (f.slotA.filter (imageValid fz)).isNone then { f with slotA := f.slotB } else f)
  let m9 := modWd m8 (fun w => { w with toeDirty := true })
  modPins { m9 with front := { m9.front with stage := 8 } } (fun p => { p with wp := 2 ^ 32 - 1 })

-- Stages 9 to 14.

/-- A port comes up: the module's first link-up starts discovery (R496). -/
def portUp (m : Mod) (k : Fin 4) : Mod :=
  let m1 := modPort m k (fun po => { po with up := true })
  if m1.sys.disc.up.isSome then m1
  else modDisc { m1 with free := m1.free + 1 } (fun d => { d with up := some m1.hvl, due := some (m1.hvl + Config.openNat m1.free % 1000000000) })

/-- Stage 10: the board record is read again for the ports (R478); those that train come up, and the others retry after READY (Table 17-3). Reloaded
sluice lists take over at a later cycle start (R491, R325). -/
def stage10 (m0 : Mod) (eeprom : Block) (up : Nat) : Mod :=
  let m := { m0 with net := { m0.net with board := boardOf eeprom } }
  let go (m : Mod) (k : Fin 4) : Mod :=
    let m1 := match ((m.sys.boot.saved.map Saved.sluices).getD []).getD k.val none with
      | some l => modPort m k (fun po =>
          let c := firstStart l.base l.cycle (po.clk + 100000)
          { po with change := some (c, some l), changeTime := c })
      | none => m
    if m.net.board.isSome && !fencedBit m.fence.link k.val && bit up k.val then portUp m1 k
    else modPort m1 k (fun po => { po with retryAt := m1.hvl + 1000000000 })
  let m2 := (List.finRange 4).foldl go m
  { m2 with front := { m2.front with stage := 10 } }

/-- Stage 11: the HVL counter locks to the saved SOURCE, or runs free (Table 17-3). -/
def stage11 (m : Mod) (locked : Bool) : Mod :=
  let m1 := if locked && m.sys.time.conf % 4 != 0 then
      modTime m (fun t => { t with sync := t.sync.put 0 { Sync.free with locked := true, good := 16, at_ := m.hvl } })
    else m
  { m1 with front := { m1.front with stage := 11 } }

/-- The identity block is used only when its SERIAL and DOMAIN are this module's and the board record's (R487). -/
def identUsed (fz : Fuses) (m : Mod) : Option Nat :=
  match identOf m.sys.boot.ident with
  | none => none
  | some i => if i.valid && i.serial == fz.serial && (m.net.board.map Board.domain) == some i.domain then some i.id else none

/-- Stage 12: where discovery has assigned no identifier, the module runs with that of its identity block, or none (Table 17-3). -/
def stage12 (fz : Fuses) (m : Mod) : Mod :=
  let id := match m.front.modId with
    | some i => some i
    | none => identUsed fz m
  { m with front := { m.front with modId := id, stage := 12 } }

/-- Descriptors that were RESTORING assert again, journaled first; records the buddy had not acknowledged are sent again (R391). -/
def reassertAll (m : Mod) : Mod :=
  if !m.ftl.clean then m
  else match sealArea m.sys.wd ((newestArea m.sys.wd).getD 0) with
    | none => m
    | some img =>
      let again := (m.dir.filter (fun e => img.recs.any (fun r => r.2.sid == e.2.sid))).map (·.1)
      let m1 := again.foldl journalDesc m
      (img.dir.filter (fun e => e.2.own == .restoring)).foldl (fun m e =>
        let mods := ((img.asked.find? (fun a => a.1 == e.1)).map (fun (a : Nat × List Nat) => a.2)).getD []
        journalFirst m e.1 (ownRec m e.1) (.asserts e.2.pol e.1 mods)) m1

/-- Stage 13 (R492): defaults without a SAVED_PROFILE, the saved polders under it, and nothing under another. Each composition writes its record
(R494). -/
def stage13 (fz : Fuses) (m : Mod) : Mod :=
  let pr := profileNow m
  let m1 := match m.sys.boot.saved with
    | none => saveCfg (composeDefaults fz m pr)
    | some s =>
      if s.profile == pr then composeAllSaved m
      else logFault m 0x1F 0 fProfile 0 false (pr + at8 1 s.profile)
  let m2 := reassertAll m1
  { m2 with front := { m2.front with stage := 13 } }

/-- The work of one stage of Table 17-1; a stage that fails leaves GLB_STAGE where it is. -/
def startStage (b : BootIn) (cold : Bool) (s : Fuses × Mod) (n : Nat) : Fuses × Mod :=
  let fz := s.1
  let m := s.2
  if m.front.stage + 1 != n then s
  else match n with
    | 3 =>
      let m1 := if cold then
          modPins { m with front := { m.front with profile := Tri.mk1 (b.straps % 4) } } (fun p => { p with smbAddr := b.smbAddr % 8 })
        else m
      (fz, { m1 with front := { m1.front with stage := 3 } })
    | 4 => secureBoot fz m
    | 5 => (fz, let m1 := selfTests fz m b.fails; { m1 with front := { m1.front with stage := 5, mbxReady := true } })
    | 6 => (fz, crestTest m b.crestBad)
    | 7 => (fz, bermTrain fz m b.bermRate)
    | 8 => (fz, stage8 fz m b)
    | 9 => (fz, let m1 := modPins m (fun p => { p with hvlGen := if p.hvlRst then 0 else b.hvlGen }); { m1 with front := { m1.front with stage := 9 } })
    | 10 => (fz, stage10 m b.eeprom b.portsUp)
    | 11 => (fz, stage11 m b.locked)
    | 12 => (fz, stage12 fz m)
    | 13 => (fz, stage13 fz m)
    | _ => (fz, { m with front := { m.front with stage := 14, ready := true } })

/-- The stages from the one reached up to `upTo` (R482); the first row of a start runs stage 3 at least. -/
def runStages (b : BootIn) (cold : Bool) (upTo : Nat) (s : Fuses × Mod) : Fuses × Mod :=
  ((List.range 12).map (fun i => i + 3)).foldl (fun s n => if n ≤ max 3 upTo then startStage b cold s n else s) s

/-- A module that is running a start: stages 3 to 14 are under way and none has failed. -/
def starting (m : Mod) : Bool :=
  m.working && decide (2 ≤ m.front.stage) && decide (m.front.stage < 14) && !m.sys.wd.bootFail && !m.sys.boot.crestFail

/-- WARM_RESET's completion: DONE once the management mailbox is ready, or once the boot has failed (R396, R499). -/
def resetDone (m : Mod) : Mod :=
  let x := m.sys.wd.mbx
  if x.busy && x.started && x.runCmd % 256 == 0xC5 && (m.front.mbxReady || m.sys.wd.bootFail) then wdDone m stOk 0 else m

/-- COLD_START (R481): from VIN good, up to a stage; a row while a start is under way goes on with it. VIN good is counted only with no power failure
sequence in progress and MRST_L high (R511, R517). -/
def coldStart (fz : Fuses) (m : Mod) (b : BootIn) (upTo : Nat) : Fuses × Mod :=
  if m.sys.pins.failing || m.sys.pins.mrst then (fz, m)
  else if starting m then
    let s := runStages b true upTo (fz, m)
    (s.1, resetDone s.2)
  else if m.working then (fz, m)
  else
    let r := resetMod m true false
    let s := (b.fails.filter (fun u => u.1 == 0x0A)).foldl (fun m u => faultFence fz m u.1 u.2 fSelftest 0) r
    runStages { b with fails := b.fails.filter (fun u => u.1 != 0x0A) } true upTo (fz, s)

/-- WARM_RESET (R396, R499): refused while THERM_TRIP is set at 95 °C or above; otherwise NOTICE, then stages 3 to 14 again with the profile kept. -/
def warmReset (fz : Fuses) (m : Mod) (b : BootIn) (upTo : Nat) : Fuses × Mod :=
  let x := m.sys.wd.mbx
  if !(x.busy && !x.started && x.runCmd % 256 == 0xC5) then (fz, m)
  else if m.sys.wd.thermTrip && decide (950 ≤ m.sys.pw.tj) then (fz, wdDone (modWmb m (fun x => { x with started := true })) stBadCmd 0)
  else
    let m1 := sendNotice fz (minc (modWmb m (fun x => { x with started := true })) Ctr.warmResets 1) 2
    let r := resetMod m1 false (flg x.runArg 0 0)
    let s := runStages { b with fails := b.fails.filter (fun u => u.1 != 0x0A) } false upTo (fz, r)
    (s.1, resetDone s.2)

-- Power, pins and ports.

/-- Work stops: power is off, or held off. -/
def stopWork (m : Mod) : Mod :=
  { m with working := false, net := { m.net with ports := m.net.ports.map (fun po => { po with up := false, queue := [], cands := [], flight := none }) } }

/-- What a power failure or a module reset cuts off: an activation before its commit point, and a seal whose header is not written (R503, Table 18-7). -/
def cutOff (m : Mod) : Mod := dropActivation (modWd m (fun w => { w with sealing := none }))

/-- POWER_FAILURE (R511): VCORE and the HVL, Ethernet and Berm PHYs off; no new program or erase starts (R81). Units whose program has not completed stay unacknowledged. -/
def powerFailure (m : Mod) : Mod :=
  if m.sys.pins.failing || m.sys.pins.off then m
  else modPins (stopWork (cutOff m)) (fun p => { p with failing := true, hvlGen := 0, bermRate := [] })

/-- The programs in flight complete, which acknowledges their writes (R81). Which units are in flight, and in which blocks, is a free value (log
entry 78). -/
def flightDone (m : Mod) : Mod :=
  (Config.inFlight m.free).foldl (fun m a => if canAck m a.1 a.2 then ackUnit m a.1 a.2 else m) { m with free := m.free + 1 }

/-- POWER_FAIL_PROGRAMS_DONE (R511, R81): the programs in flight complete, WP_n is driven low and the module draws nothing further. The module
leaves the state only by a cold start; THERMTRIP_L is released with the supply. -/
def powerFailDone (m : Mod) : Mod :=
  if !m.sys.pins.failing then m
  else modPins (flightDone m) (fun p => { p with failing := false, off := true, wp := 0, tripLow := false })

/-- VIN_RANGE (R508): VIN_GOOD follows whether VIN is within 51 to 59 V, and each change is logged with ENV set and VIN in DETAIL. -/
def vinRange (m : Mod) (mv : Nat) : Mod :=
  let good := decide (51000 ≤ mv) && decide (mv ≤ 59000)
  let m1 := modPw m (fun x => { x with vin := mv })
  if good == m.sys.wd.vinGood then m1
  else logFault (modWd m1 (fun w => { w with vinGood := good })) 0x1F 0 fVinRange 0 true mv

/-- MODULE_RESET (R498, R517): MRST_L low for 10 µs. While R511's sequence runs, only the pin's level is kept; a seal in progress is abandoned. -/
def moduleReset (m : Mod) : Mod :=
  if m.sys.pins.failing || m.sys.pins.off || m.sys.pins.mrst then modPins m (fun p => { p with mrst := true })
  else modPins (stopWork (cutOff m)) (fun p => { p with mrst := true })

/-- MRST_L_RELEASE (R517): MRST_L returns high, and the module starts cold unless it has no power. -/
def mrstRelease (fz : Fuses) (m : Mod) (b : BootIn) (upTo : Nat) : Fuses × Mod :=
  if !m.sys.pins.mrst then (fz, m)
  else
    let m1 := modPins m (fun p => { p with mrst := false })
    if m.sys.pins.off || m.sys.pins.failing then (fz, m1) else coldStart fz m1 b upTo

/-- HVL_RST (R514): the link is held untrained. -/
def hvlRst (m : Mod) : Mod := modPins m (fun p => { p with hvlRst := true, hvlGen := 0 })

/-- HVL_RST_L_RELEASE (R514): the link trains again at the highest common generation (R453). -/
def hvlRelease (m : Mod) (gen : Nat) : Mod :=
  if !m.sys.pins.hvlRst then m else modPins m (fun p => { p with hvlRst := false, hvlGen := gen })

/-- PORT_RETRY (Table 17-3): after READY a port that is down trains again every 1 s. -/
def portRetry (m0 : Mod) (k : Fin 4) (up : Bool) (t : Nat) : Mod :=
  let m := tickHvl m0 t
  let po := m.net.ports[k]
  if !m.front.ready || po.up || m.net.board.isNone || fencedBit m.fence.link k.val || decide (m.hvl < po.retryAt) then m
  else if up then portUp m k
  else modPort m k (fun po => { po with retryAt := m.hvl + 1000000000 })

end Sys2Proof.Machine
end

