-- ==== Sys2Proof/Machine/FwUpdate.lean ====
section
/-! DEFINITION. Firmware update: FW_UPDATE_STAGE, its discard form, and FW_UPDATE_ACTIVATE by the steps of Table 17-11 (R501 to R503). -/

namespace Sys2Proof.Machine

/-- The largest body of an image (R355). -/
def maxBody : Nat := 67108864 - 3860

/-- An image as FW_UPDATE_STAGE accepts it: its length as given, and R355 against the present fuses (R501). -/
def stageOk (fz : Fuses) (len : Nat) (i : FwImage) : Bool :=
  len == 128 + i.bytes + 3732 && decide (i.bytes ≤ maxBody) && imageValid fz i

/-- FW_UPDATE_STAGE (R501): the image goes to the staging area, and slot A is copied to slot B when their headers differ. `img` is what HOST holds. -/
def fwStage (fz : Fuses) (m : Mod) (b : Box) (img : FwImage) : Mod := mbxRowIf m b 0x84 (fun a => fld a 16 0 32 != 0) (fun a m =>
  let host := fld a 8 0 64
  if host % 64 != 0 || !stageOk fz (fld a 16 0 32) img then mbxDone m b stBadCmd 0
  else
    let differ (f : FwState) : Bool := f.slotA.map FwImage.header != f.slotB.map FwImage.header
    let m1 := modFw m (fun f => { f with staged := some img, slotB := if differ f then f.slotA else f.slotB })
    mbxDone m1 b stOk (at8 16 img.svn + at8 32 (fwDigest (some img))))

/-- FW_UPDATE_STAGE with IMAGE_LEN 0 (R501): the staged image is discarded. -/
def fwDiscard (m : Mod) (b : Box) : Mod := mbxRowIf m b 0x84 (fun a => fld a 16 0 32 == 0) (fun _ m =>
  mbxDone (modFw m (fun f => { f with staged := none })) b stOk 0)

/-- The cases in which FW_UPDATE_ACTIVATE changes nothing (R502). -/
def activateBad (fz : Fuses) (m : Mod) (a : Block) : Bool :=
  match m.sys.fw.staged with
  | none => true
  | some i =>
    let rv := if flg a 0 1 then fld a 1 0 4 else 0
    bit rv i.keySlot || (fz.revoke ||| rv) % 16 == 15

/-- The fuse request of an activation (R503). -/
def fuseReq (a : Block) (i : FwImage) : FuseReq :=
  { header := i.header, raise := if flg a 0 0 then some i.svn else none, revoke := if flg a 0 1 then fld a 1 0 4 else 0 }

/-- Commands that have not committed complete with RETRY (Table 17-11, R388). -/
def retryUnstarted (m : Mod) : Mod :=
  (List.finRange 16).foldl (fun m p => completeAll m p ((m.pol[p].taken.filter (fun t => !t.started)).map Taken.tag) (rSt stRetry)) m

/-- One step of Table 17-11. `good` says whether slot A verifies at step 3. -/
def activateStep (b : Box) (a : Block) (good : Bool) (s : Fuses × Mod) (n : Nat) : Fuses × Mod :=
  let fz := s.1
  let m := s.2
  match n, m.sys.fw.staged with
  | 1, some i => (fz, retryUnstarted (modFw m (fun f => { f with act := some ⟨fuseReq a i, 1⟩ })))
  | 2, some i => (fz, modFw m (fun f => { f with act := some ⟨fuseReq a i, 2⟩, req := some (fuseReq a i), slotA := some i }))
  | 3, some i =>
    if good && imageValid fz i then (fz, modFw m (fun f => { f with act := some ⟨fuseReq a i, 3⟩ }))
    else
      let m1 := logFault m 0x14 0 fBootSlot 0 false 0
      let m2 := modFw m1 (fun f => { f with act := none, req := none, slotA := f.slotB, running := f.slotB })
      (fz, mbxDone (minc m2 Ctr.bootSlotFail 1) b stRetry 0)
  | 4, some i => (blowFuses fz (fuseReq a i), modFw m (fun f => { f with act := some ⟨fuseReq a i, 4⟩, req := none, staged := none, running := some i }))
  | 5, _ => (fz, mbxDone (modFw m (fun f => { f with act := none })) b stOk (at8 16 ((m.sys.fw.running.map FwImage.svn).getD 0)))
  | _, _ => s

/-- FW_UPDATE_ACTIVATE up to a step (R502, R503, Table 17-11); a later row of the same mailbox goes on from there. FW_PENDING and PENDING_DIGEST clear with
the staged image at step 4. -/
def fwActivate (s : Fuses × Mod) (b : Box) (step : Nat) (good : Bool) : Fuses × Mod :=
  let fz := s.1
  let m := s.2
  let x := getMbx m b
  let run (s : Fuses × Mod) (from_ : Nat) : Fuses × Mod :=
    ((List.range 5).map (fun i => i + 1)).foldl (fun s k =>
      if from_ < k && k ≤ max 1 step && (k == 1 || s.2.sys.fw.act.isSome) then activateStep b x.runArg good s k else s) s
  match m.sys.fw.act with
  | some act => if x.busy && x.started && x.runCmd % 256 == 0x85 && !m.sys.wd.sealed then run s act.step else s
  | none =>
    if !(x.busy && !x.started && x.runCmd % 256 == 0x85) || m.sys.wd.coresWedged || m.sys.wd.sealed then s
    else
      let m1 := modMbx m b (fun x => { x with started := true })
      if activateBad fz m1 x.runArg then (fz, mbxDone m1 b stBadCmd 0)
      else if (List.finRange 16).any (fun p => polderBusy m1 p) then (fz, mbxDone m1 b stBusy 0)
      else run (fz, m1) 0

end Sys2Proof.Machine
end

