-- ==== Sys2Proof/Machine/Links.lean ====
section
/-! DEFINITION. Time (R410, R460 to R463), peer discovery (R473, R496, R497), HVL reads that time out (R456), and the sideband and test ports (R476,
R477, R479). -/

namespace Sys2Proof.Machine

-- Time.

/-- A counter stepped to its reference: the HVL counter, or a port's with its sluice table restarted at the first cycle start (R326, R461). -/
def stepCounter (m : Mod) (k : Nat) (off : Int) : Mod :=
  if k == 0 then
    let m1 := { m with hvl := ((m.hvl : Int) - off).toNat }
    (List.range 16).foldl (fun m p => modTime m (fun t =>
      let s := (t.sync.get (5 + p)).getD Sync.free
      { t with sync := t.sync.put (5 + p) { s with locked := false, good := 0 } })) m1
  else
    let p : Fin 4 := ⟨(k - 1) % 4, Nat.mod_lt _ (by decide)⟩
    let po := m.net.ports[p]
    let now := ((po.clk : Int) - off).toNat
    let m1 := modPort m p (fun po => { po with
      clk := now
      resume := po.sluice.map (fun (s : Sluice) => (firstStart s.base s.cycle now, po.gates)) })
    setGates (if po.sluice.isSome then minc m1 (Ctr.sluRestart p.val) 1 else m1) p

/-- A measurement of a counter's offset from its reference (R461): 16 in a row within ±50 ns lock it, one above 200 ns unlocks it, and one above STEP_NS
steps it unless it is a polder counter. Smaller offsets are slewed. -/
def measure (m : Mod) (k : Nat) (off : Int) : Mod :=
  let s := syncOf m k
  let good := if off.natAbs ≤ 50 then s.good + 1 else 0
  let lock := if 200 < off.natAbs then false else s.locked || decide (16 ≤ good)
  let m1 := modTime m (fun t => { t with
    sync := t.sync.put k { s with locked := lock, holdover := s.holdover && !lock, good := good, at_ := m.hvl, offset := off } })
  if decide (k < 5) && decide (m.sys.time.stepNs < off.natAbs) then stepCounter m1 k off else m1

/-- Measurements among the module's own counters, by counter: 1 + k port k, 5 + p polder p (R460). -/
def measureAll (m : Mod) (ms : List (Nat × Int)) : Mod :=
  ms.foldl (fun m e => if e.1 == 0 || 20 < e.1 then m else measure m e.1 e.2) m

/-- TIME_SYNC_CONF (R410): a changed reference puts the HVL counter and the ports in holdover (Table 16-9). SOURCE 3 is Reserved. -/
def timeSyncConf (m : Mod) (b : Box) : Mod := mbxRow m b 0x8F (fun a m =>
  if fld a 0 0 2 == 3 then mbxDone m b stBadCmd 0
  else
    let conf := fld a 0 0 5 + 256 * fld a 1 0 8
    let ref (c : Nat) : Nat := if c % 4 == 1 then c % 32 + 256 * (c / 256) else c % 4
    let old := m.sys.time.conf
    let m1 := modTime m (fun t => { t with conf := conf, stepNs := if fld a 4 0 32 == 0 then 100000 else fld a 4 0 32 })
    let m2 := if ref conf == ref old then m1 else modTime ((List.range 5).foldl holdover m1) (fun t => { t with lastSeq := none })
    mbxSaved m2 b (at8 16 (b2n (timeLocked m2))))

/-- PTP_FRAME (R460): a message of the configured domain and profile on the slave port measures that port's counter against the time it carries. With SOURCE
1 the HVL counter follows the port, at the offset `hvlOff`. `ms` holds the measurements among the module's other counters. -/
def ptpFrame (m0 : Mod) (k : Fin 4) (dom profile : Nat) (off hvlOff : Int) (ms : List (Nat × Int)) (t : Nat) : Mod :=
  let m := tickHvl m0 t
  let c := m.sys.time.conf
  if c % 4 == 1 && c / 4 % 4 == k.val && c / 16 % 2 == profile % 2 && c / 256 % 256 == dom % 256 && m.net.ports[k].up && !fencedBit m.fence.link k.val then
    measureAll (measure (measure m (1 + k.val) off) 0 hvlOff) (ms.filter (fun e => e.1 != 1 + k.val))
  else measureAll m ms

/-- TIME_MESSAGE (R463): with SOURCE 2 the HVL counter is measured against REF_NS plus the one-way delay. -/
def timeMessage (m0 : Mod) (msg : Block) (delay : Nat) (ms : List (Nat × Int)) (t : Nat) : Mod :=
  let m := tickHvl m0 t
  let x := timeMsgOf msg
  let fresh := match m.sys.time.lastSeq with
    | some n => decide (n < x.seq)
    | none => true
  if !x.refLocked || !fresh then m
  else
    let m1 := modTime m (fun t => { t with lastSeq := some x.seq })
    if m.sys.time.conf % 4 != 2 then measureAll m1 ms
    else measureAll (measure m1 0 ((m1.hvl : Int) - ((x.refNs + delay : Nat) : Int))) ms

/-- LOCK_LOSS (R461, R462): a locked counter without a measurement for 1 s enters holdover. -/
def lockLoss (m0 : Mod) (k t : Nat) : Mod :=
  let m := tickHvl m0 t
  let s := syncOf m k
  if s.locked && decide (s.at_ + 1000000000 ≤ m.hvl) then holdover m k else m

-- Discovery. A module without an identifier is named by what tells it apart (R496): 4096 + i is anchor i by its address, 65536 + SERIAL any other.

def anchorDst (i : Nat) : Nat := 4096 + i
def serialDst (s : Nat) : Nat := 65536 + s
/-- Where a module of the table is reached. -/
def announceDst (x : Announce) : Nat := if x.valid then x.id else serialDst x.serial

def anchors (m : Mod) : List (Nat × Nat) := (m.sys.boot.prov.map Prov.anchors).getD []

/-- The module's own ANNOUNCE (R473): its identifier, or that of its identity block, and the addresses of its first culvert port. -/
def ownAnnounce (fz : Fuses) (m : Mod) : Announce :=
  let b := m.net.board
  let ps := (List.finRange 4).filter (fun k => bit ((b.map Board.culvertPorts).getD 0) k.val)
  let pb := (ps.head?.map (portBoard m)).getD PortBoard.blank
  let id := match m.front.modId with
    | some i => some i
    | none => identUsed fz m
  { domain := (b.map Board.domain).getD 0, id := id.getD 0, valid := id.isSome, serial := fz.serial, v6 := pb.ipv6, v4 := pb.ipv4, mac := pb.mac,
    ports := ((List.finRange 4).filter (fun k => m.net.ports[k].up)).foldl (fun n k => n + 2 ^ k.val) 0, level := 0 }

/-- This module's index among the anchors, when one of its ports has an anchor's address (Table 17-4). -/
def anchorIndex (m : Mod) : Option Nat :=
  let mine := (m.net.board.map Board.ports).getD []
  (anchors m).findIdx? (fun a => mine.any (fun (p : PortBoard) => if a.1 == 0 then a.2 != 0 && p.ipv4 == a.2 else p.ipv6 == a.1))

def sendAnnounce (m : Mod) (dst level : Nat) (x : Announce) : Mod := putMsg m dst 0 0 none .lc (.announce { x with level := level })

/-- An entry of the discovery table, told apart by SERIAL (R496); a changed entry is new to the anchor's next tick. NOTICE is matched against it. -/
def putEntry (m : Mod) (x : Announce) : Mod :=
  let y : Announce := { x with level := 0 }
  let d := m.sys.disc
  if d.table.contains y then m
  else
    let m1 := modDisc m (fun d => { d with table := d.table.filter (fun z => z.serial != x.serial) ++ [y], fresh := d.fresh.filter (· != x.serial) ++ [x.serial] })
    let ps := m1.peers.map (fun (e : Nat × Peer) => if e.2.serial == some x.serial && e.1 != x.id then (e.1, { e.2 with serial := none }) else e)
    if !x.valid then { m1 with peers := ps }
    else { m1 with peers := SMap.put ps x.id { ((SMap.get ps x.id).getD Peer.blank) with serial := some x.serial } }

/-- The lowest identifier no entry holds, from 1 upward and 0 last (R497). -/
def freeId (m : Mod) : Option Nat :=
  let used := (m.sys.disc.table.filter Announce.valid).map Announce.id
  ((List.range 4096).map (fun i => (i + 1) % 4096)).find? (fun i => !used.contains i)

/-- An announce with an identifier assigned, where one is free (R497). -/
def assign (m : Mod) (x : Announce) : Announce :=
  match freeId m with
  | some i => { x with id := i, valid := true }
  | none => { x with id := 0, valid := false }

/-- The coordinator settles an announce (R497): its identifier stands unless another module claims it, when the lower SERIAL keeps it. The answer lists the
settled announce and an entry that lost its identifier, if any. -/
def settle (m : Mod) (x : Announce) : Announce × Option Announce :=
  let others := m.sys.disc.table.filter (fun z => z.serial != x.serial)
  if !x.valid then
    match m.sys.disc.table.find? (fun z => z.serial == x.serial && z.valid) with
    | some z => ({ x with id := z.id, valid := true }, none)
    | none => (assign m x, none)
  else match others.find? (fun z => z.valid && z.id == x.id) with
    | none => (x, none)
    | some z => if x.serial < z.serial then (x, some z) else (assign m x, none)

/-- An identifier the module is told is its own: GLB_MODULE_ID and the identity block follow (R487, R497). -/
def takeId (fz : Fuses) (m : Mod) (x : Announce) : Mod :=
  let m1 := modDisc m (fun d => { d with asked := none, fixed := true })
  let dom := (m.net.board.map Board.domain).getD 0
  if !x.valid then m1
  else
    let ident : Ident := { domain := dom, id := x.id, valid := true, serial := fz.serial }
    modBoot { m1 with front := { m1.front with modId := some x.id } } (fun b => { b with ident := identBytes ident })

/-- An anchor's answer to an announce (Table 17-8, step 2): recorded, returned, and forwarded at LEVEL 2 to every other anchor. -/
def anchorAnswer (fz : Fuses) (m : Mod) (me : Nat) (x : Announce) (back : Bool) : Mod :=
  let m1 := putEntry m x
  let m2 := if x.serial == fz.serial then takeId fz m1 x
    else if back then sendAnnounce m1 (serialDst x.serial) 0 x else m1
  ((List.range (anchors m).length).filter (· != me)).foldl (fun m i => sendAnnounce m (anchorDst i) 2 x) m2

/-- An anchor receives an announce. `coord` says whether it is the lowest-indexed anchor that is reachable: only the coordinator assigns identifiers. -/
def anchorRecv (fz : Fuses) (m : Mod) (me : Nat) (x : Announce) (coord : Bool) : Mod :=
  if coord then
    let (y, lost) := settle m x
    let changed := decide (y ≠ x) || x.level == 0
    let m1 := if changed then anchorAnswer fz m me y true else putEntry m y
    match lost with
    | none => m1
    | some z =>
      let w := assign m1 z
      anchorAnswer fz m1 me w true
  else if x.level == 0 then anchorAnswer fz m me x x.valid
  else if x.serial == fz.serial then takeId fz (putEntry m x) x
  else putEntry m x

/-- A relay takes a LEVEL 2 entry: it forwards it after a backoff drawn from [0, 100 ms) (Table 17-8, step 4). -/
def relayTake (m : Mod) (x : Announce) : Mod :=
  let due := m.hvl + Config.openNat m.free % 100000000
  modDisc { m with free := m.free + 1 } (fun d => { d with forward := d.forward ++ [(due, { x with level := 1 })] })

/-- ANNOUNCE received (R496, R497), of the module's own domain. -/
def recvAnnounce (fz : Fuses) (m0 : Mod) (src : Nat) (x : Announce) (coord : Bool) (t : Nat) : Mod :=
  deliver (tickHvl m0 t) src 0 0 0 0x0B (fun m =>
    let m := if src < 4096 then heard m src else m
    if (m.net.board.map Board.domain) != some x.domain then m
    else match anchorIndex m with
      | some me => anchorRecv fz m me x coord
      | none =>
        let m1 := putEntry m x
        let m2 := if x.serial == fz.serial then takeId fz m1 x else m1
        if x.level == 2 then relayTake m2 x else m2)

/-- The module's announce goes to an anchor; an anchor that is this module answers at once. -/
def askAnchor (fz : Fuses) (m : Mod) (i : Nat) (coord : Bool) : Mod :=
  let m1 := modDisc m (fun d => { d with anchor := i, asked := some m.hvl, due := none })
  if anchorIndex m == some i then anchorRecv fz m1 i (ownAnnounce fz m) coord else sendAnnounce m1 (anchorDst i) 0 (ownAnnounce fz m)

/-- DISCOVERY_BACKOFF (Table 17-8, step 1): anchor SERIAL mod NANCHOR. Without a valid provisioning block no discovery runs (R486). -/
def discoveryBackoff (fz : Fuses) (m0 : Mod) (coord : Bool) (t : Nat) : Mod :=
  let m := tickHvl m0 t
  let n := (anchors m).length
  match m.sys.disc.due with
  | none => m
  | some d => if n == 0 || decide (m.hvl < d) then m else askAnchor fz m (fz.serial % n) coord

/-- A lane still has frames that have not been acknowledged. -/
def unackedTo (m : Mod) (dst : Nat) : Bool :=
  let l := laneOf m (laneKey dst 0)
  !l.unacked.isEmpty || !l.queue.isEmpty

/-- ANCHOR_ACK_TIMEOUT (Table 17-8, step 1): the next anchor in order after 100 ms without an acknowledgement. -/
def anchorAckTimeout (fz : Fuses) (m0 : Mod) (coord : Bool) (t : Nat) : Mod :=
  let m := tickHvl m0 t
  match m.sys.disc.asked with
  | none => m
  | some s =>
    if m.hvl < s + 100000000 then m
    else if !unackedTo m (anchorDst m.sys.disc.anchor) then modDisc m (fun d => { d with asked := none })
    else askAnchor fz (modDisc m (fun d => { d with tries := d.tries + 1 })) ((m.sys.disc.anchor + 1) % max 1 (anchors m).length) coord

/-- The relay of a cell: its lowest valid identifier (R496). -/
def relayOf (m : Mod) (c : Nat) : Option Announce :=
  (m.sys.disc.table.filter (fun z => z.valid && z.id / 64 == c)).foldl (fun (b : Option Announce) z => match b with
    | none => some z
    | some y => if z.id < y.id then some z else some y) none

/-- ANCHOR_TICK (Table 17-8, step 3): every 500 ms from 1,500 ms after its link-up, new and changed entries go to the relays of the anchor's cells. -/
def anchorTick (fz : Fuses) (m0 : Mod) (t : Nat) : Mod :=
  let m := tickHvl m0 t
  match anchorIndex m, m.sys.disc.up with
  | some me, some up =>
    let due := if m.sys.disc.tickAt == 0 then up + 1500000000 else m.sys.disc.tickAt + 500000000
    if m.hvl < due then m
    else
      let xs := m.sys.disc.table.filter (fun z => m.sys.disc.fresh.contains z.serial)
      let cells := (List.range 64).filter (fun c => c % max 1 (anchors m).length == me)
      let m1 := modDisc m (fun d => { d with fresh := [], tickAt := due })
      if xs.isEmpty then m1
      else cells.foldl (fun m c => match relayOf m c with
        | none => m
        | some r =>
          if r.serial == fz.serial then xs.foldl relayTake m
          else
            let m2 := xs.foldl (fun m x => sendAnnounce m (announceDst r) 2 x) m
            modDisc m2 (fun d => { d with relays := d.relays ++ [(c, xs.map Announce.serial, m2.hvl)] })) m1
  | _, _ => m

/-- The members of a cell but this module, and a module that has the entry as its own. -/
def cellMembers (fz : Fuses) (m : Mod) (c : Nat) (x : Announce) : List Announce :=
  m.sys.disc.table.filter (fun z => z.valid && z.id / 64 == c && z.serial != fz.serial && z.serial != x.serial)

/-- RELAY_FORWARD (Table 17-8, step 4): entries whose backoff has ended go at LEVEL 1 to the members of the relay's cell. -/
def relayForward (fz : Fuses) (m0 : Mod) (t : Nat) : Mod :=
  let m := tickHvl m0 t
  let due := m.sys.disc.forward.filter (fun e => decide (e.1 ≤ m.hvl))
  let m1 := modDisc m (fun d => { d with forward := d.forward.filter (fun e => !decide (e.1 ≤ m.hvl)) })
  match m.front.modId with
  | none => m1
  | some i => due.foldl (fun m e => (cellMembers fz m (i / 64) e.2).foldl (fun m z => sendAnnounce m (announceDst z) 1 e.2) m) m1

/-- RELAY_ACK_TIMEOUT (Table 17-8, step 5): a relay that has not acknowledged within 1 s is passed over, and its cell's members are served directly. -/
def relayAckTimeout (fz : Fuses) (m0 : Mod) (t : Nat) : Mod :=
  let m := tickHvl m0 t
  let due (e : Nat × List Nat × Nat) : Bool := decide (e.2.2 + 1000000000 ≤ m.hvl)
  let m1 := modDisc m (fun d => { d with relays := d.relays.filter (fun e => !due e) })
  (m.sys.disc.relays.filter due).foldl (fun m e => match relayOf m e.1 with
    | none => m
    | some r =>
      if !unackedTo m (announceDst r) then m
      else (m.sys.disc.table.filter (fun z => e.2.1.contains z.serial)).foldl (fun m x =>
        ((cellMembers fz m e.1 x).filter (fun z => z.serial != r.serial)).foldl (fun m z => sendAnnounce m (announceDst z) 1 x) m) m) m1

-- Companion-memory reads.

/-- HVL_READ_TIMEOUT (R456): the read is logged against the HVL half that carried it. A ring entry is read again later; any other read ends its command
with RETRY: a command of a polder by its TAG, or a mailbox's command. -/
def hvlReadTimeout (m0 : Mod) (half : Nat) (cmd : Option (Fin 16 × Nat)) (box : Option Box) (t : Nat) : Mod :=
  let m := logFault (tickHvl m0 t) 0x05 (half % 2) fTimeout 0 false 0
  let m1 := match cmd with
    | none => m
    | some (p, tag) =>
      let q := m.pol[p]
      if q.reqs.any (fun r => r.tag == tag) then endReq m p tag stRetry 6 0
      else if q.jobs.any (fun j => j.tag == tag) then endJob m p tag stRetry
      else if q.vec.queries.any (fun z => z.tag == tag) then endQuery m p tag stRetry
      else match findTaken q tag with
        | some t => if t.started then m else complete m p tag (rSt stRetry)
        | none => m
  match box with
  | none => m1
  | some b => let x := getMbx m1 b
              if x.busy && !x.started then mbxDone m1 b stRetry 0 else m1

-- Sideband (R476, R477).

/-- LINEAR11 of num / den: an 11-bit two's complement mantissa and a 5-bit exponent, the smallest exponent that holds the value, rounded towards zero. -/
def linear11 (num : Int) (den : Nat) : Nat :=
  let val (n : Nat) : Nat := if n < 16 then num.natAbs * 2 ^ (16 - n) / den else num.natAbs / (den * 2 ^ (n - 16))
  match (List.range 32).find? (fun n => decide (val n ≤ 1023)) with
  | none => 15 * 2048 + 1023
  | some n =>
    let e := (n + 16) % 32
    let y := val n
    e * 2048 + (if num < 0 then (2048 - y) % 2048 else y)

/-- STATUS_WORD (Table 16-7). -/
def statusWord (m : Mod) : Mod :=
  emit m (.reg (4 * b2n (decide (10 * (m.sys.pw.conf.tjSoft : Int) ≤ m.sys.pw.tj)) + 8 * b2n (!m.sys.wd.vinGood) + 2048 * b2n (m.sys.pw.mode == 2)))

def readVin (m : Mod) : Mod := emit m (.reg (linear11 m.sys.pw.vin 1000))
def readIin (m : Mod) : Mod := emit m (.reg (linear11 m.sys.pw.iin 1000))
def readTemperature (m : Mod) : Mod := emit m (.reg (linear11 m.sys.pw.tj 10))
def readPout (m : Mod) : Mod := emit m (.reg (linear11 m.sys.pw.inMw 1000))

/-- The alert output (R476). -/
def alert (m : Mod) : Bool :=
  let w := m.sys.wd
  w.coresWedged || w.fabWedged || w.bootFail || w.sealed || w.thermHigh || w.thermTrip

/-- ALERT_RESPONSE (R476): the port answers with its own address while its alert is asserted, as SMBus gives the answer: the address above a low bit. -/
def alertResponse (m : Mod) : Mod := if alert m then emit m (.reg (2 * (0x58 + m.sys.pins.smbAddr))) else m

/-- WMB_OFFSET (Table 16-7): a multiple of 4, at most 0x0FFC; anything else, or a write whose PEC fails, is not acknowledged. -/
def wmbOffset (m : Mod) (off : Nat) (pec : Bool) : Mod :=
  if !pec || off % 4 != 0 || decide (0xFFC < off) then m else modPins m (fun p => { p with smbOff := off })

-- Test port (R479).

/-- An instruction of the test port selected; EXTEST, CLAMP and HIGHZ stop the module's work until a cold start. -/
def testPort (m : Mod) (code : Nat) (stops : Bool) : Mod :=
  if m.sys.pins.off || (!m.working && m.sys.pins.test == 0) then m
  else
    let m1 := modPins m (fun p => { p with test := code })
    if stops then stopWork m1 else m1

def bypass (m : Mod) : Mod := testPort m 1 false
def idcode (m : Mod) : Mod := if m.sys.pins.off || (!m.working && m.sys.pins.test == 0) then m else emit (testPort m 2 false) (.reg 0x116005CF)
def samplePreload (m : Mod) : Mod := testPort m 3 false
def extest (m : Mod) : Mod := testPort m 4 true
def extestPulse (m : Mod) : Mod := testPort m 5 false
def extestTrain (m : Mod) : Mod := testPort m 6 false
def clampTest (m : Mod) : Mod := testPort m 7 true
def highz (m : Mod) : Mod := testPort m 8 true

end Sys2Proof.Machine
end

