-- ==== Sys2Proof/Machine/Regs.lean ====
section
/-! DEFINITION. The register apertures (chapter 15): what each register reads, cross-domain reads (R434, R435), the forerunner window (R448, R449),
register writes (R431, R432), mailbox acceptance (R404 to R407, R485), test perturbations (R451), and the sweep of triplicated fields (R437). -/

namespace Sys2Proof.Machine

/-- SEC_PRIV_MAP as read (Table 15-3). -/
def privMapNow (m : Mod) : Nat := m.front.privMap.read (fun _ _ _ => 0x1FFFF)

/-- A 32-bit word of a byte string. -/
def wordOf (b : Block) (i : Nat) : Nat := fld b (4 * i) 0 32

/-- A byte string with one 32-bit word written. -/
def putWord (b : Block) (i v : Nat) : Block := b - at8 (4 * i) (wordOf b i) + at8 (4 * i) (v % 2 ^ 32)

-- What registers read.

/-- MBX_STAT and PMB_STAT (Table 14-2). -/
def statOf (x : Mbx) : Nat := b2n x.busy + 2 * b2n x.done + 256 * (x.status % 256) + 65536 * (x.tag % 65536)

/-- A mailbox register at its offset from the mailbox's base (Table 14-1). -/
def mbxRead (x : Mbx) (off : Nat) : Nat :=
  if off == 0x00 then x.cmd
  else if off == 0x08 then statOf x
  else if off == 0x0C then x.dropped
  else if 0x40 ≤ off && off < 0x80 then wordOf x.arg ((off - 0x40) / 4)
  else if 0x80 ≤ off && off < 0xC0 then wordOf x.res ((off - 0x80) / 4)
  else 0

/-- GLB_STATUS (Table 15-4a). -/
def glbStatus (m : Mod) : Nat :=
  b2n m.front.ready + 2 * b2n m.front.mbxReady + 4 * b2n m.jr.down + 8 * b2n (timeLocked m) + 16 * b2n (syncOf m 0).holdover +
  32 * b2n m.sys.wd.sealed + 64 * b2n m.sys.fw.staged.isSome + 128 * b2n m.sys.fw.act.isSome +
  256 * ((List.range 16).map (fun i => if m.pol[pn i].composed then 2 ^ i else 0)).sum

/-- The GLB_ block with the fuse words (Table 15-4). XD_MODE is mirror under profile 0 (R434). -/
def glbRead (fz : Fuses) (m : Mod) (off : Nat) : Nat :=
  match off with
  | 0x00 => 0x01001600
  | 0x04 => fz.serial % 2 ^ 32
  | 0x08 => fz.serial / 2 ^ 32 % 2 ^ 32
  | 0x0C => match m.front.modId with
    | none => 0
    | some i => i % 4096 + 4096
  | 0x10 => glbStatus m
  | 0x14 => profileNow m + 4 * b2n (profileNow m == 0)
  | 0x18 => m.front.stage % 16
  | 0x1C => m.front.xdTimeout % 2 ^ 32
  | 0x180 => fz.revoke % 16
  | 0x184 => fz.svnMin % 2 ^ 32
  | 0x188 => fz.svnMin / 2 ^ 32 % 2 ^ 32
  | 0x18C => b2n fz.debugLock
  | _ => if 0x100 ≤ off && off < 0x180 then fld (fz.keyHash[(off - 0x100) / 32 % 4]'(Nat.mod_lt _ (by decide))) (off % 32) 0 32 else 0

/-- PWR_ registers from 0x1000 (Table 15-6). -/
def pwrRead (m : Mod) (off : Nat) : Nat :=
  let x := m.sys.pw
  match off with
  | 0x00 => pwrBits m
  | 0x04 => capsNow m
  | 0x08 => capEff m % 65536 + 65536 * capHigh m
  | 0x0C => x.conf.fracC + 256 * x.conf.fracM + 65536 * x.conf.fracL
  | 0x10 => x.inMw % 2 ^ 24
  | 0x14 => x.compMw % 2 ^ 24
  | 0x18 => x.memMw % 2 ^ 24
  | 0x1C => x.linkMw % 2 ^ 24
  | 0x20 => x.fixedMw % 2 ^ 24
  | 0x24 => (x.tj % 65536).toNat
  | 0x28 => x.vin % 2 ^ 17
  | _ => 0

/-- SEQ of the newest fault record, 0 before the first (WMB_LOG_HEAD). -/
def logHead (m : Mod) : Nat := ((m.sys.wd.log.head?.map FaultRec.seq).getD 0) % 2 ^ 32

/-- FLT_ registers from 0x1800 (Table 15-7). -/
def fltRead (m : Mod) (off : Nat) : Nat :=
  let f := m.fence
  match off with
  | 0x00 => fltBits m
  | 0x04 => logHead m
  | 0x08 => f.polder.orRead % 2 ^ 16
  | 0x30 => f.berm.orRead % 2 ^ 16
  | 0x34 => f.toe.orRead % 2 ^ 32
  | 0x38 => f.link.orRead % 2 ^ 12
  | 0x3C => f.units.orRead % 2 ^ 32
  | 0x40 => f.vdom.orRead % 2 ^ 16
  | 0x44 => f.phase.orRead % 2 ^ 24
  | 0x48 => f.sensor.orRead % 2 ^ 32
  | 0x4C => f.sensor.orRead / 2 ^ 32 % 16
  | _ => if 0x10 ≤ off && off < 0x30 then (List.range 32).foldl (fun (v : Nat) n => setBit v n (arrayFenced m (8 * (off - 0x10) + n))) 0 else 0

/-- A port of the module by number. -/
def portNo (k : Nat) : Fin 4 := ⟨k % 4, Nat.mod_lt k (by decide)⟩

/-- TRF_ registers from 0x2000 (Table 15-8). -/
def trfRead (m : Mod) (off : Nat) : Nat :=
  let lock (k : Nat) : Nat := b2n (syncOf m k).locked
  match off with
  | 0x00 => lock 0 + 2 * b2n (syncOf m 0).holdover + ((List.range 4).map (fun k => 2 ^ (2 + k) * lock (1 + k) + 2 ^ (6 + k) * b2n (syncOf m (1 + k)).holdover)).sum +
      ((List.range 16).map (fun p => 2 ^ (10 + p) * lock (5 + p))).sum
  | 0x04 => m.sys.time.conf % 65536
  | 0x08 => m.sys.time.stepNs % 2 ^ 32
  | 0x0C => ((syncOf m 0).offset % 2 ^ 31).toNat
  | _ => 0

/-- SLU_ registers of a port (Table 15-8). -/
def sluRead (m : Mod) (k : Fin 4) (off : Nat) : Nat :=
  let po := m.net.ports[k]
  match off with
  | 0x00 => b2n po.sluice.isSome + 2 * b2n po.change.isSome + 256 * (po.entry % 256)
  | 0x04 => po.gates % 256
  | 0x08 => ((po.sluice.map Sluice.cycle).getD 0) % 2 ^ 32
  | 0x0C => ((po.sluice.map (fun s => s.entries.length)).getD 0) % 512
  | 0x10 => po.changeTime % 2 ^ 32
  | 0x14 => po.changeTime / 2 ^ 32 % 2 ^ 32
  | _ => 0

/-- A unit is held at a polder's policer: a ring's head at CMD, a frame of a port's queue at EGR; ING holds none (R314, Table 15-9). -/
def polHeldBit (m : Mod) (p : Fin 16) (i : Fin 6) : Bool :=
  if i.val < 2 then m.pol[p].sqs.toList.any (fun s => s.held.isSome && s.heldIdx == i.val)
  else if i.val < 4 then m.net.ports.toList.any (fun po => po.queue.any (fun f => f.pol == p.val && polIdx 1 f.cls == i && f.held.isSome && !f.passed))
  else false

/-- POL_ registers of a policer (Table 15-9). -/
def polRead (m : Mod) (p : Fin 16) (i : Fin 6) (off : Nat) : Nat :=
  let s := m.pol[p].polic[i].set
  match off with
  | 0x00 => b2n s.en + 2 * b2n s.aware + 4 * s.yAct + 16 * s.rAct
  | 0x04 => s.cir % 2 ^ 32
  | 0x08 => s.pir % 2 ^ 32
  | 0x0C => s.cbs % 2 ^ 32
  | 0x10 => s.pbs % 2 ^ 32
  | 0x14 => b2n (polHeldBit m p i)
  | _ => 0

/-- WFQ_WEIGHT word w of an arbiter: 0 for a polder that is not composed (Table 15-9). -/
def wfqRead (m : Mod) (arb w : Nat) : Nat :=
  ((List.range 4).map (fun n =>
    let p := pn (4 * w + n)
    if m.pol[p].composed then 2 ^ (8 * n) * (wfqWeight m p arb % 256) else 0)).sum

/-- A unit lies in the slice of a composed sealed polder (R433). -/
def sealedUnit (m : Mod) (ty i : Nat) : Bool :=
  match ownerPol m ty i with
  | none => false
  | some p => m.pol[p].sealed

/-- A slot of the module's holding region belongs to a unit of a sealed slice, or to a sealed polder's energy (R378, R433). -/
def slotSealed (m : Mod) (o : Nat) : Bool :=
  let i (base : Nat) : Nat := (o - base) / 8
  if 0x8040 ≤ o && o < 0x8880 then
    (if i 0x8040 < 160 then sealedUnit m 0x03 (i 0x8040 % 32) else if i 0x8040 == 160 then false else sealedUnit m 0x03 ((i 0x8040 - 161) % 32))
  else if 0x88C0 ≤ o && o < 0xB0C0 then sealedUnit m 0x01 (i 0x88C0 % 256)
  else if 0xB100 ≤ o && o < 0xB200 then sealedUnit m 0x03 (i 0xB100)
  else if 0xB3F0 ≤ o && o < 0xB470 then sealedUnit m 0x02 (i 0xB3F0)
  else if 0xB528 ≤ o && o < 0xBD28 then sealedUnit m 0x01 (i 0xB528)
  else if 0xBD40 ≤ o && o < 0xC540 then sealedUnit m 0x01 (i 0xBD40)
  else if 0xC800 ≤ o && o < 0xD100 then m.pol[pn (i 0xC800 / 18)].sealed
  else false

/-- A 4-byte read of the module's holding region (R445, R446); the energy block is PV (Table 15-11). -/
def holdRead (m : Mod) (off : Nat) (pr : Priv) : Nat :=
  let o := off / 8 * 8
  if slotSealed m o || (0xC800 ≤ o && o < 0xD100 && !pr.pv) then 0 else m.front.hold.rd o / 2 ^ (8 * (off % 8)) % 2 ^ 32

/-- The value of CMP_ register i (R448): sums leave out sealed polders and units of sealed slices. -/
def cmpValue (m : Mod) (i : Nat) : Nat :=
  let pols (k : Nat) : Nat := ((List.finRange 16).map (fun p => if m.pol[p].sealed then 0 else m.pol[p].ctr.rd k)).sum
  let polsN (n : Nat) (k : Nat → Nat) : Nat := ((List.range n).map (fun j => pols (k j))).sum
  let units (ty n : Nat) (k : Nat → Nat) : Nat := ((List.range n).map (fun j => if sealedUnit m ty j then 0 else m.ctr.rd (k j))).sum
  (match i with
  | 0 => pols Ctr.tokensOut
  | 1 => pols Ctr.genRequests
  | 2 => polsN 16 Ctr.cmdTaken
  | 3 => pols Ctr.vecQueries
  | 4 => pols Ctr.pumpBytes
  | 5 => units 0x03 32 Ctr.scanBytes
  | 6 => m.ctr.rd (Ctr.eccCorr 0) + m.ctr.rd (Ctr.eccCorr 1) + m.ctr.rd (Ctr.eccCorr 2) + units 0x01 256 (fun a => Ctr.eccCorr (3 + a))
  | 7 => m.ctr.rd (Ctr.eccUncorr 0) + m.ctr.rd (Ctr.eccUncorr 1) + m.ctr.rd (Ctr.eccUncorr 2) + units 0x01 256 (fun a => Ctr.eccUncorr (3 + a))
  | 8 => m.ctr.rd Ctr.faultRecords
  | 9 => units 0x01 256 Ctr.resFault
  | 10 => units 0x01 256 Ctr.hsStall
  | 11 => polsN 32 Ctr.passes
  | 12 => pols Ctr.krnItems
  | 13 => pols Ctr.ckptCommitted
  | 14 => m.hvl
  | _ => pols Ctr.sessOpened) % 2 ^ 64

/-- A user master reads CMP_ only while CMP_OPEN is set (R432). -/
def cmpSeen (m : Mod) (pr : Priv) : Bool := pr.pv || bit (privMapNow m) 16

/-- CMP_LO_READ (R449): the live low word, the high word latched into the one shadow. A read that CMP_OPEN keeps from a user latches nothing. -/
def cmpLoRead (m : Mod) (i : Fin 16) (pr : Priv) : Mod :=
  if !cmpSeen m pr then emit m (.reg 0)
  else
    let v := cmpValue m i.val
    emit { m with front := { m.front with cmpShadow := v / 2 ^ 32, cmpLatches := (m.front.cmpLatches + 1) % 2 ^ 32 } } (.reg (v % 2 ^ 32))

/-- CMP_HI_READ (R449): the shadow, whichever register is named. -/
def cmpHiRead (m : Mod) (_i : Fin 16) (pr : Priv) : Mod := emit m (.reg (if cmpSeen m pr then m.front.cmpShadow else 0))

/-- CMP_ registers without a latch (Table 15-13). -/
def cmpRead (m : Mod) (off : Nat) (pr : Priv) : Nat :=
  if off == 0x00 then 0x16000800
  else if !cmpSeen m pr then 0
  else if off == 0x04 then m.front.cmpShadow
  else if off == 0x08 then m.front.cmpLatches
  else 0

/-- TST_ registers (Table 15-14): RW registers read zero while DEBUG_LOCK is blown. -/
def tstRead (fz : Fuses) (m : Mod) (off : Nat) (pr : Priv) : Nat :=
  match off with
  | 0x00 => b2n fz.debugLock
  | 0x04 => m.sys.wd.tstIgnored
  | 0x08 => m.sys.wd.tstInjected
  | 0x24 => if fz.debugLock || !pr.pv then 0 else m.sys.wd.sensorReg
  | _ => 0

/-- A submission or completion ring's registers (Table 15-10). -/
def dblRead (q : Polder) (off : Nat) : Nat :=
  if off < 0x600 then
    let s := q.sqs[pn ((off - 0x400) / 32)]
    match off % 32 with
    | 0x00 => s.base % 2 ^ 32
    | 0x04 => s.base / 2 ^ 32 % 2 ^ 32
    | 0x08 => s.order + 16 * s.cq + 256 * b2n s.en
    | 0x0C => s.tail % 65536
    | 0x10 => s.head % 65536
    | _ => 0
  else
    let c := q.cqs[pn ((off - 0x600) / 32)]
    match off % 32 with
    | 0x00 => c.base % 2 ^ 32
    | 0x04 => c.base / 2 ^ 32 % 2 ^ 32
    | 0x08 => c.order + 16 * c.vector + 512 * b2n c.en
    | 0x0C => c.modCount + 65536 * c.modUs
    | 0x10 => c.head % 65536
    | 0x14 => c.posted % 65536
    | _ => 0

/-- A register of a polder's aperture (Table 15-2); PCNT_ and PPWR_ of a sealed polder read zero (R433). -/
def polderRead (m : Mod) (p : Fin 16) (off : Nat) : Nat :=
  let q := m.pol[p]
  if off < 0x400 then mbxRead q.mbx off
  else if off < 0x800 then dblRead q off
  else if off == 0x800 then q.pintEn
  else if 0x1000 ≤ off && off < 0x2000 && !q.sealed then q.hold.rd (off / 8 * 8) / 2 ^ (8 * (off % 8)) % 2 ^ 32
  else if q.sealed then 0
  else match off with
    | 0x2000 => q.pw.vcore % 65536
    | 0x2004 => q.pw.pace % 2 ^ 31
    | 0x2008 => q.pw.conf.policy + 256 * q.pw.conf.weight + 65536 * q.pw.conf.vSet
    | _ => 0

/-- A register of the management aperture (Table 15-2) as its owning domain holds it. -/
def mgmtRead (fz : Fuses) (m : Mod) (off : Nat) (pr : Priv) : Nat :=
  if off < 0x400 then glbRead fz m off
  else if off < 0x800 then
    (if (off == 0x400 || (0x440 ≤ off && off < 0x480)) && !pr.pv then 0 else mbxRead m.front.mbx (off - 0x400))
  else if off == 0x800 then (if pr.pv then m.front.intEn else 0)
  else if off == 0xC00 then m.front.snapNum % 2 ^ 32
  else if off == 0xC04 then 1
  else if off < 0x1000 then 0
  else if off < 0x1800 then pwrRead m (off - 0x1000)
  else if off < 0x2000 then fltRead m (off - 0x1800)
  else if off < 0x2800 then trfRead m (off - 0x2000)
  else if off < 0x2C00 then sluRead m (portNo ((off - 0x2800) / 256)) (off % 256)
  else if off < 0x3000 then 0
  else if off < 0x3C00 then
    polRead m (pn ((off - 0x3000) / 192)) ⟨(off - 0x3000) % 192 / 32 % 6, Nat.mod_lt _ (by decide)⟩ (off % 32)
  else if off < 0x3D20 then (if off % 32 < 16 then wfqRead m ((off - 0x3C00) / 32) (off % 32 / 4) else 0)
  else if off < 0x4000 then 0
  else if off < 0x6000 then cmpRead m (off - 0x4000) pr
  else if off < 0x8000 then tstRead fz m (off - 0x6000) pr
  else holdRead m off pr

/-- A register of the secure aperture (Table 15-15); every one is PV (R431). -/
def secRead (fz : Fuses) (m : Mod) (off : Nat) (pr : Priv) : Nat :=
  if !pr.pv then 0
  else if off == 0x00 then b2n fz.debugLock + 2 * b2n m.entropyOk + 4 * b2n m.sys.wd.bootFail
  else if off == 0x04 then privMapNow m
  else if 0x100 ≤ off && off < 0x200 then
    let q := m.pol[pn ((off - 0x100) / 16)]
    match off % 16 with
    | 0x0 => keyselOf q % 8
    | 0x4 => q.keyEpoch
    | 0x8 => q.sec.bbEpoch
    | _ => 0
  else 0

/-- WMB_STAT (Table 13-6). -/
def wmbStat (x : Wmb) : Nat :=
  b2n x.busy + 2 * b2n x.done + 256 * (x.status % 256) + 65536 * (x.tag % 256) + 16777216 * b2n x.src

/-- WMB_STATE (Table 13-7). -/
def wmbState (m : Mod) : Nat :=
  let w := m.sys.wd
  b2n w.vinGood + 2 * b2n w.coresWedged + 4 * b2n w.fabWedged + 8 * b2n w.bootFail + 16 * b2n (m.sys.pw.mode == 2) + 32 * b2n w.sealed +
  64 * b2n w.thermHigh + 128 * b2n w.thermTrip + 256 * (m.fence.polder.orRead % 65536)

/-- A register of the warden aperture (Table 13-5). -/
def wmbRead (m : Mod) (off : Nat) (pr : Priv) : Nat :=
  let x := m.sys.wd.mbx
  let pv (v : Nat) : Nat := if pr.pv then v else 0
  if off == 0x000 then pv x.cmd
  else if off == 0x008 then wmbStat x
  else if off == 0x00C then x.dropped
  else if off == 0x010 then wmbState m
  else if off == 0x014 then pv x.dwin
  else if off == 0x018 then pv (m.sys.wd.conf.read (fun _ _ _ => 1) % 2)
  else if off == 0x01C then logHead m
  else if 0x040 ≤ off && off < 0x080 then pv (wordOf x.arg ((off - 0x040) / 4))
  else if 0x080 ≤ off && off < 0x0C0 then wordOf x.res ((off - 0x080) / 4)
  else if 0x800 ≤ off && off < 0x1000 then wordOf (bufBytes m.sys.wd.buf) ((2048 * x.dwin + off - 0x800) / 4)
  else 0

-- Cross-domain reads (R434, R435).

/-- A register is cross-domain: its description carries XD. -/
def isXd (r : Region) (off : Nat) : Bool :=
  match r with
  | .mgmt =>
    off == 0x10 || off == 0x1000 || (0x1010 ≤ off && off ≤ 0x1028 && off % 4 == 0) || off == 0x1800 || off == 0x1804 || off == 0x2000 || off == 0x200C ||
    (0x2800 ≤ off && off < 0x2C00 && off % 256 < 8 && off % 4 == 0) || (0x3000 ≤ off && off < 0x3C00 && (off - 0x3000) % 32 == 0x14)
  | .pol _ => off == 0x2000 || off == 0x2004
  | _ => false

/-- The domain that owns a cross-domain register is fenced or wedged: management cores and power controller with every pair silent, a polder's units with
its fence, a port with its own (R435). The warden and the time counters are neither. -/
def ownerDown (m : Mod) (r : Region) (off : Nat) : Bool :=
  match r with
  | .mgmt =>
    if off < 0x1800 then m.sys.wd.coresWedged
    else if off < 0x2800 then false
    else if off < 0x2C00 then unitFenced m 0x04 ((off - 0x2800) / 256)
    else m.pol[pn ((off - 0x3000) / 192)].fenced
  | .pol p => m.pol[p].fenced
  | _ => false

/-- The raw value of a register, as a privileged master reads it. -/
def rawRead (fz : Fuses) (m : Mod) (r : Region) (off : Nat) (pr : Priv) : Nat :=
  match r with
  | .mgmt => mgmtRead fz m off pr
  | .pol p => polderRead m p off
  | .sec => secRead fz m off pr
  | .wmb => wmbRead m off pr

/-- A cross-domain register that reads zero to this master: domain powers are PV (R345, R440). -/
def hidden (r : Region) (off : Nat) (pr : Priv) : Bool := !pr.pv && r == .mgmt && decide (0x1014 ≤ off) && decide (off ≤ 0x1020)

/-- What a master sees of a cross-domain value: input power is rounded to 5 W, ties up, for all but privileged ones (R345, R440). -/
def seen (r : Region) (off : Nat) (pr : Priv) (v : Nat) : Nat :=
  if hidden r off pr then 0
  else if !pr.pv && r == .mgmt && off == 0x1010 then (v + 2500) / 5000 * 5000
  else v

/-- Where the front end keeps the mirror of a register. -/
def mirrorKey (r : Region) (off : Nat) : Nat :=
  match r with
  | .pol p => 65536 * (p.val + 1) + off
  | _ => off

/-- Mirror mode: the profile in force is 0 (R434). -/
def mirrorMode (m : Mod) : Bool := profileNow m == 0

/-- Every cross-domain register of the module. -/
def xdRegs : List (Region × Nat) :=
  ([0x10, 0x1000, 0x1010, 0x1014, 0x1018, 0x101C, 0x1020, 0x1024, 0x1028, 0x1800, 0x1804, 0x2000, 0x200C].map (fun o => (Region.mgmt, o))) ++
  (List.range 4).flatMap (fun k => [(Region.mgmt, 0x2800 + 256 * k), (Region.mgmt, 0x2804 + 256 * k)]) ++
  (List.range 96).map (fun i => (Region.mgmt, 0x3014 + 32 * i)) ++
  (List.finRange 16).flatMap (fun p => [(Region.pol p, 0x2000), (Region.pol p, 0x2004)])

/-- A register of a sealed polder's PPWR_ block, which reads zero to every master (R433). -/
def sealedReg (m : Mod) (r : Region) : Bool :=
  match r with
  | .pol p => m.pol[p].sealed
  | _ => false

/-- A read in mirror mode: the mirrored value, STALE when it has changed since or its domain is down (R434, R435); all of a PV register reads zero to
other masters (R18). -/
def mirrorRead (fz : Fuses) (m : Mod) (r : Region) (off : Nat) (pr : Priv) : Nat :=
  let v := (m.sys.boot.mirror.get (mirrorKey r off)).getD 0
  if sealedReg m r then 0 else seen r off pr v + 2 ^ 31 * b2n (!hidden r off pr && (ownerDown m r off || v != rawRead fz m r off .secure))

/-- A holding register (Table 15-2). -/
def isHold (r : Region) (off : Nat) : Bool :=
  match r with
  | .mgmt => decide (0x8000 ≤ off)
  | .pol _ => decide (0x1000 ≤ off) && decide (off < 0x2000)
  | _ => false

/-- XD_STALL_READ (R434): a register read. In stall mode a cross-domain read returns its domain's value with STALE 0, and waits while that domain is down
(XD_TIMEOUT ends it). In mirror mode, and for every other register, the read never waits. A `wide` read is one of 8 bytes, which holding registers
take; a 4-byte read of them returns the addressed half (R17, R445). An access of another width or alignment has no effect (DESIGN CHOICE, log 67). -/
def xdStallRead (fz : Fuses) (m : Mod) (r : Region) (off : Nat) (pr : Priv) (wide : Bool) : Mod :=
  if wide then
    if off % 8 == 0 && isHold r off then emit m (.reg (rawRead fz m r off pr + 2 ^ 32 * rawRead fz m r (off + 4) pr)) else m
  else if off % 4 != 0 then m
  else if r == .mgmt && 0x4100 ≤ off && off < 0x4180 then
    (if off % 8 == 0 then cmpLoRead m (pn ((off - 0x4100) / 8)) pr else cmpHiRead m (pn ((off - 0x4100) / 8)) pr)
  else if !isXd r off then emit m (.reg (rawRead fz m r off pr))
  else if mirrorMode m then emit m (.reg (mirrorRead fz m r off pr))
  else if ownerDown m r off then m
  else emit m (.reg (seen r off pr (rawRead fz m r off .secure)))

/-- XD_TIMEOUT (R434): a stall read that no answer ended. -/
def xdTimeoutRow (m : Mod) (r : Region) (off : Nat) : Mod :=
  if isXd r off && !mirrorMode m then
    emit { m with front := { m.front with xdTimeout := (m.front.xdTimeout + 1) % 2 ^ 32 } } (.reg 0xFFFFFFFF)
  else m

/-- The mirrors taken again, but of a domain that is down (R434, R435). -/
def takeMirrors (fz : Fuses) (m : Mod) : Mod :=
  modBoot m (fun b => { b with mirror := xdRegs.foldl (fun (t : SMap Nat) x =>
    if ownerDown m x.1 x.2 then t else t.put (mirrorKey x.1 x.2) (rawRead fz m x.1 x.2 .secure)) b.mirror })

/-- MIRROR_REFRESH: a warden tick (R434). WEDGED_MS counts a millisecond, 1,024 ticks, with CORES_WEDGED or FAB_WEDGED set (Table 13-13). -/
def mirrorRefresh (fz : Fuses) (m : Mod) : Mod :=
  let m1 := modWd m (fun w => { w with ticks := w.ticks + 1 })
  let w := m1.sys.wd
  let m2 := if (w.coresWedged || w.fabWedged) && w.ticks % 1024 == 0 then minc m1 Ctr.wedgedMs 1 else m1
  if mirrorMode m2 then takeMirrors fz m2 else m2

-- Mailboxes (R404 to R407).

/-- A write of a PV register: a user's is ignored and counted (R431). -/
def pvWrite (m : Mod) (pr : Priv) (f : Mod → Mod) : Mod := if pr.pv then f m else minc m Ctr.pvRefused 1

/-- A management opcode that Table 14-4 gives the management mailbox. -/
def mgmtOp (op : Nat) : Bool := (0x80 ≤ op && op ≤ 0x90) || (0x93 ≤ op && op ≤ 0x95)

/-- What a management command completes with at acceptance, before its own row (R407, R484, R485). -/
def mgmtRefuse (m : Mod) (op : Nat) (a : Block) : Option Nat :=
  if !mgmtOp op then some stBadCmd
  else if m.sys.boot.crestFail then (if op == 0x86 || op == 0x84 || op == 0x85 || op == 0x95 then none else some stFenced)
  else if !m.front.ready then
    (if op == 0x8F || op == 0x93 || op == 0x95 || op == 0x86 || op == 0x84 || (op == 0x88 && !flg a 0 0) then none else some stRetry)
  else none

/-- A polder mailbox accepts a command for its own polder only (R407). -/
def ownArg (p : Fin 16) (op : Nat) (a : Block) : Bool :=
  if op == 0x82 || op == 0x83 then fld a 0 0 4 == p.val
  else if op == 0x86 || op == 0x87 || op == 0x90 || op == 0x94 then fld a 0 0 8 == p.val
  else if op == 0x88 then flg a 0 0 && fld a 1 0 8 == p.val
  else if op == 0x95 then flg a 0 0 && fld a 1 0 4 == p.val
  else false

/-- What a polder mailbox command completes with at acceptance (R368, R389, R407). -/
def polRefuse (m : Mod) (p : Fin 16) (op : Nat) (a : Block) (pr : Priv) : Option Nat :=
  let q := m.pol[p]
  if !ownArg p op a then some stBadCmd
  else if (op == 0x82 || op == 0x83) && !pr.pv then some stBadCmd
  else if q.sealed && q.sec.bbEpoch == 0 && op != 0x86 && op != 0x87 then some stBadCmd
  else if q.fenced && op != 0x82 && op != 0x83 then some stFenced
  else none

/-- The command at GO accepted: BUSY 1, DONE 0, TAG latched, CMD and the LEN words of ARG as they stand (Table 14-3, R404). -/
def acceptGo (x : Mbx) (pr : Priv) : Mbx :=
  let len := min 16 (x.cmd / 256 % 32)
  { x with busy := true, done := false, tag := x.cmd / 65536 % 65536, runCmd := x.cmd, runArg := x.arg % 2 ^ (32 * len), runPriv := pr, started := false }

/-- A GO write to an idle mailbox: nothing serves it before MBX_READY, without firmware, or while the module is sealed or its cores are wedged. -/
def goWrite (m : Mod) (b : Box) (pr : Priv) : Mod :=
  let w := m.sys.wd
  if !m.front.mbxReady || w.bootFail || w.sealed || w.coresWedged then m
  else
    let m1 := modMbx m b (fun x => acceptGo x pr)
    let x := getMbx m1 b
    let op := x.runCmd % 256
    let refuse := match b with
      | .mgmt => mgmtRefuse m1 op x.runArg
      | .pol p => polRefuse m1 p op x.runArg pr
    let m2 := match b with
      | .mgmt => m1
      | .pol p => if (op == 0x82 || op == 0x83) && ownArg p op x.runArg && !pr.pv then minc m1 Ctr.pvRefused 1 else m1
    match refuse with
    | some st => mbxDone m2 b st 0
    | none => m2

/-- A write to a mailbox register: CMD, ARG and GO are ignored and counted while BUSY (R405); RES, STAT and DROPPED are read only. -/
def mbxWrite (m : Mod) (b : Box) (off v : Nat) (pr : Priv) : Mod :=
  let arg := 0x40 ≤ off && off < 0x80
  if !(off == 0 || off == 4 || arg) then m
  else if (getMbx m b).busy then modMbx m b (fun x => { x with dropped := (x.dropped + 1) % 2 ^ 32 })
  else if off == 0 then modMbx m b (fun x => { x with cmd := v % 2 ^ 14 + v / 2 ^ 16 * 2 ^ 16 })
  else if off == 4 then goWrite m b pr
  else modMbx m b (fun x => { x with arg := putWord x.arg ((off - 0x40) / 4) v })

/-- A warden command accepted (R395). -/
def wmbAccept (x : Wmb) (src : Bool) : Wmb :=
  { x with busy := true, done := false, tag := x.cmd / 256 % 256, src := src, runCmd := x.cmd, runArg := x.arg, started := false }

/-- A GO of the warden mailbox: other opcodes complete with BAD_CMD, and with BOOT_FAIL only three are served (R356, R396). -/
def wmbGo (m : Mod) (src : Bool) : Mod :=
  let m1 := modWmb m (fun x => wmbAccept x src)
  let op := m1.sys.wd.mbx.runCmd % 256
  let known := 0xC0 ≤ op && op ≤ 0xC5
  let served := !m.sys.wd.bootFail || op == 0xC0 || op == 0xC4 || op == 0xC5
  if known && served then m1 else wdDone m1 stBadCmd 0

/-- A write to the warden aperture by a privileged master (Table 13-5, R395). -/
def wmbPut (m : Mod) (off v : Nat) (src : Bool) : Mod :=
  let arg := 0x040 ≤ off && off < 0x080
  if off == 0x014 then modWmb m (fun x => { x with dwin := v % 8 })
  else if off == 0x018 then modWd m (fun w => { w with conf := Tri.mk1 (v % 2) })
  else if !(off == 0 || off == 4 || arg) then m
  else if m.sys.wd.mbx.busy then modWmb m (fun x => { x with dropped := (x.dropped + 1) % 2 ^ 32 })
  else if off == 0 then modWmb m (fun x => { x with cmd := v % 65536 })
  else if off == 4 then wmbGo m src
  else modWmb m (fun x => { x with arg := putWord x.arg ((off - 0x40) / 4) v })

/-- A warden register that takes writes: all of them are PV. -/
def wmbPv (off : Nat) : Bool := off == 0 || off == 4 || off == 0x014 || off == 0x018 || (0x040 ≤ off && off < 0x080)

-- Test perturbations (R451).

/-- A TST_ write while DEBUG_LOCK is blown is ignored and counted in TST_IGNORED; else PV holds. -/
def tstWrite (fz : Fuses) (m : Mod) (pr : Priv) (f : Mod → Mod) : Mod :=
  if fz.debugLock then modWd m (fun w => { w with tstIgnored := (w.tstIgnored + 1) % 2 ^ 32 }) else pvWrite m pr f

/-- A perturbation armed for its unit's next operation; one armed before at the same place is replaced. -/
def armAdd (m : Mod) (x : Arm) : Mod := modWd m (fun w => { w with arms := w.arms.filter (fun y => y != x) ++ [x] })

/-- TST_RES_INJECT: a fenced array takes none. -/
def tstResInject (fz : Fuses) (m : Mod) (v : Nat) (pr : Priv) : Mod := tstWrite fz m pr (fun m =>
  let a := v % 256
  if bit v 8 && !arrayFenced m a then armAdd m { kind := 0, target := 0, double := false, unit := a } else m)

/-- TST_ECC_INJECT: target 0 Crest, 1 an activation store, 2 a Berm device. -/
def tstEccInject (fz : Fuses) (m : Mod) (v : Nat) (pr : Priv) : Mod := tstWrite fz m pr (fun m =>
  let tgt := v % 4
  let u := v / 256 % 256
  let ok := match tgt with
    | 0 => true
    | 1 => !arrayFenced m u
    | 2 => decide (u < 16) && !unitFenced m 0x02 u
    | _ => false
  if bit v 16 && ok then armAdd m { kind := 1, target := tgt, double := bit v 2, unit := if tgt == 0 then 0 else u } else m)

/-- TST_STALL_INJECT. -/
def tstStallInject (fz : Fuses) (m : Mod) (v : Nat) (pr : Priv) : Mod := tstWrite fz m pr (fun m =>
  let a := v % 256
  if bit v 8 && !arrayFenced m a then armAdd m { kind := 2, target := 0, double := false, unit := a } else m)

/-- TST_LOCKSTEP_INJECT. -/
def tstLockstepInject (fz : Fuses) (m : Mod) (v : Nat) (pr : Priv) : Mod := tstWrite fz m pr (fun m =>
  let k := v % 4
  if bit v 2 && !unitFenced m 0x06 k then armAdd m { kind := 3, target := 0, double := false, unit := k } else m)

/-- TST_SENSOR_OFFSET: a signed offset added to a sensor's reading. -/
def tstSensorOffset (fz : Fuses) (m : Mod) (v : Nat) (pr : Priv) : Mod := tstWrite fz m pr (fun m =>
  let i := v % 64
  let o : Int := if bit v 31 then ((v / 65536 % 65536 : Nat) : Int) - 65536 else ((v / 65536 % 65536 : Nat) : Int)
  modWd m (fun w => { w with
    sensorReg := i + v / 65536 % 65536 * 65536
    sensorOff := if 36 ≤ i || fencedBit m.fence.sensor i then w.sensorOff else w.sensorOff.put i o }))

/-- One copy of a triplicated field changed. -/
def flipCopy {α : Type} (t : Tri α) (copy : Nat) (f : α → α) : Tri α :=
  match copy with
  | 0 => { t with a := f t.a }
  | 1 => { t with b := f t.b }
  | 2 => { t with c := f t.c }
  | _ => t

/-- A number inverted in its field's width. -/
def invert (w v : Nat) : Nat := v % 2 ^ w ^^^ (2 ^ w - 1)

/-- Slice masks inverted. -/
def invMasks (x : Masks) : Masks := { arr := invert 16 x.arr, crest := invert 64 x.crest, berm := invert 16 x.berm, toe := invert 16 x.toe }

/-- One copy of every fence mask inverted. -/
def flipFences (f : Fences) (c : Nat) : Fences :=
  { polder := flipCopy f.polder c (invert 16), array := flipCopy f.array c (invert 256), berm := flipCopy f.berm c (invert 16),
    toe := flipCopy f.toe c (invert 32), link := flipCopy f.link c (invert 12), units := flipCopy f.units c (invert 32),
    vdom := flipCopy f.vdom c (invert 16), phase := flipCopy f.phase c (invert 24), sensor := flipCopy f.sensor c (invert 36) }

/-- One copy of the field, or fields, of a row of Table 15-3 inverted. -/
def flipRow (m : Mod) (row c : Nat) : Mod :=
  match row with
  | 0 => { m with front := { m.front with profile := flipCopy m.front.profile c (invert 2) } }
  | 1 => { m with pol := m.pol.map (fun q => { q with masks := flipCopy q.masks c invMasks }) }
  | 2 => modPw m (fun x => { x with caps := flipCopy x.caps c (invert 32) })
  | 3 => modFence m (fun f => flipFences f c)
  | 4 => { m with pol := m.pol.map (fun q => { q with sec := { q.sec with keysel := flipCopy q.sec.keysel c (invert 3) } }) }
  | 5 => { m with front := { m.front with privMap := flipCopy m.front.privMap c (invert 17) } }
  | _ => modWd m (fun w => { w with conf := flipCopy w.conf c (invert 1) })

/-- TST_TR_INJECT: one copy inverted at once. -/
def tstTrInject (fz : Fuses) (m : Mod) (v : Nat) (pr : Priv) : Mod := tstWrite fz m pr (fun m =>
  let row := v % 8
  let c := v / 8 % 4
  if bit v 5 && row != 7 && c != 3 then
    modWd (flipRow m row c) (fun w => { w with tstInjected := (w.tstInjected + 1) % 2 ^ 32 })
  else m)

-- Register writes (R431, R432).

/-- SEC_PRIV_MAP_WRITE (R432): all three copies at once. -/
def secPrivMapWrite (m : Mod) (v : Nat) (pr : Priv) : Mod :=
  pvWrite m pr (fun m => { m with front := { m.front with privMap := Tri.mk1 (v % 2 ^ 17) } })

/-- A write to the management aperture; every register but these is RO, LV or HD, or no register at all. -/
def mgmtWrite (fz : Fuses) (m : Mod) (off v : Nat) (pr : Priv) : Mod :=
  if off == 0x400 || off == 0x404 || (0x440 ≤ off && off < 0x480) then pvWrite m pr (fun m => mbxWrite m .mgmt (off - 0x400) v pr)
  else if off == 0x800 then pvWrite m pr (fun m => { m with front := { m.front with intEn := v % 256 } })
  else if off == 0x1014 || off == 0x1018 || off == 0x101C || off == 0x1020 || (0xC800 ≤ off && off < 0xD100) then pvWrite m pr (fun m => m)
  else if off == 0x6010 then tstResInject fz m v pr
  else if off == 0x6014 then tstEccInject fz m v pr
  else if off == 0x6018 then tstStallInject fz m v pr
  else if off == 0x601C then tstLockstepInject fz m v pr
  else if off == 0x6020 then tstTrInject fz m v pr
  else if off == 0x6024 then tstSensorOffset fz m v pr
  else if fz.debugLock && (off == 0x6000 || off == 0x6004 || off == 0x6008) then tstWrite fz m pr (fun m => m)
  else m

/-- A write to a polder's aperture (Table 15-2). -/
def polAperture (m : Mod) (p : Fin 16) (off v : Nat) (pr : Priv) : Mod :=
  let r := pn ((off - 0x400) / 32)
  if off < 0x400 then mbxWrite m (.pol p) off v pr
  else if off < 0x600 then
    match off % 32 with
    | 0x00 => sqBaseWrite m p r false v
    | 0x04 => sqBaseWrite m p r true v
    | 0x08 => sqCtrlWrite m p r v pr
    | 0x0C => sqTailWrite m p r v pr
    | _ => m
  else if off < 0x800 then
    match off % 32 with
    | 0x00 => cqBaseWrite m p r false v
    | 0x04 => cqBaseWrite m p r true v
    | 0x08 => cqCtrlWrite m p r v pr
    | 0x0C => cqModWrite m p r v
    | 0x10 => cqHeadWrite m p r v pr
    | _ => m
  else if off == 0x800 then modPol m p (fun q => { q with pintEn := v })
  else m

/-- A register of the secure aperture; each is PV (R431). -/
def secReg (off : Nat) : Bool := off == 0 || off == 4 || (0x100 ≤ off && off < 0x200 && off % 16 < 12)

/-- REGISTER_WRITE (R431): a 4-byte aligned write of any aperture over HVL. The spec gives no effect of an access that is not aligned: it has none
(DESIGN CHOICE, log 67). -/
def registerWrite (fz : Fuses) (m : Mod) (r : Region) (off v0 : Nat) (pr : Priv) : Mod :=
  let v := v0 % 2 ^ 32
  if off % 4 != 0 then m
  else match r with
  | .mgmt => mgmtWrite fz m off v pr
  | .pol p => polWrite m p pr (fun m => polAperture m p off v pr)
  | .sec => if off == 4 then secPrivMapWrite m v pr else if secReg off then pvWrite m pr (fun m => m) else m
  | .wmb => if wmbPv off then pvWrite m pr (fun m => wmbPut m off v false) else m

-- The warden aperture over SMBus (R477).

/-- WMB_WRITE: 1 to 8 words from the offset upwards, with PEC; a block that reaches beyond 0x0FFC is not acknowledged. -/
def wmbWrite (m : Mod) (ws : List Nat) (pec : Bool) : Mod :=
  let o := m.sys.pins.smbOff
  if !pec || ws.isEmpty || decide (8 < ws.length) || decide (0x1000 < o + 4 * ws.length) then m
  else
    let m1 := (List.range ws.length).foldl (fun m i => wmbPut m (o + 4 * i) (ws.getD i 0 % 2 ^ 32) true) m
    modPins m1 (fun p => { p with smbOff := o + 4 * ws.length })

/-- WMB_READ: 1 to 8 words from the offset upwards; SMBus is privileged (R393). -/
def wmbReadRow (m : Mod) (n : Nat) : Mod :=
  let o := m.sys.pins.smbOff
  if n == 0 || decide (8 < n) || decide (0x1000 < o + 4 * n) then m
  else
    let m1 := (List.range n).foldl (fun m i => emit m (.reg (wmbRead m (o + 4 * i) .privileged))) m
    modPins m1 (fun p => { p with smbOff := o + 4 * n })

-- The sweep of triplicated fields (R437).

/-- A field after the sweep: its copies, how many were corrected, and whether all three differ. -/
def sweepTri {α : Type} [DecidableEq α] (t : Tri α) (safe : α → α → α → α) : Tri α × Bool × Bool :=
  match t.vote with
  | some v => (Tri.mk1 v, !(decide (t.a = v) && decide (t.b = v) && decide (t.c = v)), false)
  | none => (Tri.mk1 (safe t.a t.b t.c), false, true)

/-- A field of the module swept: TR_CORRECTED counts a correction, and a three-way disagreement is logged as TR_VOTE (R437). -/
def sweepField {α : Type} [DecidableEq α] (m : Mod) (get : Mod → Tri α) (set : Mod → Tri α → Mod) (safe : α → α → α → α) (bad : Mod → Mod) : Mod :=
  let (t, fixed, lost) := sweepTri (get m) safe
  let m1 := set m t
  let m2 := if fixed then logFault (minc m1 Ctr.trCorrected 1) 0x1F 0 fTrVote 1 false 0 else m1
  if lost then bad (logFault m2 0x1F 0 fTrVote 0 false 0) else m2

/-- The OR of three copies, the safe value of a fence mask. -/
def or3 (x y z : Nat) : Nat := x ||| y ||| z

/-- The fence masks swept. -/
def sweepFences (m : Mod) : Mod :=
  let go (get : Fences → Tri Nat) (set : Fences → Tri Nat → Fences) (m : Mod) : Mod :=
    sweepField m (fun m => get m.fence) (fun m t => modFence m (fun f => set f t)) or3 (fun m => m)
  let m1 := go (fun f => f.polder) (fun f t => { f with polder := t }) m
  let m2 := go (fun f => f.array) (fun f t => { f with array := t }) m1
  let m3 := go (fun f => f.berm) (fun f t => { f with berm := t }) m2
  let m4 := go (fun f => f.toe) (fun f t => { f with toe := t }) m3
  let m5 := go (fun f => f.link) (fun f t => { f with link := t }) m4
  let m6 := go (fun f => f.units) (fun f t => { f with units := t }) m5
  let m7 := go (fun f => f.vdom) (fun f t => { f with vdom := t }) m6
  let m8 := go (fun f => f.phase) (fun f t => { f with phase := t }) m7
  go (fun f => f.sensor) (fun f t => { f with sensor := t }) m8

/-- A polder's slice masks and key selector swept; a three-way disagreement fences it (Table 15-3). -/
def sweepPolder (m : Mod) (p : Fin 16) : Mod :=
  let m1 := sweepField m (fun m => m.pol[p].masks) (fun m t => modPol m p (fun q => { q with masks := t })) (fun a _ _ => a) (fun m => fencePolder m p)
  sweepField m1 (fun m => m.pol[p].sec.keysel) (fun m t => modPol m p (fun q => { q with sec := { q.sec with keysel := t } })) (fun a _ _ => a)
    (fun m => fencePolder m p)

/-- TR_SWEEP (R437): every 1 ms each triplicated field is voted. -/
def trSweep (fz : Fuses) (m0 : Mod) (t : Nat) : Mod :=
  let m := tickHvl m0 t
  if m.hvl < m.sys.wd.trAt + 1000000 then m
  else
    let m1 := modWd m (fun w => { w with trAt := m.hvl })
    let m2 := sweepField m1 (fun m => m.front.profile) (fun m t => { m with front := { m.front with profile := t } }) (fun a _ _ => a)
      (fun m => moduleFault fz m 0x1F 0 fTrVote 0)
    let m3 := (List.finRange 16).foldl sweepPolder m2
    let m4 := sweepField m3 (fun m => m.sys.pw.caps) (fun m t => modPw m (fun x => { x with caps := t })) (fun a b c => min a (min b c)) capChanged
    let m5 := sweepFences m4
    let m6 := sweepField m5 (fun m => m.front.privMap) (fun m t => { m with front := { m.front with privMap := t } }) (fun _ _ _ => 0x1FFFF) (fun m => m)
    sweepField m6 (fun m => m.sys.wd.conf) (fun m t => modWd m (fun w => { w with conf := t })) (fun _ _ _ => 1) (fun m => m)

end Sys2Proof.Machine
end

