-- ==== Sys2Proof/Machine/State.lean ====
section
/-! DEFINITION. The state of the block: the queue of commands that wait, the fuses, and the module; the reasons a step can stop; the state right after
reset. -/

namespace Sys2Proof.Machine

/-- No command of this block stops with a fault: the spec gives each one an effect, and what it calls a fault of a unit is an effect on the state. -/
inductive Fault where
deriving DecidableEq, Repr

/-- Why a command has no meaning. -/
inductive Refusal where
  /-- Raised by the dispatch for a command without a meaning; no command of this model is without one. Safe. -/
  | notModelled (mnemonic : String)
deriving DecidableEq, Repr

structure State where
  pending : List Instr
  fuses : Fuses
  m : Mod
deriving DecidableEq, Repr

/-- Fuses as delivered: DEBUG_LOCK blown, as on CML-1600-M (Table 12-2); UDS and SERIAL are the part's own, here zero, and the key hashes are those of an
all-zero key (log entry 1). -/
def fusesDelivered : Fuses := { uds := 0, keyHash := Vector.replicate 4 (sha3Bytes (toBytes 0 1312)), revoke := 0, svnMin := 0, debugLock := true, serial := 0 }

/-- The image in slot A as delivered: its header names the digest of an empty body and key slot 0 (R355, log entry 2). -/
def imageDelivered : FwImage := { header := 1 + at8 32 (sha3Bytes []), body := 0, key := 0, sigOk := true }

/-- The module with power present and nothing started: slot A holds an image, Toe is not formatted, and every register holds its reset value. -/
def modReset : Mod := { modBlank with sys := { modBlank.sys with fw := { fwNone with slotA := some imageDelivered } } }

/-- Right after reset: no command waits, and COLD_START has not come yet. -/
def State.reset : State := { pending := [], fuses := fusesDelivered, m := modReset }

end Sys2Proof.Machine
end

