-- ==== Sys2Proof/Machine/Work.lean ====
section
/-! DEFINITION. How a command's effect on the module becomes a step: while the module has power and is not held in reset, with what follows every effect
at once; and the few effects composed of others. -/

namespace Sys2Proof.Machine

/-- What follows a command's effect at the same instant: a dissolution whose last lease has ended goes on (R495), a changed level status sends vector 514
(R436), and a gained or lost lock vector 515 (R425). -/
def settled (old m : Mod) : Mod :=
  let m1 := dissolveAll m
  let m2 := levelIrq old m1
  if timeLocked old != timeLocked m2 then mgmtIrq m2 3 else m2

/-- A command of a module at work. Without power, or held in reset, nothing happens (R511, R517). -/
def work (s : State) (f : Fuses → Mod → Mod) : Host.Outcome State Fault Refusal :=
  .next { s with m := if s.m.working then settled s.m (f s.fuses s.m) else s.m }

/-- A command that acts on power or pins whatever the module does. -/
def always (s : State) (f : Fuses → Mod → Mod) : Host.Outcome State Fault Refusal := .next { s with m := f s.fuses s.m }

/-- A command of a module at work that can blow fuses. -/
def workF (s : State) (f : Fuses → Mod → Fuses × Mod) : Host.Outcome State Fault Refusal :=
  .next (if s.m.working then { s with fuses := (f s.fuses s.m).1, m := settled s.m (f s.fuses s.m).2 } else s)

/-- A start, which can blow fuses that an activation has recorded (R503). -/
def alwaysF (s : State) (f : Fuses → Mod → Fuses × Mod) : Host.Outcome State Fault Refusal :=
  .next { s with fuses := (f s.fuses s.m).1, m := (f s.fuses s.m).2 }

/-- A mailbox command that has ended OK leaves its settings in the records kept across starts (R491). -/
def keepCfg (b : Box) (old m : Mod) : Mod :=
  if (getMbx old b).busy && !(getMbx m b).busy && (getMbx m b).status == stOk then saveCfg m else m

/-- Every polder's dispatcher looks again. -/
def kickAll (m : Mod) (hv : HostGen) : Mod := (List.finRange 16).foldl (fun m p => kick m p hv) m

def peerGone (m : Mod) (src : Nat) : Bool := ((m.peers.get src).map Peer.failed).getD false

/-- A peer newly declared failed: replicas to it fail too (R298). -/
def peerDown (old m : Mod) (src : Nat) : Mod := if !peerGone old src && peerGone m src then replPeerFail m src else m

/-- NOTICE (R472): the first NOTICE frame received; one whose CHECK fails is discarded. -/
def noticeFrame (m : Mod) : Mod :=
  match takeRx m 2 with
  | none => m
  | some ((_, w), m1) => if w.check then peerDown m1 (recvNotice m1 w.src w.kind w.serial) w.src else m1

end Sys2Proof.Machine
end

