-- ==== Sys2Proof/Machine/ExecCkpt.lean ====
section
/-! DEFINITION. The meanings of commands: Checkpoints and replicas (chapter 09). -/

namespace Sys2Proof.Machine

/-- CKPT_BEGIN (R295). -/
def execCkptBegin (p : Fin 16) (tag : Nat) (s : State) : Host.Outcome State Fault Refusal := work s (fun _ m => ckptBegin m p tag)

/-- CKPT_EXPORT (R306). -/
def execCkptExport (p : Fin 16) (tag : Nat) (s : State) : Host.Outcome State Fault Refusal := work s (fun _ m => ckptExport m p tag)

/-- CKPT_COMMIT (R298). -/
def execCkptCommit (p : Fin 16) (tag : Nat) (s : State) : Host.Outcome State Fault Refusal := work s (fun _ m => ckptCommit m p tag)

/-- CKPT_RESTORE (R304). -/
def execCkptRestore (p : Fin 16) (tag : Nat) (stream : Block) (s : State) : Host.Outcome State Fault Refusal :=
  work s (fun _ m => ckptRestore m p tag stream)

/-- CKPT_DROP (R301). -/
def execCkptDrop (p : Fin 16) (tag : Nat) (s : State) : Host.Outcome State Fault Refusal := work s (fun _ m => ckptDrop m p tag)

/-- CKPT_COPY_DONE (R295). -/
def execCkptCopyDone (p : Fin 16) (sid : Nat) (s : State) : Host.Outcome State Fault Refusal := work s (fun _ m => ckCopyDone m p sid)

/-- REPLICA_RECLAIM (R299). -/
def execReplicaReclaim (p : Fin 16) (t : Nat) (s : State) : Host.Outcome State Fault Refusal := work s (fun _ m => replicaReclaim m p t)

/-- RESTORE_LOAD_DONE (R304). -/
def execRestoreLoadDone (p : Fin 16) (idx : Nat) (s : State) : Host.Outcome State Fault Refusal := work s (fun _ m => restoreLoadDone m p idx)

/-- REPL_DIGESTS (R297). -/
def execReplDigests (src srcPol : Nat) (p : Fin 16) (sid epoch seq : Nat) (ds : List Nat) (s : State) : Host.Outcome State Fault Refusal :=
  work s (fun _ m => deliver m src srcPol p.val 0 0x0E (fun m => recvReplDigests m src srcPol p sid epoch seq ds))

/-- REPL_LACKS (R297). -/
def execReplLacks (src srcPol : Nat) (p : Fin 16) (bits : List Bool) (s : State) : Host.Outcome State Fault Refusal :=
  work s (fun _ m => deliver m src srcPol p.val 0 0x0F (fun m => recvReplLacks m src srcPol p bits))

/-- REPL_CHUNK (R297). -/
def execReplChunk (src srcPol : Nat) (p : Fin 16) (digest bytes : Nat) (pay : CkPay) (s : State) : Host.Outcome State Fault Refusal :=
  work s (fun _ m => deliver m src srcPol p.val 1 0x21 (fun m => recvReplChunk m src srcPol p digest bytes pay))

/-- REPL_RECORDS (R297). -/
def execReplRecords (src srcPol : Nat) (p : Fin 16) (sid epoch seq : Nat) (rs : List CkRec) (s : State) : Host.Outcome State Fault Refusal :=
  work s (fun _ m => deliver m src srcPol p.val 1 0x22 (fun m => recvReplRecords m src srcPol p sid epoch seq rs))

/-- REPL_COMMIT (R297). -/
def execReplCommit (src srcPol : Nat) (p : Fin 16) (c : Ck) (s : State) : Host.Outcome State Fault Refusal :=
  work s (fun _ m => deliver m src srcPol p.val 0 0x10 (fun m => recvReplCommit m src srcPol p c))

/-- REPL_ACK (R298). -/
def execReplAck (src srcPol : Nat) (p : Fin 16) (sid epoch seq : Nat) (failed : Bool) (s : State) : Host.Outcome State Fault Refusal :=
  work s (fun _ m => deliver m src srcPol p.val 0 0x11 (fun m => recvReplAck m src srcPol p sid epoch seq failed))

end Sys2Proof.Machine
end

