-- ==== Sys2Proof/Machine/ExecConf.lean ====
section
/-! DEFINITION. The meanings of commands: Mailbox commands of polders, firmware, keys and accounting (chapters 12, 14 and 17). -/

namespace Sys2Proof.Machine

/-- PROFILE_SELECT (R493). -/
def execProfileSelect (b : Box) (s : State) : Host.Outcome State Fault Refusal := work s (fun z m => profileSelect z m b)

/-- POLDER_COMPOSE (R494). -/
def execPolderCompose (b : Box) (tenant : Nat) (s : State) : Host.Outcome State Fault Refusal := work s (fun z m => polderCompose z m b tenant)

/-- POLDER_DISSOLVE (R495). -/
def execPolderDissolve (b : Box) (s : State) : Host.Outcome State Fault Refusal := work s (fun _ m => polderDissolve m b)

/-- POLDER_RESET (R500). -/
def execPolderReset (b : Box) (step : Nat) (good : List (Nat × Nat)) (s : State) : Host.Outcome State Fault Refusal :=
  work s (fun _ m => polderReset m b step good)

/-- FW_UPDATE_STAGE (R501). -/
def execFwUpdateStage (b : Box) (img : FwImage) (s : State) : Host.Outcome State Fault Refusal := work s (fun z m => fwStage z m b img)

/-- FW_UPDATE_DISCARD (R501). -/
def execFwUpdateDiscard (b : Box) (s : State) : Host.Outcome State Fault Refusal := work s (fun _ m => fwDiscard m b)

/-- FW_UPDATE_ACTIVATE (R502). -/
def execFwUpdateActivate (b : Box) (step : Nat) (good : Bool) (s : State) : Host.Outcome State Fault Refusal :=
  workF s (fun z m => fwActivate (z, m) b step good)

/-- ATTEST_QUOTE (R360). -/
def execAttestQuote (b : Box) (s : State) : Host.Outcome State Fault Refusal := work s (fun z m => attestQuote z m b)

/-- KEY_ROTATE_AT_REST (R365). -/
def execKeyRotateAtRest (b : Box) (s : State) : Host.Outcome State Fault Refusal := work s (fun _ m => keyRotateAtRest m b)

/-- KEY_ROTATE_BOUNCE (R374). -/
def execKeyRotateBounce (b : Box) (setup : Block) (s : State) : Host.Outcome State Fault Refusal := work s (fun _ m => keyRotateBounce m b setup)

/-- QUOTA_SET (R59). -/
def execQuotaSet (b : Box) (s : State) : Host.Outcome State Fault Refusal := work s (fun _ m => quotaSet m b)

/-- TIME_SYNC_CONF (R410). -/
def execTimeSyncConf (b : Box) (s : State) : Host.Outcome State Fault Refusal := work s (fun _ m => timeSyncConf m b)

/-- ENERGY_REPORT (R347). -/
def execEnergyReport (b : Box) (s : State) : Host.Outcome State Fault Refusal := work s (fun _ m => energyReport m b)

/-- PEER_CONF (R411). -/
def execPeerConf (b : Box) (s : State) : Host.Outcome State Fault Refusal := work s (fun _ m => peerConf m b)

/-- CKPT_SCHEDULE (R293). -/
def execCkptSchedule (b : Box) (s : State) : Host.Outcome State Fault Refusal := work s (fun _ m => ckptSchedule m b)

/-- CNT_SNAP (R408). -/
def execCntSnap (b : Box) (t : Nat) (ts : List Nat) (s : State) : Host.Outcome State Fault Refusal := work s (fun _ m => cntSnap m b t ts)

/-- CNT_SNAP_POLDER (R408). -/
def execCntSnapPolder (b : Box) (t pt : Nat) (s : State) : Host.Outcome State Fault Refusal := work s (fun _ m => cntSnapPolder m b t pt)

end Sys2Proof.Machine
end

