-- ==== Sys2Proof/Machine/ExecCulvert.lean ====
section
/-! DEFINITION. The meanings of commands: Culvert and transfer keys (chapters 12 and 16). -/

namespace Sys2Proof.Machine

/-- CULVERT_DATA (R466). -/
def execCulvertData (t : Nat) (s : State) : Host.Outcome State Fault Refusal := work s (fun _ m => culvertData m t)

/-- CULVERT_ACK (R466). -/
def execCulvertAck (t : Nat) (s : State) : Host.Outcome State Fault Refusal := work s (fun _ m => culvertAck m t)

/-- CULVERT_ACK_TIMER (R466). -/
def execCulvertAckTimer (src lane t : Nat) (s : State) : Host.Outcome State Fault Refusal := work s (fun _ m => culvertAckTimer m src lane t)

/-- CULVERT_RESEND_TIMER (R466). -/
def execCulvertResendTimer (dst lane psn t : Nat) (s : State) : Host.Outcome State Fault Refusal :=
  work s (fun _ m => culvertResendTimer m dst lane psn t)

/-- KEEPALIVE_TIMER (R466). -/
def execKeepaliveTimer (dst lane t : Nat) (s : State) : Host.Outcome State Fault Refusal := work s (fun _ m => keepaliveTimer m dst lane t)

/-- KEEPALIVE (R466). -/
def execKeepalive (src : Nat) (s : State) : Host.Outcome State Fault Refusal := work s (fun _ m => recvKeepalive m src)

/-- TK_HELLO (R375). -/
def execTkHello (src srcPol : Nat) (p : Fin 16) (q : Quote) (ct : Nat) (verifies : Bool) (s : State) : Host.Outcome State Fault Refusal :=
  work s (fun z m => tkHello z m src srcPol p q ct verifies)

/-- TK_RENEW (R376). -/
def execTkRenew (p : Fin 16) (mod pol t : Nat) (s : State) : Host.Outcome State Fault Refusal := work s (fun z m => tkRenew z m p mod pol t)

/-- TK_EXPIRE (R376). -/
def execTkExpire (p : Fin 16) (mod pol t : Nat) (s : State) : Host.Outcome State Fault Refusal := work s (fun _ m => tkExpire m p mod pol t)

/-- TK_PREVIOUS_DISCARD (R376). -/
def execTkPreviousDiscard (p : Fin 16) (mod pol t : Nat) (s : State) : Host.Outcome State Fault Refusal :=
  work s (fun _ m => tkPreviousDiscard m p mod pol t)

end Sys2Proof.Machine
end

