-- ==== Sys2Proof/Machine/ExecFault.lean ====
section
/-! DEFINITION. The meanings of commands: Faults and cofferdams (chapter 13). -/

namespace Sys2Proof.Machine

/-- FENCE_UNIT (R386). -/
def execFenceUnit (b : Box) (s : State) : Host.Outcome State Fault Refusal := work s (fun z m => fenceUnit z m b)

/-- UNFENCE_UNIT (R387). -/
def execUnfenceUnit (b : Box) (pass : Bool) (s : State) : Host.Outcome State Fault Refusal := work s (fun _ m => unfenceUnit m b pass)

/-- RESIDUE_MISMATCH (R145). -/
def execResidueMismatch (a : Nat) (again : Bool) (s : State) : Host.Outcome State Fault Refusal := work s (fun z m => residueMismatch z m a again)

/-- HANDSHAKE_STALL (R146). -/
def execHandshakeStall (p : Fin 16) (a : Nat) (pass : Bool) (s : State) : Host.Outcome State Fault Refusal :=
  work s (fun z m => handshakeStall z m p a pass)

/-- FABRIC_PORT_ERROR (R383). -/
def execFabricPortError (a t : Nat) (s : State) : Host.Outcome State Fault Refusal := work s (fun z m => fabricPortError z m a t)

/-- FABRIC_WEDGE (R383). -/
def execFabricWedge (t : Clocks) (s : State) : Host.Outcome State Fault Refusal := work s (fun _ m => fabricWedge m t.hvl t.wd)

/-- ACT_STORE_ECC (R383). -/
def execActStoreEcc (a t : Nat) (uncorr : Bool) (detail : Block) (s : State) : Host.Outcome State Fault Refusal :=
  work s (fun z m => actStoreEcc z m a t uncorr detail)

/-- CREST_ECC (R383). -/
def execCrestEcc (die : Nat) (uncorr : Bool) (page : Option (Fin 16 × Nat)) (detail : Block) (s : State) : Host.Outcome State Fault Refusal :=
  work s (fun _ m => crestEcc m die uncorr page detail)

/-- CREST_SCRUB (R383). -/
def execCrestScrub (t : Clocks) (s : State) : Host.Outcome State Fault Refusal := work s (fun _ m => crestScrub m t.hvl t.wd)

/-- CREST_DIE_FAULT (R383). -/
def execCrestDieFault (die : Nat) (s : State) : Host.Outcome State Fault Refusal := work s (fun z m => crestDieFault z m die)

/-- BERM_ECC (R383). -/
def execBermEcc (d t : Nat) (uncorr again : Bool) (page : Option (Fin 16 × Nat)) (detail : Block) (s : State) : Host.Outcome State Fault Refusal :=
  work s (fun _ m => bermEcc m d t uncorr again page detail)

/-- BERM_DEVICE_FAULT (R383). -/
def execBermDeviceFault (d cause t : Nat) (s : State) : Host.Outcome State Fault Refusal := work s (fun z m => bermDeviceFault z m d cause t)

/-- BERM_TRAINING_CHECK (R383). -/
def execBermTrainingCheck (t : Clocks) (bad : Nat) (s : State) : Host.Outcome State Fault Refusal := work s (fun z m => bermTrainingCheck z m t.hvl t.wd bad)

/-- TOE_CHANNEL_FAULT (R383). -/
def execToeChannelFault (ch cause : Nat) (s : State) : Host.Outcome State Fault Refusal := work s (fun z m => toeChannelFault z m ch cause)

/-- LOCKSTEP_MISMATCH (R388). -/
def execLockstepMismatch (k : Nat) (s : State) : Host.Outcome State Fault Refusal := work s (fun z m => lockstepMismatch z m k)

/-- HEARTBEAT_LOSS (R383). -/
def execHeartbeatLoss (k : Nat) (t : Clocks) (s : State) : Host.Outcome State Fault Refusal := work s (fun z m => heartbeatLoss z m k t.hvl t.wd)

/-- AUTO_SEAL (R384). -/
def execAutoSeal (t : Clocks) (s : State) : Host.Outcome State Fault Refusal := work s (fun z m => autoSeal z m t.hvl t.wd)

/-- DUP_MISMATCH (R383). -/
def execDupMismatch (ty n t : Nat) (s : State) : Host.Outcome State Fault Refusal := work s (fun z m => dupMismatch z m ty n t)

/-- PHASE_FAULT (R383). -/
def execPhaseFault (n : Nat) (s : State) : Host.Outcome State Fault Refusal := work s (fun z m => phaseFault z m n)

/-- VCORE_DOMAIN_FAULT (R383). -/
def execVcoreDomainFault (g : Nat) (s : State) : Host.Outcome State Fault Refusal := work s (fun z m => vcoreDomainFault z m g)

/-- HVL_LANE_CRC (R383). -/
def execHvlLaneCrc (half : Nat) (s : State) : Host.Outcome State Fault Refusal := work s (fun _ m => hvlLaneCrc m half)

/-- HVL_LANE_LOSS (R383). -/
def execHvlLaneLoss (half : Nat) (s : State) : Host.Outcome State Fault Refusal := work s (fun z m => hvlLaneLoss z m half)

/-- ETH_PORT_FAULT (R383). -/
def execEthPortFault (k : Nat) (s : State) : Host.Outcome State Fault Refusal := work s (fun z m => ethPortFault z m k)

/-- SENSOR_IMPLAUSIBLE (R383). -/
def execSensorImplausible (n : Nat) (detail : Block) (s : State) : Host.Outcome State Fault Refusal :=
  work s (fun z m => sensorImplausible z m n detail)

/-- OSC_CHECK (R393). -/
def execOscCheck (t tickPs : Nat) (s : State) : Host.Outcome State Fault Refusal := work s (fun _ m => oscCheck m t tickPs)

/-- FAULT_LOG_COPY (R399). -/
def execFaultLogCopy (t : Nat) (s : State) : Host.Outcome State Fault Refusal := work s (fun _ m => faultLogCopy m t)

end Sys2Proof.Machine
end

