-- ==== Sys2Proof/Machine/ExecGen.lean ====
section
/-! DEFINITION. The meanings of commands: Generation and kernel jobs (chapters 05 to 07). -/

namespace Sys2Proof.Machine

/-- GEN_STEP (R223). -/
def execGenStep (p : Fin 16) (tag : Nat) (hv : HostGen) (s : State) : Host.Outcome State Fault Refusal := work s (fun _ m => genStep m p tag hv)

/-- GEN_PREFILL_ACCEPT (R249). -/
def execGenPrefillAccept (p : Fin 16) (tag : Nat) (hist : List Nat) (hv : HostGen) (s : State) : Host.Outcome State Fault Refusal :=
  work s (fun _ m => genPrefillAccept m p tag hist hv)

/-- GEN_STOP (R225). -/
def execGenStop (p : Fin 16) (tag : Nat) (s : State) : Host.Outcome State Fault Refusal := work s (fun _ m => genStop m p tag)

/-- GEN_STOP_JOB (R186). -/
def execGenStopJob (p : Fin 16) (tag : Nat) (s : State) : Host.Outcome State Fault Refusal := work s (fun _ m => genStopJob m p tag)

/-- GEN_SPEC_CONF (R228). -/
def execGenSpecConf (p : Fin 16) (tag : Nat) (s : State) : Host.Outcome State Fault Refusal := work s (fun _ m => genSpecConf m p tag)

/-- SAMPLER_CONF (R236). -/
def execSamplerConf (p : Fin 16) (tag : Nat) (bulk : Block) (s : State) : Host.Outcome State Fault Refusal :=
  work s (fun _ m => samplerConf m p tag bulk)

/-- KRN_SUBMIT (R184). -/
def execKrnSubmit (p : Fin 16) (tag : Nat) (s : State) : Host.Outcome State Fault Refusal := work s (fun _ m => krnSubmit m p tag)

/-- STRIP_COMPLETE (R171). -/
def execStripComplete (p : Fin 16) (a t : Nat) (o : StripOut) (hv : HostGen) (s : State) : Host.Outcome State Fault Refusal :=
  work s (fun _ m => stripDone m p a t o hv)

/-- FORCED_PASS (R235). -/
def execForcedPass (p : Fin 16) (idx : Nat) (arrs : List Nat) (outs : List StripOut) (hv : HostGen) (s : State) :
    Host.Outcome State Fault Refusal :=
  work s (fun _ m => forcedPass m p idx (arrs.zip outs) hv)

/-- RECALL_DEADLINE (R214). -/
def execRecallDeadline (p : Fin 16) (id t : Nat) (hv : HostGen) (s : State) : Host.Outcome State Fault Refusal :=
  work s (fun _ m => recallDeadline m p id t hv)

/-- TOKEN_RING_MOD_TIMER (R245). -/
def execTokenRingModTimer (p : Fin 16) (tag t : Nat) (s : State) : Host.Outcome State Fault Refusal := work s (fun _ m => tokenRingModTimer m p tag t)

/-- DRBG_RESEED (R241). -/
def execDrbgReseed (p : Fin 16) (s : State) : Host.Outcome State Fault Refusal := work s (fun _ m => drbgReseed m p)

/-- ENTROPY_HEALTH_FAIL (R241). -/
def execEntropyHealthFail (s : State) : Host.Outcome State Fault Refusal := work s (fun _ m => entropyHealthFail m)

end Sys2Proof.Machine
end

