-- ==== Sys2Proof/Machine/ExecLink.lean ====
section
/-! DEFINITION. The meanings of commands: Sideband, test port, discovery and time (chapter 16). -/

namespace Sys2Proof.Machine

/-- STATUS_WORD (R477). -/
def execStatusWord (s : State) : Host.Outcome State Fault Refusal := work s (fun _ m => statusWord m)

/-- READ_VIN (R477). -/
def execReadVin (s : State) : Host.Outcome State Fault Refusal := work s (fun _ m => readVin m)

/-- READ_IIN (R477). -/
def execReadIin (s : State) : Host.Outcome State Fault Refusal := work s (fun _ m => readIin m)

/-- READ_TEMPERATURE_1 (R477). -/
def execReadTemperature1 (s : State) : Host.Outcome State Fault Refusal := work s (fun _ m => readTemperature m)

/-- READ_POUT (R477). -/
def execReadPout (s : State) : Host.Outcome State Fault Refusal := work s (fun _ m => readPout m)

/-- WMB_OFFSET (R477). -/
def execWmbOffset (off : Nat) (pec : Bool) (s : State) : Host.Outcome State Fault Refusal := work s (fun _ m => wmbOffset m off pec)

/-- WMB_WRITE (R477). -/
def execWmbWrite (ws : List Nat) (pec : Bool) (s : State) : Host.Outcome State Fault Refusal := work s (fun _ m => wmbWrite m ws pec)

/-- WMB_READ (R477). -/
def execWmbRead (n : Nat) (s : State) : Host.Outcome State Fault Refusal := work s (fun _ m => wmbReadRow m n)

/-- ALERT_RESPONSE (R476). -/
def execAlertResponse (s : State) : Host.Outcome State Fault Refusal := work s (fun _ m => alertResponse m)

/-- BYPASS (R479). -/
def execBypass (s : State) : Host.Outcome State Fault Refusal := always s (fun _ m => bypass m)

/-- IDCODE (R479). -/
def execIdcode (s : State) : Host.Outcome State Fault Refusal := always s (fun _ m => idcode m)

/-- SAMPLE_PRELOAD (R479). -/
def execSamplePreload (s : State) : Host.Outcome State Fault Refusal := always s (fun _ m => samplePreload m)

/-- EXTEST (R479). -/
def execExtest (s : State) : Host.Outcome State Fault Refusal := always s (fun _ m => extest m)

/-- EXTEST_PULSE (R479). -/
def execExtestPulse (s : State) : Host.Outcome State Fault Refusal := always s (fun _ m => extestPulse m)

/-- EXTEST_TRAIN (R479). -/
def execExtestTrain (s : State) : Host.Outcome State Fault Refusal := always s (fun _ m => extestTrain m)

/-- CLAMP (R479). -/
def execClamp (s : State) : Host.Outcome State Fault Refusal := always s (fun _ m => clampTest m)

/-- HIGHZ (R479). -/
def execHighz (s : State) : Host.Outcome State Fault Refusal := always s (fun _ m => highz m)

/-- ANNOUNCE (R497). -/
def execAnnounce (src : Nat) (x : Announce) (coord : Bool) (t : Nat) (s : State) : Host.Outcome State Fault Refusal :=
  work s (fun z m => recvAnnounce z m src x coord t)

/-- DISCOVERY_BACKOFF (R496). -/
def execDiscoveryBackoff (coord : Bool) (t : Nat) (s : State) : Host.Outcome State Fault Refusal := work s (fun z m => discoveryBackoff z m coord t)

/-- ANCHOR_ACK_TIMEOUT (R496). -/
def execAnchorAckTimeout (coord : Bool) (t : Nat) (s : State) : Host.Outcome State Fault Refusal := work s (fun z m => anchorAckTimeout z m coord t)

/-- ANCHOR_TICK (R496). -/
def execAnchorTick (t : Nat) (s : State) : Host.Outcome State Fault Refusal := work s (fun z m => anchorTick z m t)

/-- RELAY_FORWARD (R496). -/
def execRelayForward (t : Nat) (s : State) : Host.Outcome State Fault Refusal := work s (fun z m => relayForward z m t)

/-- RELAY_ACK_TIMEOUT (R496). -/
def execRelayAckTimeout (t : Nat) (s : State) : Host.Outcome State Fault Refusal := work s (fun z m => relayAckTimeout z m t)

/-- PTP_FRAME (R460). -/
def execPtpFrame (k : Fin 4) (dom profile : Nat) (off hvlOff : Int) (ms : List (Nat × Int)) (t : Nat) (s : State) : Host.Outcome State Fault Refusal :=
  work s (fun _ m => ptpFrame m k dom profile off hvlOff ms t)

/-- TIME_MESSAGE (R463). -/
def execTimeMessage (msg : Block) (delay : Nat) (ms : List (Nat × Int)) (t : Nat) (s : State) : Host.Outcome State Fault Refusal :=
  work s (fun _ m => timeMessage m msg delay ms t)

/-- LOCK_LOSS (R461). -/
def execLockLoss (k t : Nat) (s : State) : Host.Outcome State Fault Refusal := work s (fun _ m => lockLoss m k t)

/-- HVL_READ_TIMEOUT (R456). -/
def execHvlReadTimeout (half : Nat) (cmd : Option (Fin 16 × Nat)) (box : Option Box) (t : Nat) (s : State) : Host.Outcome State Fault Refusal :=
  work s (fun _ m => hvlReadTimeout m half cmd box t)

end Sys2Proof.Machine
end

