-- ==== Sys2Proof/Machine/ExecMem.lean ====
section
/-! DEFINITION. The meanings of commands: Session space, tiers and flash (chapter 02). -/

namespace Sys2Proof.Machine

/-- MEM_MAP (R422). -/
def execMemMap (p : Fin 16) (tag : Nat) (s : State) : Host.Outcome State Fault Refusal := work s (fun _ m => memMap m p tag)

/-- MEM_MAP_RELEASE (R422). -/
def execMemMapRelease (p : Fin 16) (tag : Nat) (s : State) : Host.Outcome State Fault Refusal := work s (fun _ m => memMapRelease m p tag)

/-- MEM_MAP_REMAP (R422). -/
def execMemMapRemap (p : Fin 16) (tag : Nat) (s : State) : Host.Outcome State Fault Refusal := work s (fun _ m => memMapRemap m p tag)

/-- MEM_PREFETCH (R62). -/
def execMemPrefetch (p : Fin 16) (tag : Nat) (s : State) : Host.Outcome State Fault Refusal := work s (fun _ m => memPrefetch m p tag)

/-- MEM_PIN (R61). -/
def execMemPin (p : Fin 16) (tag : Nat) (s : State) : Host.Outcome State Fault Refusal := work s (fun _ m => memPin m p tag)

/-- MEM_UNPIN (R61). -/
def execMemUnpin (p : Fin 16) (tag : Nat) (s : State) : Host.Outcome State Fault Refusal := work s (fun _ m => memUnpin m p tag)

/-- HEAT_EPOCH (R45). -/
def execHeatEpoch (p : Fin 16) (t : Nat) (s : State) : Host.Outcome State Fault Refusal := work s (fun _ m => heatEpoch m p t)

/-- MIGRATION_COMMIT (R53). -/
def execMigrationCommit (p : Fin 16) (n : Nat) (hv : HostGen) (s : State) : Host.Outcome State Fault Refusal :=
  work s (fun _ m => migrationCommit m p n hv)

/-- TIER_READ_FAIL (R66). -/
def execTierReadFail (p : Fin 16) (n tries : Nat) (again stripe : Bool) (s : State) : Host.Outcome State Fault Refusal :=
  work s (fun _ m => tierReadFail m p n tries again stripe)

/-- STRIPE_ROW_CLOSE (R71). -/
def execStripeRowClose (row t : Nat) (s : State) : Host.Outcome State Fault Refusal := work s (fun _ m => stripeRowClose m row t)

/-- TOE_WRITE_ACK (R72). -/
def execToeWriteAck (u blk : Nat) (s : State) : Host.Outcome State Fault Refusal := work s (fun _ m => toeAcked m u blk)

/-- PROGRAM_FAILURE (R79). -/
def execProgramFailure (u blk : Nat) (s : State) : Host.Outcome State Fault Refusal := work s (fun _ m => programFailure m u blk)

/-- ERASE_FAILURE (R79). -/
def execEraseFailure (ch blk : Nat) (s : State) : Host.Outcome State Fault Refusal := work s (fun _ m => eraseFailure m ch blk)

/-- RETENTION_RELOCATE (R75). -/
def execRetentionRelocate (ch blk dst t : Nat) (s : State) : Host.Outcome State Fault Refusal := work s (fun _ m => retentionRelocate m ch blk dst t)

/-- GARBAGE_COLLECTION (R77). -/
def execGarbageCollection (ch blk dst lvl : Nat) (verify : Bool) (s : State) : Host.Outcome State Fault Refusal :=
  work s (fun _ m => garbageCollection m ch blk dst lvl verify)

/-- REBUILD_COMPLETE (R80). -/
def execRebuildComplete (p : Fin 16) (ch : Nat) (s : State) : Host.Outcome State Fault Refusal := work s (fun _ m => rebuildComplete m p ch)

/-- KEY_SWEEP (R366). -/
def execKeySweep (p : Fin 16) (n : Nat) (s : State) : Host.Outcome State Fault Refusal := work s (fun _ m => keySweep m p n)

end Sys2Proof.Machine
end

