-- ==== Sys2Proof/Machine/ExecModel.lean ====
section
/-! DEFINITION. The meanings of commands: Model slots (R155 to R167). -/

namespace Sys2Proof.Machine

/-- MODEL_LOAD (R162). -/
def execModelLoad (p : Fin 16) (tag : Nat) (man img : Block) (s : State) : Host.Outcome State Fault Refusal :=
  work s (fun _ m => vaultUnlock (modelLoad m p tag man img) p)

/-- MODEL_EVICT (R166). -/
def execModelEvict (p : Fin 16) (tag : Nat) (s : State) : Host.Outcome State Fault Refusal := work s (fun _ m => modelEvict m p tag)

/-- MODEL_EVICT_CREST (R166). -/
def execModelEvictCrest (p : Fin 16) (tag : Nat) (s : State) : Host.Outcome State Fault Refusal := work s (fun _ m => modelEvictCrest m p tag)

/-- MODEL_PIN (R165). -/
def execModelPin (p : Fin 16) (tag : Nat) (s : State) : Host.Outcome State Fault Refusal := work s (fun _ m => modelPin m p tag)

/-- MODEL_UNPIN (R165). -/
def execModelUnpin (p : Fin 16) (tag : Nat) (s : State) : Host.Outcome State Fault Refusal := work s (fun _ m => modelUnpin m p tag)

end Sys2Proof.Machine
end

