-- ==== Sys2Proof/Machine/ExecOwn.lean ====
section
/-! DEFINITION. The meanings of commands: Ownership and the journal (chapter 03). -/

namespace Sys2Proof.Machine

/-- LEASE_EXPIRY (R103). -/
def execLeaseExpiry (p : Fin 16) (idx t : Nat) (s : State) : Host.Outcome State Fault Refusal := work s (fun _ m => leaseExpiry m p idx t)

/-- COMMIT_WINDOW_CLOSE (R103). -/
def execCommitWindowClose (p : Fin 16) (sid t : Nat) (s : State) : Host.Outcome State Fault Refusal := work s (fun _ m => commitWindowClose m p sid t)

/-- RELINQUISHED_EXPIRY (R103). -/
def execRelinquishedExpiry (p : Fin 16) (idx t : Nat) (s : State) : Host.Outcome State Fault Refusal :=
  work s (fun _ m => relinquishedExpiry m p idx t)

/-- RESTORE_LEASE_EXPIRY (R103). -/
def execRestoreLeaseExpiry (p : Fin 16) (idx t : Nat) (s : State) : Host.Outcome State Fault Refusal :=
  work s (fun _ m => restoreLeaseExpiry m p idx t)

/-- HANDOFF_IN_WAIT_EXPIRY (R107). -/
def execHandoffInWaitExpiry (p : Fin 16) (tag t : Nat) (s : State) : Host.Outcome State Fault Refusal := work s (fun _ m => inWaitExpiry m p tag t)

/-- OFFER (R103). -/
def execOffer (src srcPol : Nat) (p : Fin 16) (x : OwnBody) (s : State) : Host.Outcome State Fault Refusal :=
  work s (fun _ m => deliver m src srcPol p.val 0 0x01 (fun m => recvOffer m src srcPol p x))

/-- PAGE (R247). -/
def execPage (src srcPol : Nat) (p : Fin 16) (x : PageMsg) (hv : HostGen) (s : State) : Host.Outcome State Fault Refusal :=
  work s (fun _ m => deliver m src srcPol p.val 1 0x20 (fun m => kick (recvPage m src srcPol p x s.m.net) p hv))

/-- PAGE_ACK (R108). -/
def execPageAck (src srcPol : Nat) (p : Fin 16) (sid h pseq : Nat) (s : State) : Host.Outcome State Fault Refusal :=
  work s (fun _ m => deliver m src srcPol p.val 0 0x07 (fun m => recvPageAck m p sid h pseq))

/-- CLAIM (R103). -/
def execClaim (src srcPol : Nat) (p : Fin 16) (x : OwnBody) (s : State) : Host.Outcome State Fault Refusal :=
  work s (fun _ m => deliver m src srcPol p.val 0 0x02 (fun m => recvClaim m src srcPol p x))

/-- CLAIM_ACK (R103). -/
def execClaimAck (src srcPol : Nat) (p : Fin 16) (x : OwnBody) (s : State) : Host.Outcome State Fault Refusal :=
  work s (fun _ m => deliver m src srcPol p.val 0 0x03 (fun m => recvClaimAck m p x))

/-- ABORT (R103). -/
def execAbort (src srcPol : Nat) (p : Fin 16) (x : OwnBody) (s : State) : Host.Outcome State Fault Refusal :=
  work s (fun _ m => deliver m src srcPol p.val 0 0x04 (fun m => recvAbort m src p x))

/-- ASSERT (R103). -/
def execAssert (src srcPol : Nat) (p : Fin 16) (x : OwnBody) (s : State) : Host.Outcome State Fault Refusal :=
  work s (fun _ m => deliver m src srcPol p.val 0 0x05 (fun m => recvAssert m src srcPol x))

/-- ASSERT_REPLY (R103). -/
def execAssertReply (src srcPol : Nat) (p : Fin 16) (x : OwnBody) (s : State) : Host.Outcome State Fault Refusal :=
  work s (fun _ m => deliver m src srcPol p.val 0 0x06 (fun m => recvAssertReply m src x))

/-- JOURNAL (R110). -/
def execJournal (src srcPol : Nat) (p : Fin 16) (recs : List JRec) (s : State) : Host.Outcome State Fault Refusal :=
  work s (fun _ m => deliver m src srcPol p.val 0 0x08 (fun m => recvJournal m src recs))

/-- JOURNAL_ACK (R111). -/
def execJournalAck (src jseq : Nat) (hv : HostGen) (s : State) : Host.Outcome State Fault Refusal :=
  work s (fun _ m => deliver m src 0 0 0 0x09 (fun m => kickAll (recvJournalAck m src jseq) hv))

/-- JOURNAL_FLUSH (R111). -/
def execJournalFlush (t : Nat) (s : State) : Host.Outcome State Fault Refusal := work s (fun _ m => journalFlush m t)

/-- BUDDY_DEGRADE (R112). -/
def execBuddyDegrade (t : Nat) (s : State) : Host.Outcome State Fault Refusal := work s (fun _ m => buddyDegrade m t)

/-- PEER_FAILURE_DECLARED (R113). -/
def execPeerFailureDeclared (src t : Nat) (s : State) : Host.Outcome State Fault Refusal := work s (fun _ m => peerDown m (peerFailure m src t) src)

/-- NOTICE (R472). -/
def execNotice (s : State) : Host.Outcome State Fault Refusal := work s (fun _ m => noticeFrame m)

/-- DIR_REFETCH (R93). -/
def execDirRefetch (idx : Nat) (x : Desc) (s : State) : Host.Outcome State Fault Refusal := work s (fun _ m => dirRefetch m idx x)

end Sys2Proof.Machine
end

