-- ==== Sys2Proof/Machine/ExecPower.lean ====
section
/-! DEFINITION. The meanings of commands: Power and energy (chapter 11). -/

namespace Sys2Proof.Machine

/-- POWER_BUDGET (R337). -/
def execPowerBudget (b : Box) (s : State) : Host.Outcome State Fault Refusal := work s (fun _ m => powerBudget m b)

/-- POWER_BUDGET_POLDER (R337). -/
def execPowerBudgetPolder (b : Box) (s : State) : Host.Outcome State Fault Refusal := work s (fun _ m => powerBudgetPolder m b)

/-- CLAMP_RELEASE (R333). -/
def execClampRelease (b : Box) (s : State) : Host.Outcome State Fault Refusal := work s (fun _ m => clampRelease m b)

/-- PACE_UPDATE (R124). -/
def execPaceUpdate (p : Fin 16) (rates : List Nat) (t : Nat) (s : State) : Host.Outcome State Fault Refusal :=
  work s (fun _ m => paceUpdate m p rates t)

/-- CONTROL_INTERVAL (R334). -/
def execControlInterval (x : PwrSample) (t : Nat) (s : State) : Host.Outcome State Fault Refusal := work s (fun _ m => controlInterval m x t)

/-- THERMAL_SAMPLE (R338). -/
def execThermalSample (temps : List Int) (t : Clocks) (s : State) : Host.Outcome State Fault Refusal := work s (fun _ m => thermalSample m temps t.hvl t.wd)

/-- THERM_VHI_STEP (R338). -/
def execThermVhiStep (t : Nat) (s : State) : Host.Outcome State Fault Refusal := work s (fun _ m => thermVhiStep m t)

/-- POWER_REQUEST (R341). -/
def execPowerRequest (src t : Nat) (y : PowerMsg) (s : State) : Host.Outcome State Fault Refusal := work s (fun _ m => powerRequest m src t y)

/-- POWER_OFFER (R342). -/
def execPowerOffer (src t : Nat) (y : PowerMsg) (s : State) : Host.Outcome State Fault Refusal := work s (fun _ m => powerOffer m src t y)

/-- OFFER_DEADLINE (R342). -/
def execOfferDeadline (t : Nat) (s : State) : Host.Outcome State Fault Refusal := work s (fun _ m => offerDeadline m t)

/-- OFFER_RETURN (R342). -/
def execOfferReturn (t : Nat) (s : State) : Host.Outcome State Fault Refusal := work s (fun _ m => offerReturn m t)

/-- ACCOUNTING_CLOSE (R346). -/
def execAccountingClose (p : Fin 16) (t : Nat) (s : State) : Host.Outcome State Fault Refusal := work s (fun _ m => accountingClose m p t)

end Sys2Proof.Machine
end

