-- ==== Sys2Proof/Machine/ExecRegs.lean ====
section
/-! DEFINITION. The meanings of commands: Register accesses (chapter 15). -/

namespace Sys2Proof.Machine

/-- SEC_PRIV_MAP_WRITE (R432). -/
def execSecPrivMapWrite (v : Nat) (pr : Priv) (s : State) : Host.Outcome State Fault Refusal := work s (fun _ m => secPrivMapWrite m v pr)

/-- TST_RES_INJECT (R451). -/
def execTstResInject (v : Nat) (pr : Priv) (s : State) : Host.Outcome State Fault Refusal := work s (fun z m => tstResInject z m v pr)

/-- TST_ECC_INJECT (R451). -/
def execTstEccInject (v : Nat) (pr : Priv) (s : State) : Host.Outcome State Fault Refusal := work s (fun z m => tstEccInject z m v pr)

/-- TST_STALL_INJECT (R451). -/
def execTstStallInject (v : Nat) (pr : Priv) (s : State) : Host.Outcome State Fault Refusal := work s (fun z m => tstStallInject z m v pr)

/-- TST_LOCKSTEP_INJECT (R451). -/
def execTstLockstepInject (v : Nat) (pr : Priv) (s : State) : Host.Outcome State Fault Refusal := work s (fun z m => tstLockstepInject z m v pr)

/-- TST_TR_INJECT (R451). -/
def execTstTrInject (v : Nat) (pr : Priv) (s : State) : Host.Outcome State Fault Refusal := work s (fun z m => tstTrInject z m v pr)

/-- TST_SENSOR_OFFSET (R451). -/
def execTstSensorOffset (v : Nat) (pr : Priv) (s : State) : Host.Outcome State Fault Refusal := work s (fun z m => tstSensorOffset z m v pr)

/-- REGISTER_WRITE (R431). -/
def execRegisterWrite (r : Region) (off v : Nat) (pr : Priv) (s : State) : Host.Outcome State Fault Refusal :=
  work s (fun z m => registerWrite z m r off v pr)

/-- CMP_LO_READ (R449). -/
def execCmpLoRead (n : Fin 16) (pr : Priv) (s : State) : Host.Outcome State Fault Refusal := work s (fun _ m => cmpLoRead m n pr)

/-- CMP_HI_READ (R449). -/
def execCmpHiRead (n : Fin 16) (pr : Priv) (s : State) : Host.Outcome State Fault Refusal := work s (fun _ m => cmpHiRead m n pr)

/-- XD_STALL_READ (R434). -/
def execXdStallRead (r : Region) (a : ReadAt) (pr : Priv) (s : State) : Host.Outcome State Fault Refusal :=
  work s (fun z m => xdStallRead z m r a.off pr a.wide)

/-- XD_TIMEOUT (R434). -/
def execXdTimeout (r : Region) (off : Nat) (s : State) : Host.Outcome State Fault Refusal := work s (fun _ m => xdTimeoutRow m r off)

/-- MIRROR_REFRESH (R434). -/
def execMirrorRefresh (s : State) : Host.Outcome State Fault Refusal := work s (fun z m => mirrorRefresh z m)

/-- TR_SWEEP (R437). -/
def execTrSweep (t : Nat) (s : State) : Host.Outcome State Fault Refusal := work s (fun z m => trSweep z m t)

end Sys2Proof.Machine
end

