-- ==== Sys2Proof/Machine/ExecRing.lean ====
section
/-! DEFINITION. The meanings of commands: Rings and events (chapter 14). -/

namespace Sys2Proof.Machine

/-- RING_INTAKE (R414). -/
def execRingIntake (p : Fin 16) (t : Nat) (heads : List HeadEntry) (hv : HostGen) (s : State) : Host.Outcome State Fault Refusal :=
  work s (fun _ m => kick (ringIntake m p t heads) p hv)

/-- EVENT_POST (R423). -/
def execEventPost (p : Fin 16) (s : State) : Host.Outcome State Fault Refusal := work s (fun _ m => eventPost m p)

/-- SQ_TAIL_WRITE (R413). -/
def execSqTailWrite (p q : Fin 16) (v : Nat) (pr : Priv) (s : State) : Host.Outcome State Fault Refusal := work s (fun _ m => sqTailWrite m p q v pr)

/-- CQ_HEAD_WRITE (R413). -/
def execCqHeadWrite (p c : Fin 16) (v : Nat) (pr : Priv) (s : State) : Host.Outcome State Fault Refusal := work s (fun _ m => cqHeadWrite m p c v pr)

/-- SQ_CTRL_WRITE (R412). -/
def execSqCtrlWrite (p q : Fin 16) (v : Nat) (pr : Priv) (s : State) : Host.Outcome State Fault Refusal := work s (fun _ m => sqCtrlWrite m p q v pr)

/-- CQ_CTRL_WRITE (R415). -/
def execCqCtrlWrite (p c : Fin 16) (v : Nat) (pr : Priv) (s : State) : Host.Outcome State Fault Refusal := work s (fun _ m => cqCtrlWrite m p c v pr)

/-- CQ_MOD_TIMER (R426). -/
def execCqModTimer (p c : Fin 16) (t : Nat) (s : State) : Host.Outcome State Fault Refusal := work s (fun _ m => cqModTimer m p c t)

end Sys2Proof.Machine
end

