-- ==== Sys2Proof/Machine/ExecSess.lean ====
section
/-! DEFINITION. The meanings of commands: Session commands (chapter 03). -/

namespace Sys2Proof.Machine

/-- SESS_OPEN (R96). -/
def execSessOpen (p : Fin 16) (tag : Nat) (s : State) : Host.Outcome State Fault Refusal := work s (fun _ m => sessOpen m p tag)

/-- SESS_PARK (R97). -/
def execSessPark (p : Fin 16) (tag : Nat) (s : State) : Host.Outcome State Fault Refusal := work s (fun _ m => sessPark m p tag)

/-- SESS_REVIVE (R64). -/
def execSessRevive (p : Fin 16) (tag : Nat) (hv : HostGen) (s : State) : Host.Outcome State Fault Refusal :=
  work s (fun _ m => kick (sessRevive m p tag) p hv)

/-- SESS_MOVE (R101). -/
def execSessMove (p : Fin 16) (tag : Nat) (s : State) : Host.Outcome State Fault Refusal := work s (fun _ m => sessMove m p tag)

/-- SESS_FORK (R99). -/
def execSessFork (p : Fin 16) (tag : Nat) (s : State) : Host.Outcome State Fault Refusal := work s (fun _ m => sessFork m p tag)

/-- SESS_RETIRE (R97). -/
def execSessRetire (p : Fin 16) (tag : Nat) (s : State) : Host.Outcome State Fault Refusal := work s (fun _ m => sessRetire m p tag)

/-- SESS_HANDOFF_OUT (R103). -/
def execSessHandoffOut (p : Fin 16) (tag : Nat) (s : State) : Host.Outcome State Fault Refusal := work s (fun _ m => sessHandoffOut m p tag)

/-- SESS_HANDOFF_IN (R107). -/
def execSessHandoffIn (p : Fin 16) (tag : Nat) (hv : HostGen) (s : State) : Host.Outcome State Fault Refusal :=
  work s (fun _ m => kick (sessHandoffIn m p tag) p hv)

/-- SESS_QUERY (R106). -/
def execSessQuery (p : Fin 16) (tag : Nat) (s : State) : Host.Outcome State Fault Refusal := work s (fun _ m => sessQuery m p tag)

/-- REVIVAL_RESUME (R64). -/
def execRevivalResume (p : Fin 16) (idx : Nat) (s : State) : Host.Outcome State Fault Refusal :=
  work s (fun _ m => restoreStream (revivalResume m p idx) p idx)

end Sys2Proof.Machine
end

