-- ==== Sys2Proof/Machine/ExecStart.lean ====
section
/-! DEFINITION. The meanings of commands: Power, pins and start-up (chapters 17 and 18). -/

namespace Sys2Proof.Machine

/-- COLD_START (R481). -/
def execColdStart (b : Machine.BootIn) (upTo : Nat) (s : State) : Host.Outcome State Fault Refusal := alwaysF s (fun z m => coldStart z m b upTo)

/-- POWER_FAILURE (R511). -/
def execPowerFailure (s : State) : Host.Outcome State Fault Refusal := always s (fun _ m => powerFailure m)

/-- POWER_FAIL_PROGRAMS_DONE (R511). -/
def execPowerFailProgramsDone (s : State) : Host.Outcome State Fault Refusal := always s (fun _ m => powerFailDone m)

/-- VIN_RANGE (R508). -/
def execVinRange (mv : Nat) (s : State) : Host.Outcome State Fault Refusal := work s (fun _ m => vinRange m mv)

/-- MODULE_RESET (R498). -/
def execModuleReset (s : State) : Host.Outcome State Fault Refusal := always s (fun _ m => moduleReset m)

/-- HVL_RST (R514). -/
def execHvlRst (s : State) : Host.Outcome State Fault Refusal := always s (fun _ m => hvlRst m)

/-- PORT_RETRY (R484). -/
def execPortRetry (k : Fin 4) (up : Bool) (t : Nat) (s : State) : Host.Outcome State Fault Refusal := work s (fun _ m => portRetry m k up t)

/-- MRST_L_RELEASE (R517). -/
def execMrstLRelease (b : Machine.BootIn) (upTo : Nat) (s : State) : Host.Outcome State Fault Refusal := alwaysF s (fun z m => mrstRelease z m b upTo)

/-- HVL_RST_L_RELEASE (R514). -/
def execHvlRstLRelease (gen : Nat) (s : State) : Host.Outcome State Fault Refusal := always s (fun _ m => hvlRelease m gen)

end Sys2Proof.Machine
end

