-- ==== Sys2Proof/Machine/ExecTraffic.lean ====
section
/-! DEFINITION. The meanings of commands: Policers, sluices and frames (chapters 10 and 16). -/

namespace Sys2Proof.Machine

/-- SLUICE_LOAD (R322). -/
def execSluiceLoad (b : Box) (list : Block) (s : State) : Host.Outcome State Fault Refusal :=
  work s (fun _ m => keepCfg b m (sluiceLoad m b list))

/-- SLUICE_REMOVE (R325). -/
def execSluiceRemove (b : Box) (s : State) : Host.Outcome State Fault Refusal := work s (fun _ m => keepCfg b m (sluiceRemove m b))

/-- POLICER_SET (R316). -/
def execPolicerSet (b : Box) (s : State) : Host.Outcome State Fault Refusal := work s (fun _ m => policerSet m b)

/-- POLICER_DISABLE (R316). -/
def execPolicerDisable (b : Box) (s : State) : Host.Outcome State Fault Refusal := work s (fun _ m => policerDisable m b)

/-- WFQ_SET (R320). -/
def execWfqSet (b : Box) (s : State) : Host.Outcome State Fault Refusal := work s (fun _ m => keepCfg b m (wfqSet m b))

/-- INGRESS_FRAME (R459). -/
def execIngressFrame (k : Fin 4) (w : Wire) (used size : Nat) (s : State) : Host.Outcome State Fault Refusal :=
  work s (fun _ m => ingressFrame m k w used size)

/-- MKA_FRAME (R458). -/
def execMkaFrame (k : Fin 4) (agreed : Bool) (s : State) : Host.Outcome State Fault Refusal := work s (fun _ m => mkaFrame m k agreed)

/-- NEIGHBOUR_FRAME (R458). -/
def execNeighbourFrame (k : Fin 4) (addr : Nat) (s : State) : Host.Outcome State Fault Refusal := work s (fun _ m => neighbourFrame m k addr)

/-- POLICER_REFILL (R314). -/
def execPolicerRefill (p : Fin 16) (t : Nat) (s : State) : Host.Outcome State Fault Refusal :=
  work s (fun _ m => keepCfg .mgmt m (policerRefill m p t))

/-- SLUICE_ENTRY (R321). -/
def execSluiceEntry (k : Fin 4) (t : Nat) (s : State) : Host.Outcome State Fault Refusal := work s (fun _ m => sluiceEntry m k t)

/-- SLUICE_CHANGE (R325). -/
def execSluiceChange (k : Fin 4) (t : Nat) (s : State) : Host.Outcome State Fault Refusal := work s (fun _ m => sluiceChange m k t)

/-- FRAME_TX_DONE (R324). -/
def execFrameTxDone (k : Fin 4) (t : Nat) (s : State) : Host.Outcome State Fault Refusal := work s (fun _ m => frameTxDone m k t)

end Sys2Proof.Machine
end

