-- ==== Sys2Proof/Machine/ExecVec.lean ====
section
/-! DEFINITION. The meanings of commands: Vector search (chapter 08). -/

namespace Sys2Proof.Machine

/-- VEC_QUERY (R274). -/
def execVecQuery (p : Fin 16) (tag : Nat) (blk : Block) (s : State) : Host.Outcome State Fault Refusal := work s (fun _ m => vecQuery m p tag blk)

/-- VEC_INSERT (R262). -/
def execVecInsert (p : Fin 16) (tag : Nat) (recs : Block) (s : State) : Host.Outcome State Fault Refusal :=
  work s (fun _ m => vecInsert m p tag recs)

/-- VEC_DELETE (R263). -/
def execVecDelete (p : Fin 16) (tag : Nat) (s : State) : Host.Outcome State Fault Refusal := work s (fun _ m => vecDelete m p tag)

/-- VEC_DEFINE (R254). -/
def execVecDefine (p : Fin 16) (tag : Nat) (blk cents : Block) (s : State) : Host.Outcome State Fault Refusal :=
  work s (fun _ m => vecDefine m p tag blk cents)

/-- VEC_BUILD (R267). -/
def execVecBuild (p : Fin 16) (tag : Nat) (recs : Block) (s : State) : Host.Outcome State Fault Refusal :=
  work s (fun _ m => vecBuild m p tag recs)

/-- VEC_DROP_LIST (R267). -/
def execVecDropList (p : Fin 16) (tag : Nat) (s : State) : Host.Outcome State Fault Refusal := work s (fun _ m => vecDropList m p tag)

/-- VEC_DROP_INDEX (R267). -/
def execVecDropIndex (p : Fin 16) (tag : Nat) (s : State) : Host.Outcome State Fault Refusal := work s (fun _ m => vecDropIndex m p tag)

/-- VEC_COMPACT (R266). -/
def execVecCompact (p : Fin 16) (tag : Nat) (s : State) : Host.Outcome State Fault Refusal := work s (fun _ m => vecCompact m p tag)

/-- SEAL_RETRY (R265). -/
def execSealRetry (p : Fin 16) (s : State) : Host.Outcome State Fault Refusal := work s (fun _ m => sealRetry m p)

/-- BATCH_TIMER (R276). -/
def execBatchTimer (p : Fin 16) (t : Nat) (s : State) : Host.Outcome State Fault Refusal := work s (fun _ m => batchTimer m p t)

/-- VISIT_END (R276). -/
def execVisitEnd (p : Fin 16) (id t : Nat) (bad : List Nat) (s : State) : Host.Outcome State Fault Refusal :=
  work s (fun _ m => visitEnd m p id t bad)

/-- QUERY_DEADLINE (R280). -/
def execQueryDeadline (p : Fin 16) (tag t : Nat) (s : State) : Host.Outcome State Fault Refusal := work s (fun _ m => queryDeadline m p tag t)

end Sys2Proof.Machine
end

