-- ==== Sys2Proof/Machine/ExecWarden.lean ====
section
/-! DEFINITION. The meanings of commands: Warden commands (R393 to R397). -/

namespace Sys2Proof.Machine

/-- FAULT_LOG_READ (R396). -/
def execFaultLogRead (s : State) : Host.Outcome State Fault Refusal := work s (fun _ m => faultLogRead m)

/-- POLDER_FENCE (R389). -/
def execPolderFence (s : State) : Host.Outcome State Fault Refusal := work s (fun _ m => polderFence m)

/-- POWER_CLAMP (R340). -/
def execPowerClamp (s : State) : Host.Outcome State Fault Refusal := work s (fun _ m => powerClampCmd m)

/-- MODULE_SEAL (R390). -/
def execModuleSeal (step : Nat) (s : State) : Host.Outcome State Fault Refusal := work s (fun z m => moduleSeal z m step)

/-- IDENTITY_QUOTE (R360). -/
def execIdentityQuote (s : State) : Host.Outcome State Fault Refusal := work s (fun z m => identityQuoteCmd z m)

/-- WARM_RESET (R499). -/
def execWarmReset (b : Machine.BootIn) (upTo : Nat) (s : State) : Host.Outcome State Fault Refusal := workF s (fun z m => warmReset z m b upTo)

/-- WARDEN_THERM_CLAMP (R397). -/
def execWardenThermClamp (t : Clocks) (s : State) : Host.Outcome State Fault Refusal := work s (fun _ m => wardenThermClamp m t.hvl t.wd)

/-- THERM_TRIP (R397). -/
def execThermTrip (s : State) : Host.Outcome State Fault Refusal := work s (fun z m => thermTrip z m)

end Sys2Proof.Machine
end

