-- ==== Sys2Proof/Machine/Dispatch.lean ====
section
/-! DEFINITION. The dispatch of the commands: one arm per constructor, each one direct call of its meaning. -/

namespace Sys2Proof.Machine

def exec (i : Instr) (s : State) : Host.Outcome State Fault Refusal :=
  match i with
  | .coldStart b upTo => Sys2Proof.Machine.execColdStart b upTo s
  | .powerFailure => Sys2Proof.Machine.execPowerFailure s
  | .powerFailProgramsDone => Sys2Proof.Machine.execPowerFailProgramsDone s
  | .vinRange mv => Sys2Proof.Machine.execVinRange mv s
  | .moduleReset => Sys2Proof.Machine.execModuleReset s
  | .hvlRst => Sys2Proof.Machine.execHvlRst s
  | .portRetry k up t => Sys2Proof.Machine.execPortRetry k up t s
  | .sessOpen p tag => Sys2Proof.Machine.execSessOpen p tag s
  | .sessPark p tag => Sys2Proof.Machine.execSessPark p tag s
  | .sessRevive p tag hv => Sys2Proof.Machine.execSessRevive p tag hv s
  | .sessMove p tag => Sys2Proof.Machine.execSessMove p tag s
  | .sessFork p tag => Sys2Proof.Machine.execSessFork p tag s
  | .sessRetire p tag => Sys2Proof.Machine.execSessRetire p tag s
  | .sessHandoffOut p tag => Sys2Proof.Machine.execSessHandoffOut p tag s
  | .sessHandoffIn p tag hv => Sys2Proof.Machine.execSessHandoffIn p tag hv s
  | .sessQuery p tag => Sys2Proof.Machine.execSessQuery p tag s
  | .genStep p tag hv => Sys2Proof.Machine.execGenStep p tag hv s
  | .genPrefillAccept p tag hist hv => Sys2Proof.Machine.execGenPrefillAccept p tag hist hv s
  | .genStop p tag => Sys2Proof.Machine.execGenStop p tag s
  | .genStopJob p tag => Sys2Proof.Machine.execGenStopJob p tag s
  | .genSpecConf p tag => Sys2Proof.Machine.execGenSpecConf p tag s
  | .samplerConf p tag bulk => Sys2Proof.Machine.execSamplerConf p tag bulk s
  | .krnSubmit p tag => Sys2Proof.Machine.execKrnSubmit p tag s
  | .modelLoad p tag man img => Sys2Proof.Machine.execModelLoad p tag man img s
  | .modelEvict p tag => Sys2Proof.Machine.execModelEvict p tag s
  | .modelEvictCrest p tag => Sys2Proof.Machine.execModelEvictCrest p tag s
  | .modelPin p tag => Sys2Proof.Machine.execModelPin p tag s
  | .modelUnpin p tag => Sys2Proof.Machine.execModelUnpin p tag s
  | .vecQuery p tag blk => Sys2Proof.Machine.execVecQuery p tag blk s
  | .vecInsert p tag recs => Sys2Proof.Machine.execVecInsert p tag recs s
  | .vecDelete p tag => Sys2Proof.Machine.execVecDelete p tag s
  | .vecDefine p tag blk cents => Sys2Proof.Machine.execVecDefine p tag blk cents s
  | .vecBuild p tag recs => Sys2Proof.Machine.execVecBuild p tag recs s
  | .vecDropList p tag => Sys2Proof.Machine.execVecDropList p tag s
  | .vecDropIndex p tag => Sys2Proof.Machine.execVecDropIndex p tag s
  | .vecCompact p tag => Sys2Proof.Machine.execVecCompact p tag s
  | .sealRetry p => Sys2Proof.Machine.execSealRetry p s
  | .memMap p tag => Sys2Proof.Machine.execMemMap p tag s
  | .memMapRelease p tag => Sys2Proof.Machine.execMemMapRelease p tag s
  | .memMapRemap p tag => Sys2Proof.Machine.execMemMapRemap p tag s
  | .memPrefetch p tag => Sys2Proof.Machine.execMemPrefetch p tag s
  | .memPin p tag => Sys2Proof.Machine.execMemPin p tag s
  | .memUnpin p tag => Sys2Proof.Machine.execMemUnpin p tag s
  | .ckptBegin p tag => Sys2Proof.Machine.execCkptBegin p tag s
  | .ckptExport p tag => Sys2Proof.Machine.execCkptExport p tag s
  | .ckptCommit p tag => Sys2Proof.Machine.execCkptCommit p tag s
  | .ckptRestore p tag stream => Sys2Proof.Machine.execCkptRestore p tag stream s
  | .ckptDrop p tag => Sys2Proof.Machine.execCkptDrop p tag s
  | .ckptCopyDone p sid => Sys2Proof.Machine.execCkptCopyDone p sid s
  | .replicaReclaim p t => Sys2Proof.Machine.execReplicaReclaim p t s
  | .restoreLoadDone p idx => Sys2Proof.Machine.execRestoreLoadDone p idx s
  | .profileSelect b => Sys2Proof.Machine.execProfileSelect b s
  | .polderCompose b tenant => Sys2Proof.Machine.execPolderCompose b tenant s
  | .polderDissolve b => Sys2Proof.Machine.execPolderDissolve b s
  | .polderReset b step good => Sys2Proof.Machine.execPolderReset b step good s
  | .fwUpdateStage b img => Sys2Proof.Machine.execFwUpdateStage b img s
  | .fwUpdateDiscard b => Sys2Proof.Machine.execFwUpdateDiscard b s
  | .fwUpdateActivate b step good => Sys2Proof.Machine.execFwUpdateActivate b step good s
  | .attestQuote b => Sys2Proof.Machine.execAttestQuote b s
  | .keyRotateAtRest b => Sys2Proof.Machine.execKeyRotateAtRest b s
  | .keyRotateBounce b setup => Sys2Proof.Machine.execKeyRotateBounce b setup s
  | .powerBudget b => Sys2Proof.Machine.execPowerBudget b s
  | .powerBudgetPolder b => Sys2Proof.Machine.execPowerBudgetPolder b s
  | .clampRelease b => Sys2Proof.Machine.execClampRelease b s
  | .quotaSet b => Sys2Proof.Machine.execQuotaSet b s
  | .sluiceLoad b list => Sys2Proof.Machine.execSluiceLoad b list s
  | .sluiceRemove b => Sys2Proof.Machine.execSluiceRemove b s
  | .policerSet b => Sys2Proof.Machine.execPolicerSet b s
  | .policerDisable b => Sys2Proof.Machine.execPolicerDisable b s
  | .wfqSet b => Sys2Proof.Machine.execWfqSet b s
  | .fenceUnit b => Sys2Proof.Machine.execFenceUnit b s
  | .unfenceUnit b pass => Sys2Proof.Machine.execUnfenceUnit b pass s
  | .timeSyncConf b => Sys2Proof.Machine.execTimeSyncConf b s
  | .energyReport b => Sys2Proof.Machine.execEnergyReport b s
  | .peerConf b => Sys2Proof.Machine.execPeerConf b s
  | .ckptSchedule b => Sys2Proof.Machine.execCkptSchedule b s
  | .cntSnap b t ts => Sys2Proof.Machine.execCntSnap b t ts s
  | .cntSnapPolder b t pt => Sys2Proof.Machine.execCntSnapPolder b t pt s
  | .faultLogRead => Sys2Proof.Machine.execFaultLogRead s
  | .polderFence => Sys2Proof.Machine.execPolderFence s
  | .powerClamp => Sys2Proof.Machine.execPowerClamp s
  | .moduleSeal step => Sys2Proof.Machine.execModuleSeal step s
  | .identityQuote => Sys2Proof.Machine.execIdentityQuote s
  | .warmReset b upTo => Sys2Proof.Machine.execWarmReset b upTo s
  | .ringIntake p t heads hv => Sys2Proof.Machine.execRingIntake p t heads hv s
  | .eventPost p => Sys2Proof.Machine.execEventPost p s
  | .sqTailWrite p q v pr => Sys2Proof.Machine.execSqTailWrite p q v pr s
  | .cqHeadWrite p c v pr => Sys2Proof.Machine.execCqHeadWrite p c v pr s
  | .sqCtrlWrite p q v pr => Sys2Proof.Machine.execSqCtrlWrite p q v pr s
  | .cqCtrlWrite p c v pr => Sys2Proof.Machine.execCqCtrlWrite p c v pr s
  | .secPrivMapWrite v pr => Sys2Proof.Machine.execSecPrivMapWrite v pr s
  | .tstResInject v pr => Sys2Proof.Machine.execTstResInject v pr s
  | .tstEccInject v pr => Sys2Proof.Machine.execTstEccInject v pr s
  | .tstStallInject v pr => Sys2Proof.Machine.execTstStallInject v pr s
  | .tstLockstepInject v pr => Sys2Proof.Machine.execTstLockstepInject v pr s
  | .tstTrInject v pr => Sys2Proof.Machine.execTstTrInject v pr s
  | .tstSensorOffset v pr => Sys2Proof.Machine.execTstSensorOffset v pr s
  | .registerWrite r off v pr => Sys2Proof.Machine.execRegisterWrite r off v pr s
  | .cmpLoRead n pr => Sys2Proof.Machine.execCmpLoRead n pr s
  | .cmpHiRead n pr => Sys2Proof.Machine.execCmpHiRead n pr s
  | .xdStallRead r a pr => Sys2Proof.Machine.execXdStallRead r a pr s
  | .xdTimeout r off => Sys2Proof.Machine.execXdTimeout r off s
  | .mirrorRefresh => Sys2Proof.Machine.execMirrorRefresh s
  | .statusWord => Sys2Proof.Machine.execStatusWord s
  | .readVin => Sys2Proof.Machine.execReadVin s
  | .readIin => Sys2Proof.Machine.execReadIin s
  | .readTemperature1 => Sys2Proof.Machine.execReadTemperature1 s
  | .readPout => Sys2Proof.Machine.execReadPout s
  | .wmbOffset off pec => Sys2Proof.Machine.execWmbOffset off pec s
  | .wmbWrite ws pec => Sys2Proof.Machine.execWmbWrite ws pec s
  | .wmbRead n => Sys2Proof.Machine.execWmbRead n s
  | .alertResponse => Sys2Proof.Machine.execAlertResponse s
  | .bypass => Sys2Proof.Machine.execBypass s
  | .idcode => Sys2Proof.Machine.execIdcode s
  | .samplePreload => Sys2Proof.Machine.execSamplePreload s
  | .extest => Sys2Proof.Machine.execExtest s
  | .extestPulse => Sys2Proof.Machine.execExtestPulse s
  | .extestTrain => Sys2Proof.Machine.execExtestTrain s
  | .clamp => Sys2Proof.Machine.execClamp s
  | .highz => Sys2Proof.Machine.execHighz s
  | .stripComplete p a t o hv => Sys2Proof.Machine.execStripComplete p a t o hv s
  | .forcedPass p idx arrs outs hv => Sys2Proof.Machine.execForcedPass p idx arrs outs hv s
  | .residueMismatch a again => Sys2Proof.Machine.execResidueMismatch a again s
  | .handshakeStall p a pass => Sys2Proof.Machine.execHandshakeStall p a pass s
  | .paceUpdate p rates t => Sys2Proof.Machine.execPaceUpdate p rates t s
  | .recallDeadline p id t hv => Sys2Proof.Machine.execRecallDeadline p id t hv s
  | .heatEpoch p t => Sys2Proof.Machine.execHeatEpoch p t s
  | .migrationCommit p n hv => Sys2Proof.Machine.execMigrationCommit p n hv s
  | .revivalResume p idx => Sys2Proof.Machine.execRevivalResume p idx s
  | .tierReadFail p n tries again stripe => Sys2Proof.Machine.execTierReadFail p n tries again stripe s
  | .stripeRowClose row t => Sys2Proof.Machine.execStripeRowClose row t s
  | .toeWriteAck u blk => Sys2Proof.Machine.execToeWriteAck u blk s
  | .programFailure u blk => Sys2Proof.Machine.execProgramFailure u blk s
  | .eraseFailure ch blk => Sys2Proof.Machine.execEraseFailure ch blk s
  | .retentionRelocate ch blk dst t => Sys2Proof.Machine.execRetentionRelocate ch blk dst t s
  | .garbageCollection ch blk dst lvl verify => Sys2Proof.Machine.execGarbageCollection ch blk dst lvl verify s
  | .rebuildComplete p ch => Sys2Proof.Machine.execRebuildComplete p ch s
  | .batchTimer p t => Sys2Proof.Machine.execBatchTimer p t s
  | .visitEnd p id t bad => Sys2Proof.Machine.execVisitEnd p id t bad s
  | .queryDeadline p tag t => Sys2Proof.Machine.execQueryDeadline p tag t s
  | .leaseExpiry p idx t => Sys2Proof.Machine.execLeaseExpiry p idx t s
  | .commitWindowClose p sid t => Sys2Proof.Machine.execCommitWindowClose p sid t s
  | .relinquishedExpiry p idx t => Sys2Proof.Machine.execRelinquishedExpiry p idx t s
  | .restoreLeaseExpiry p idx t => Sys2Proof.Machine.execRestoreLeaseExpiry p idx t s
  | .handoffInWaitExpiry p tag t => Sys2Proof.Machine.execHandoffInWaitExpiry p tag t s
  | .offer src srcPol p x => Sys2Proof.Machine.execOffer src srcPol p x s
  | .page src srcPol p x hv => Sys2Proof.Machine.execPage src srcPol p x hv s
  | .pageAck src srcPol p sid h pseq => Sys2Proof.Machine.execPageAck src srcPol p sid h pseq s
  | .claim src srcPol p x => Sys2Proof.Machine.execClaim src srcPol p x s
  | .claimAck src srcPol p x => Sys2Proof.Machine.execClaimAck src srcPol p x s
  | .abort src srcPol p x => Sys2Proof.Machine.execAbort src srcPol p x s
  | .assert src srcPol p x => Sys2Proof.Machine.execAssert src srcPol p x s
  | .assertReply src srcPol p x => Sys2Proof.Machine.execAssertReply src srcPol p x s
  | .journal src srcPol p recs => Sys2Proof.Machine.execJournal src srcPol p recs s
  | .journalAck src jseq hv => Sys2Proof.Machine.execJournalAck src jseq hv s
  | .journalFlush t => Sys2Proof.Machine.execJournalFlush t s
  | .buddyDegrade t => Sys2Proof.Machine.execBuddyDegrade t s
  | .peerFailureDeclared src t => Sys2Proof.Machine.execPeerFailureDeclared src t s
  | .notice => Sys2Proof.Machine.execNotice s
  | .dirRefetch idx x => Sys2Proof.Machine.execDirRefetch idx x s
  | .culvertData t => Sys2Proof.Machine.execCulvertData t s
  | .culvertAck t => Sys2Proof.Machine.execCulvertAck t s
  | .culvertAckTimer src lane t => Sys2Proof.Machine.execCulvertAckTimer src lane t s
  | .culvertResendTimer dst lane psn t => Sys2Proof.Machine.execCulvertResendTimer dst lane psn t s
  | .keepaliveTimer dst lane t => Sys2Proof.Machine.execKeepaliveTimer dst lane t s
  | .keepalive src => Sys2Proof.Machine.execKeepalive src s
  | .tkHello src srcPol p q ct verifies => Sys2Proof.Machine.execTkHello src srcPol p q ct verifies s
  | .tkRenew p mod pol t => Sys2Proof.Machine.execTkRenew p mod pol t s
  | .tkExpire p mod pol t => Sys2Proof.Machine.execTkExpire p mod pol t s
  | .tkPreviousDiscard p mod pol t => Sys2Proof.Machine.execTkPreviousDiscard p mod pol t s
  | .replDigests src srcPol p sid epoch seq ds => Sys2Proof.Machine.execReplDigests src srcPol p sid epoch seq ds s
  | .replLacks src srcPol p bits => Sys2Proof.Machine.execReplLacks src srcPol p bits s
  | .replChunk src srcPol p digest bytes pay => Sys2Proof.Machine.execReplChunk src srcPol p digest bytes pay s
  | .replRecords src srcPol p sid epoch seq rs => Sys2Proof.Machine.execReplRecords src srcPol p sid epoch seq rs s
  | .replCommit src srcPol p c => Sys2Proof.Machine.execReplCommit src srcPol p c s
  | .replAck src srcPol p sid epoch seq failed => Sys2Proof.Machine.execReplAck src srcPol p sid epoch seq failed s
  | .announce src x coord t => Sys2Proof.Machine.execAnnounce src x coord t s
  | .discoveryBackoff coord t => Sys2Proof.Machine.execDiscoveryBackoff coord t s
  | .anchorAckTimeout coord t => Sys2Proof.Machine.execAnchorAckTimeout coord t s
  | .anchorTick t => Sys2Proof.Machine.execAnchorTick t s
  | .relayForward t => Sys2Proof.Machine.execRelayForward t s
  | .relayAckTimeout t => Sys2Proof.Machine.execRelayAckTimeout t s
  | .ingressFrame k w used size => Sys2Proof.Machine.execIngressFrame k w used size s
  | .mkaFrame k agreed => Sys2Proof.Machine.execMkaFrame k agreed s
  | .neighbourFrame k addr => Sys2Proof.Machine.execNeighbourFrame k addr s
  | .ptpFrame k dom profile off hvlOff ms t => Sys2Proof.Machine.execPtpFrame k dom profile off hvlOff ms t s
  | .timeMessage x delay ms t => Sys2Proof.Machine.execTimeMessage x delay ms t s
  | .lockLoss k t => Sys2Proof.Machine.execLockLoss k t s
  | .policerRefill p t => Sys2Proof.Machine.execPolicerRefill p t s
  | .sluiceEntry k t => Sys2Proof.Machine.execSluiceEntry k t s
  | .sluiceChange k t => Sys2Proof.Machine.execSluiceChange k t s
  | .frameTxDone k t => Sys2Proof.Machine.execFrameTxDone k t s
  | .hvlReadTimeout half cmd box t => Sys2Proof.Machine.execHvlReadTimeout half cmd box t s
  | .controlInterval x t => Sys2Proof.Machine.execControlInterval x t s
  | .thermalSample temps t => Sys2Proof.Machine.execThermalSample temps t s
  | .thermVhiStep t => Sys2Proof.Machine.execThermVhiStep t s
  | .wardenThermClamp t => Sys2Proof.Machine.execWardenThermClamp t s
  | .thermTrip => Sys2Proof.Machine.execThermTrip s
  | .powerRequest src t y => Sys2Proof.Machine.execPowerRequest src t y s
  | .powerOffer src t y => Sys2Proof.Machine.execPowerOffer src t y s
  | .offerDeadline t => Sys2Proof.Machine.execOfferDeadline t s
  | .offerReturn t => Sys2Proof.Machine.execOfferReturn t s
  | .accountingClose p t => Sys2Proof.Machine.execAccountingClose p t s
  | .tokenRingModTimer p tag t => Sys2Proof.Machine.execTokenRingModTimer p tag t s
  | .cqModTimer p c t => Sys2Proof.Machine.execCqModTimer p c t s
  | .drbgReseed p => Sys2Proof.Machine.execDrbgReseed p s
  | .keySweep p n => Sys2Proof.Machine.execKeySweep p n s
  | .fabricPortError a t => Sys2Proof.Machine.execFabricPortError a t s
  | .fabricWedge t => Sys2Proof.Machine.execFabricWedge t s
  | .actStoreEcc a t uncorr detail => Sys2Proof.Machine.execActStoreEcc a t uncorr detail s
  | .crestEcc die uncorr page detail => Sys2Proof.Machine.execCrestEcc die uncorr page detail s
  | .crestScrub t => Sys2Proof.Machine.execCrestScrub t s
  | .crestDieFault die => Sys2Proof.Machine.execCrestDieFault die s
  | .bermEcc d t uncorr again page detail => Sys2Proof.Machine.execBermEcc d t uncorr again page detail s
  | .bermDeviceFault d cause t => Sys2Proof.Machine.execBermDeviceFault d cause t s
  | .bermTrainingCheck t bad => Sys2Proof.Machine.execBermTrainingCheck t bad s
  | .toeChannelFault ch cause => Sys2Proof.Machine.execToeChannelFault ch cause s
  | .lockstepMismatch k => Sys2Proof.Machine.execLockstepMismatch k s
  | .heartbeatLoss k t => Sys2Proof.Machine.execHeartbeatLoss k t s
  | .autoSeal t => Sys2Proof.Machine.execAutoSeal t s
  | .dupMismatch ty n t => Sys2Proof.Machine.execDupMismatch ty n t s
  | .trSweep t => Sys2Proof.Machine.execTrSweep t s
  | .phaseFault n => Sys2Proof.Machine.execPhaseFault n s
  | .vcoreDomainFault g => Sys2Proof.Machine.execVcoreDomainFault g s
  | .hvlLaneCrc half => Sys2Proof.Machine.execHvlLaneCrc half s
  | .hvlLaneLoss half => Sys2Proof.Machine.execHvlLaneLoss half s
  | .ethPortFault k => Sys2Proof.Machine.execEthPortFault k s
  | .sensorImplausible n detail => Sys2Proof.Machine.execSensorImplausible n detail s
  | .oscCheck t tickPs => Sys2Proof.Machine.execOscCheck t tickPs s
  | .faultLogCopy t => Sys2Proof.Machine.execFaultLogCopy t s
  | .mrstLRelease b upTo => Sys2Proof.Machine.execMrstLRelease b upTo s
  | .hvlRstLRelease gen => Sys2Proof.Machine.execHvlRstLRelease gen s
  | .entropyHealthFail => Sys2Proof.Machine.execEntropyHealthFail s

end Sys2Proof.Machine
end

