-- ==== Sys2Proof/Safety.lean ====
section
/-! DEFINITION. The terms statements use: what a command answers, when a command is there to run, and what a safe state is. -/

namespace Sys2Proof.Machine

-- What a command answers.

/-- The next state of a command of a module at work: its own effect, then what follows every effect at the same instant (`settled`). -/
def after (s : State) (m : Mod) : Host.Outcome State Fault Refusal := .next { s with m := settled s.m m }

/-- The next state with the module replaced and nothing else. -/
def withMod (s : State) (m : Mod) : Host.Outcome State Fault Refusal := .next { s with m := m }

-- When a command is there to run.

/-- The module after the command with a TAG has been started (R419). -/
def begun (m : Mod) (p : Fin 16) (tag : Nat) : Mod :=
  modPol m p (fun q => { q with taken := updWhere q.taken (fun x => x.tag == tag) (fun x => { x with started := true }) })

/-- A command of an opcode has been taken from a ring of a polder and may start now (R414, R419). -/
def Takes (s : State) (p : Fin 16) (tag op : Nat) (t : Taken) : Prop :=
  s.m.working = true ∧ startable s.m.pol[p] tag op = some t

/-- The same for an opcode with several rows: the entry is of the row's form. -/
def TakesForm (s : State) (p : Fin 16) (tag op : Nat) (form : Block → Bool) (t : Taken) : Prop :=
  s.m.working = true ∧ startable s.m.pol[p] tag op = some t ∧ form t.entry = true

/-- The module after a mailbox's command has been started. -/
def mbxBegun (m : Mod) (b : Box) : Mod := modMbx m b (fun x => { x with started := true })

/-- A mailbox has accepted a command of an opcode and nothing keeps it from starting (R404, Table 17-11). -/
def Accepts (s : State) (b : Box) (op : Nat) : Prop :=
  s.m.working = true ∧ (getMbx s.m b).busy = true ∧ (getMbx s.m b).started = false ∧ (getMbx s.m b).runCmd % 256 = op ∧
  s.m.sys.wd.coresWedged = false ∧ s.m.sys.wd.sealed = false ∧ (b = .mgmt ∨ s.m.sys.fw.act = none)

/-- The argument of a mailbox's command as it stood at GO (R404). -/
abbrev argOf (s : State) (b : Box) : Block := (getMbx s.m b).runArg

/-- The warden has accepted a command of an opcode and nothing keeps it from starting (R395). -/
def WdAccepts (s : State) (op : Nat) : Prop :=
  s.m.working = true ∧ s.m.sys.wd.mbx.busy = true ∧ s.m.sys.wd.mbx.started = false ∧ s.m.sys.wd.mbx.runCmd % 256 = op

/-- The module after the warden's command has been started. -/
def wdBegun (m : Mod) : Mod := modWmb m (fun x => { x with started := true })

/-- A delivered message of a type stands at the front of its lane from a peer, for a polder that may have it (R389, R459, R466). -/
def Arrived (m : Mod) (src srcPol dstPol lane ty : Nat) : Prop :=
  ∃ z rest, (laneOf m (laneKey src lane)).inbox = z :: rest ∧ z.ty = ty ∧ z.srcPol = srcPol ∧ z.dstPol = dstPol ∧ m.sys.wd.sealed = false ∧
    (src < 4096 ∨ ty = 0x0B) ∧ (moduleLevel ty = true ∨ m.pol[pn dstPol].fenced = false)

/-- The module with that message taken off its lane. -/
def unlaned (m : Mod) (src lane : Nat) : Mod :=
  putLane m (laneKey src lane) { laneOf m (laneKey src lane) with inbox := (laneOf m (laneKey src lane)).inbox.tail }

-- Safe states.

/-- No polder is being dissolved. -/
def NoDissolve (m : Mod) : Prop := ∀ p : Fin 16, m.pol[p].diss = none

/-- Every bit blown in one set of fuses is blown in another, and what no command writes is the same (R351, Table 12-2). -/
structure FusesKeep (f g : Fuses) : Prop where
  uds : g.uds = f.uds
  keyHash : g.keyHash = f.keyHash
  debugLock : g.debugLock = f.debugLock
  serial : g.serial = f.serial
  revoke : ∀ n, bit f.revoke n = true → bit g.revoke n = true
  svnMin : ∀ n, bit f.svnMin n = true → bit g.svnMin n = true

/-- The slots of a completion ring that commands have reserved or unread entries hold never exceed its depth, and no more is read than was posted (R415). -/
def Cq.ok (c : Cq) : Prop := c.head ≤ c.posted ∧ c.used ≤ c.depth

/-- A policer's buckets hold no more than its burst limits (R314). -/
def Policer.bounded (i : Nat) (pl : Policer) : Prop := pl.tc ≤ pl.set.cbs * subUnits i ∧ pl.tp ≤ pl.set.pbs * subUnits i

/-- The nine fence masks (Table 15-7). -/
def fenceFields : List (Fences → Tri Nat) :=
  [Fences.polder, Fences.array, Fences.berm, Fences.toe, Fences.link, Fences.units, Fences.vdom, Fences.phase, Fences.sensor]

/-- Every triplicated field of the module has two copies that agree (R18, Table 15-3). -/
def EveryFieldVotes (m : Mod) : Prop :=
  m.front.profile.vote.isSome = true ∧ (∀ p : Fin 16, m.pol[p].masks.vote.isSome = true ∧ m.pol[p].sec.keysel.vote.isSome = true) ∧
  m.sys.pw.caps.vote.isSome = true ∧ m.front.privMap.vote.isSome = true ∧ m.sys.wd.conf.vote.isSome = true ∧
  ∀ f ∈ fenceFields, (f m.fence).vote.isSome = true

/-- The fault log holds at most 1,024 records (R399). -/
def logBounded (m : Mod) : Prop := m.sys.wd.log.length ≤ 1024

-- What statements compute beside the machine.

/-- The value a LINEAR11 word stands for, times 2^16: an 11-bit two's complement mantissa with a 5-bit two's complement exponent. -/
def lin11 (w : Nat) : Int :=
  (if w % 2048 < 1024 then ((w % 2048 : Nat) : Int) else ((w % 2048 : Nat) : Int) - 2048) *
  ((if w / 2048 < 16 then 2 ^ (w / 2048 + 16) else 2 ^ (w / 2048 - 16) : Nat) : Int)

/-- The record of an entry taken from a ring: its TAG, JOB, ring, completion ring, opcode and session, not yet started (R414, R419). -/
def takenOf (m : Mod) (p r : Fin 16) (e : Block) : Taken :=
  { tag := fld e 2 0 16, job := fld e 4 0 16, sq := r.val, cq := (pn m.pol[p].sqs[r].cq).val, opcode := fld e 0 0 8, entry := e
    engine := isEngine (fld e 0 0 8), after := flg e 1 0, started := false, sess := namedSess m p e }

/-- What happens at a policer: a refill after `k` µs, or the test of a unit that needs some tokens. -/
inductive PolEvent where
  | refill (k : Nat)
  | unit (need : Nat)
  deriving DecidableEq, Repr

/-- A policer after a sequence of refills and tests, with the sum of what was green and the refills so far. -/
def policed (i : Nat) : List PolEvent → Policer × Nat × Nat → Policer × Nat × Nat
  | [], x => x
  | .refill k :: l, (pl, g, n) => policed i l (refillK i k pl, g, n + k)
  | .unit need :: l, (pl, g, n) => policed i l ((police pl need false).2.2, if (police pl need false).1 = 0 then g + need else g, n)

end Sys2Proof.Machine
end

