-- ==== Sys2Proof/Certificates/Slice0/Obligations.lean ====
section
/-! DEFINITION. Statements about the machine for the provers, family by family; each docstring names the rules of spec/ it rests on, and the log entry
where a clause rests on a choice of the model. -/

open Sys2Proof Sys2Proof.Machine

-- The queue, what holds of every command, and what reset leaves.

/-- With a command at the front of the queue a step is that command's effect on the state with the queue's rest (the model's queue, log entry 3).
With no command waiting a step changes nothing (DESIGN CHOICE, log entry 3). -/
def Obligations.StepRunsTheFrontCommand : Prop :=
  (∀ (c : Instr) (rest : List Instr) (s : State), step { s with pending := c :: rest } = exec c { s with pending := rest }) ∧
  (∀ s : State, s.pending = [] → step s = .next s)

/-- Every command answers a next state in every state, and takes nothing from the queue and adds nothing to it: no command of this block stops it. -/
def Obligations.EveryCommandCompletesAndLeavesTheQueue : Prop :=  ∀ (c : Instr) (s : State), ∃ t, exec c s = .next t ∧ t.pending = s.pending

/-- What the register columns of chapters 13 to 15 give right after reset: GLB_ID, GLB_STAGE 1, GLB_STATUS 0, PWR_CAPS with CAP_W 420 and FLOOR_W
120, no cofferdam, WMB_STATE and WMB_CONF 1, every mailbox idle, nothing waiting. The fuse invariant holds right after reset of the fuses as
delivered (the delivered values are the model's, log entry 2). -/
def Obligations.ResetRegisterValues : Prop :=
  (State.reset.pending = [] ∧ State.reset.m.working = false ∧
  (∀ fz, glbRead fz State.reset.m 0x00 = 0x01001600 ∧ glbRead fz State.reset.m 0x0C = 0 ∧ glbRead fz State.reset.m 0x10 = 0 ∧
    glbRead fz State.reset.m 0x18 = 1 ∧ glbRead fz State.reset.m 0x1C = 0) ∧
  pwrRead State.reset.m 0x00 = 0 ∧ pwrRead State.reset.m 0x04 = 0x007801A4 ∧
  (∀ o ∈ [0x00, 0x04, 0x08, 0x10, 0x14, 0x18, 0x1C, 0x20, 0x24, 0x28, 0x2C, 0x30, 0x34, 0x38, 0x3C, 0x40, 0x44, 0x48, 0x4C], fltRead State.reset.m o = 0) ∧
  wmbState State.reset.m = 1 ∧ State.reset.m.sys.wd.conf.read (fun _ _ _ => 1) = 1 ∧ privMapNow State.reset.m = 0 ∧ State.reset.m.front.intEn = 0 ∧
  (∀ b, statOf (getMbx State.reset.m b) = 0) ∧ (∀ p : Fin 16, State.reset.m.pol[p].pintEn = 0 ∧ State.reset.m.pol[p].composed = false)) ∧
  (FusesKeep fusesDelivered State.reset.fuses)

/-- Only a start and an activation can change a fuse: every other command leaves all fuses as they are. -/
def Obligations.OnlyStartsAndActivationChangeFuses : Prop :=
  ∀ (c : Instr) (s t : State), exec c s = .next t →
    (∀ b u, c ≠ .coldStart b u) → (∀ b u, c ≠ .mrstLRelease b u) → (∀ b u, c ≠ .warmReset b u) → (∀ b n g, c ≠ .fwUpdateActivate b n g) →
    t.fuses = s.fuses

/-- A fuse once blown is never restored, and the fuses no command writes keep their values: whatever fuses were blown at some time stay blown after
every step (R351). -/
def Obligations.BlownFusesStayBlown : Prop :=
  ∀ (f : Fuses) (s t : State), FusesKeep f s.fuses → step s = .next t → FusesKeep f t.fuses

/-- While no polder is being dissolved, what follows a command's effect only sends management interrupts 514 and 515: nothing else of the module
changes. Each bit of FLT_STATUS or PWR_STATUS that an effect changed sends management vector 514 once, while INT_EN bit 2 is set; nothing is sent
while it is clear (R425, R436). -/
def Obligations.AftermathOnlySendsInterrupts : Prop :=
  (∀ old m : Mod, NoDissolve m →
    ∃ l : List Nat, (∀ v ∈ l, v = 514 ∨ v = 515) ∧ settled old m = { m with out := m.out ++ l.map Out.irq }) ∧
  (∀ old m : Mod, levelIrq old m =
    if bit m.front.intEn 2 then
      { m with out := m.out ++ List.replicate (popcount ((fltBits old ^^^ fltBits m) + 32 * (pwrBits old ^^^ pwrBits m)) 16) (Out.irq 514) }
    else m)

-- Power, pins, starts, the sideband and the test port (chapters 16 to 18).

/-- A module without power, or held in reset, changes in nothing by any command but those of power, pins, resets and the test port (R511, R517). -/
def Obligations.IdleModuleKeepsItsState : Prop :=
  ∀ (c : Instr) (s : State), s.m.working = false →
    (∀ b u, c ≠ .coldStart b u) → (∀ b u, c ≠ .mrstLRelease b u) → c ≠ .powerFailure → c ≠ .powerFailProgramsDone → c ≠ .moduleReset →
    c ≠ .hvlRst → (∀ g, c ≠ .hvlRstLRelease g) → c ≠ .bypass → c ≠ .idcode → c ≠ .samplePreload → c ≠ .extest → c ≠ .extestPulse →
    c ≠ .extestTrain → c ≠ .clamp → c ≠ .highz →
    exec c s = .next s

/-- The pins (R498, R508, R511, R514, R517): POWER_FAILURE stops work, takes the PHYs down and starts the sequence, its end acknowledges the programs in flight, drives WP_n low and switches the module off,
MRST_L low stops work, HVL_RST_L low takes the link down and its return sets the generation trained, and VIN_GOOD follows VIN with a fault record on
a change. Each equation gives the whole next state. A port that did not come up trains again after READY once its second has passed: it comes up, or
waits another second (R484).
Completes with its own effect under hypotheses on state and operands alone (the equations name next states: `after` and `withMod` are `.next`):
POWER_FAILURE, POWER_FAIL_PROGRAMS_DONE, VIN_RANGE, MODULE_RESET, HVL_RST, PORT_RETRY, HVL_RST_L_RELEASE. -/
def Obligations.PowerAndPinCommands : Prop :=
  (∀ s : State,
    (s.m.sys.pins.failing = false → s.m.sys.pins.off = false →
      exec .powerFailure s = withMod s (modPins (stopWork (cutOff s.m)) (fun p => { p with failing := true, hvlGen := 0, bermRate := [] }))) ∧
    (s.m.sys.pins.failing = true →
      exec .powerFailProgramsDone s = withMod s (modPins
        ((Config.inFlight s.m.free).foldl (fun m a => if canAck m a.1 a.2 then ackUnit m a.1 a.2 else m) { s.m with free := s.m.free + 1 })
        (fun p => { p with failing := false, off := true, wp := 0, tripLow := false }))) ∧
    (s.m.sys.pins.failing = false → s.m.sys.pins.off = false → s.m.sys.pins.mrst = false →
      exec .moduleReset s = withMod s (modPins (stopWork (cutOff s.m)) (fun p => { p with mrst := true }))) ∧
    exec .hvlRst s = withMod s (modPins s.m (fun p => { p with hvlRst := true, hvlGen := 0 })) ∧
    (∀ gen, s.m.sys.pins.hvlRst = true →
      exec (.hvlRstLRelease gen) s = withMod s (modPins s.m (fun p => { p with hvlRst := false, hvlGen := gen }))) ∧
    (∀ mv, s.m.working = true → (51000 ≤ mv ∧ mv ≤ 59000) → s.m.sys.wd.vinGood = true →
      exec (.vinRange mv) s = after s (modPw s.m (fun x => { x with vin := mv }))) ∧
    (∀ mv, s.m.working = true → (mv < 51000 ∨ 59000 < mv) → s.m.sys.wd.vinGood = true →
      exec (.vinRange mv) s =
        after s (logFault (modWd (modPw s.m (fun x => { x with vin := mv })) (fun w => { w with vinGood := false })) 0x1F 0 fVinRange 0 true mv))) ∧
  (∀ (s : State) (k : Fin 4) (t : Nat), s.m.working = true → s.m.front.ready = true → s.m.net.ports[k].up = false → s.m.net.board.isSome = true →
    fencedBit s.m.fence.link k.val = false → s.m.net.ports[k].retryAt ≤ max s.m.hvl t →
    exec (.portRetry k true t) s = after s (portUp (tickHvl s.m t) k) ∧
    exec (.portRetry k false t) s =
      after s (modPort (tickHvl s.m t) k (fun po => { po with retryAt := max s.m.hvl t + 1000000000 })))

/-- COLD_START (R481, R482, Table 17-1): from a module without work and with no pin holding it, the first row leaves the cleared module at the end of
stage 3 with the profile of the straps; a row of a start that has reached stage 13 ends it READY at stage 14, and MRST_L_RELEASE is such a start.
Completes with its own effect under hypotheses on state and operands alone (the equations name next states: `after` and `withMod` are `.next`):
COLD_START, MRST_L_RELEASE. -/
def Obligations.ColdStartRunsTheStages : Prop :=
  (∀ (s : State) (b : BootIn), s.m.working = false → s.m.sys.pins.failing = false → s.m.sys.pins.mrst = false → b.fails = [] →
    ∃ t, exec (.coldStart b 3) s = .next t ∧ t.fuses = s.fuses ∧ t.pending = s.pending ∧ t.m.working = true ∧ t.m.front.stage = 3 ∧
      t.m.front.ready = false ∧ t.m.front.mbxReady = false ∧ t.m.front.profile = Tri.mk1 (b.straps % 4) ∧ t.m.sys.pins.smbAddr = b.smbAddr % 8 ∧
      t.m.hvl = 0 ∧ t.m.ctr = [] ∧ (∀ p : Fin 16, t.m.pol[p].composed = false)) ∧
  (∀ (s : State) (b : BootIn) (n : Nat), starting s.m = true → s.m.front.stage = 13 → s.m.sys.pins.failing = false → s.m.sys.pins.mrst = false → 14 ≤ n →
    exec (.coldStart b n) s = withMod s (resetDone { s.m with front := { s.m.front with stage := 14, ready := true } })) ∧
  (∀ (s : State) (b : BootIn) (n : Nat), s.m.sys.pins.mrst = true → s.m.sys.pins.off = false → s.m.sys.pins.failing = false →
    exec (.mrstLRelease b n) s = exec (.coldStart b n) { s with m := modPins s.m (fun p => { p with mrst := false }) } ∧
    ∃ t, exec (.mrstLRelease b n) s = .next t)

/-- The test port (R479): each instruction is selected; IDCODE answers 0x1160_05CF; EXTEST, CLAMP and HIGHZ stop the module's work until a cold
start. Nothing else changes. Sideband reads answer one value and change nothing else (R477, Table 16-7); the alert response answers only while the
alert is asserted (R476). The warden aperture over SMBus (R477): the offset is set by a multiple of 4 up to 0x0FFC with a good PEC; a block of 1 to 8
words is written or read from it upwards and moves it; a block that would reach beyond 0x0FFC, or one whose PEC fails, changes nothing. A LINEAR11
word is 16 bits and never stands for more than the value it encodes; a value of at most 1023 in whole units is encoded with an error below one unit
(R477; rounding towards zero is the model's choice, log entry 39).
Completes with its own effect under hypotheses on state and operands alone (the equations name next states: `after` and `withMod` are `.next`):
STATUS_WORD, READ_VIN, READ_IIN, READ_TEMPERATURE_1, READ_POUT, WMB_OFFSET, WMB_WRITE, WMB_READ, ALERT_RESPONSE, BYPASS, IDCODE, SAMPLE_PRELOAD,
EXTEST, EXTEST_PULSE, EXTEST_TRAIN, CLAMP, HIGHZ. -/
def Obligations.SidebandAndTestPort : Prop :=
  (∀ s : State, s.m.sys.pins.off = false → (s.m.working = true ∨ s.m.sys.pins.test ≠ 0) →
    exec .bypass s = withMod s (modPins s.m (fun p => { p with test := 1 })) ∧
    exec .idcode s = withMod s (emit (modPins s.m (fun p => { p with test := 2 })) (.reg 0x116005CF)) ∧
    exec .samplePreload s = withMod s (modPins s.m (fun p => { p with test := 3 })) ∧
    exec .extest s = withMod s (stopWork (modPins s.m (fun p => { p with test := 4 }))) ∧
    exec .extestPulse s = withMod s (modPins s.m (fun p => { p with test := 5 })) ∧
    exec .extestTrain s = withMod s (modPins s.m (fun p => { p with test := 6 })) ∧
    exec .clamp s = withMod s (stopWork (modPins s.m (fun p => { p with test := 7 }))) ∧
    exec .highz s = withMod s (stopWork (modPins s.m (fun p => { p with test := 8 })))) ∧
  (∀ s : State, s.m.working = true →
    exec .statusWord s = after s (emit s.m (.reg (
      (if 10 * (s.m.sys.pw.conf.tjSoft : Int) ≤ s.m.sys.pw.tj then 4 else 0) + (if s.m.sys.wd.vinGood then 0 else 8) +
      (if s.m.sys.pw.mode = 2 then 2048 else 0)))) ∧
    exec .readVin s = after s (emit s.m (.reg (linear11 s.m.sys.pw.vin 1000))) ∧
    exec .readIin s = after s (emit s.m (.reg (linear11 s.m.sys.pw.iin 1000))) ∧
    exec .readTemperature1 s = after s (emit s.m (.reg (linear11 s.m.sys.pw.tj 10))) ∧
    exec .readPout s = after s (emit s.m (.reg (linear11 s.m.sys.pw.inMw 1000))) ∧
    (alert s.m = true → exec .alertResponse s = after s (emit s.m (.reg (2 * (0x58 + s.m.sys.pins.smbAddr))))) ∧
    (alert s.m = false → exec .alertResponse s = after s s.m)) ∧
  ((∀ (s : State) (off : Nat), s.m.working = true → off % 4 = 0 → off ≤ 0xFFC →
    exec (.wmbOffset off true) s = after s (modPins s.m (fun p => { p with smbOff := off }))) ∧
  (∀ (s : State) (w : Nat), s.m.working = true → s.m.sys.pins.smbOff + 4 ≤ 0x1000 →
    exec (.wmbWrite [w] true) s = after s (modPins (wmbPut s.m s.m.sys.pins.smbOff (w % 2 ^ 32) true) (fun p => { p with smbOff := s.m.sys.pins.smbOff + 4 }))) ∧
  (∀ s : State, s.m.working = true → s.m.sys.pins.smbOff + 4 ≤ 0x1000 →
    exec (.wmbRead 1) s = after s (modPins (emit s.m (.reg (wmbRead s.m s.m.sys.pins.smbOff .privileged)))
      (fun p => { p with smbOff := s.m.sys.pins.smbOff + 4 }))) ∧
  (∀ (s : State) (ws : List Nat), s.m.working = true → 0x1000 < s.m.sys.pins.smbOff + 4 * ws.length →
    exec (.wmbWrite ws true) s = after s s.m ∧ exec (.wmbRead ws.length) s = after s s.m) ∧
  (∀ (s : State) (ws : List Nat) (off : Nat), s.m.working = true →
    exec (.wmbWrite ws false) s = after s s.m ∧ exec (.wmbOffset off false) s = after s s.m)) ∧
  (∀ n d : Nat, 0 < d → n < 1024 * d →
    linear11 n d < 65536 ∧ lin11 (linear11 n d) * d ≤ (n : Int) * 65536 ∧ ((n : Int) - d) * 65536 < lin11 (linear11 n d) * d)

-- Register apertures (chapter 15).

/-- A write of SEC_PRIV_MAP by a privileged or secure master sets all three copies at once; a user's is ignored and counted in PV_REFUSED (R431,
R432, R437). Register writes (R431, R433, Table 15-2): a privileged write of the interrupt enables of the management and of a polder's aperture, of
WMB_CONF and of an idle mailbox's CMD is stored; while its mailbox is busy CMD is ignored and counted (R405); a user's write of a PV register is
ignored and counted; a write of a user to a polder whose POLDER_PRIV bit is set is ignored and counted (R432); an offset that is no register, or not
aligned, changes nothing.
Completes with its own effect under hypotheses on state and operands alone (the equations name next states: `after` and `withMod` are `.next`):
SEC_PRIV_MAP_WRITE, REGISTER_WRITE. -/
def Obligations.RegisterWrites : Prop :=
  (∀ (s : State) (v : Nat) (pr : Priv), s.m.working = true →
    (pr ≠ .user → exec (.secPrivMapWrite v pr) s = after s { s.m with front := { s.m.front with privMap := Tri.mk1 (v % 2 ^ 17) } }) ∧
    (pr = .user → exec (.secPrivMapWrite v pr) s = after s (minc s.m Ctr.pvRefused 1))) ∧
  (∀ (s : State) (v : Nat), s.m.working = true →
    exec (.registerWrite .mgmt 0x800 v .privileged) s = after s { s.m with front := { s.m.front with intEn := v % 2 ^ 32 % 256 } } ∧
    exec (.registerWrite .mgmt 0x800 v .user) s = after s (minc s.m Ctr.pvRefused 1) ∧
    (s.m.front.mbx.busy = false → exec (.registerWrite .mgmt 0x400 v .privileged) s =
      after s (modMbx s.m .mgmt (fun x => { x with cmd := v % 2 ^ 32 % 2 ^ 14 + v % 2 ^ 32 / 2 ^ 16 * 2 ^ 16 }))) ∧
    (s.m.front.mbx.busy = true → exec (.registerWrite .mgmt 0x400 v .privileged) s =
      after s (modMbx s.m .mgmt (fun x => { x with dropped := (x.dropped + 1) % 2 ^ 32 }))) ∧
    exec (.registerWrite .wmb 0x018 v .privileged) s = after s (modWd s.m (fun w => { w with conf := Tri.mk1 (v % 2 ^ 32 % 2) })) ∧
    (∀ (p : Fin 16) (pr : Priv), polWriteOk s.m p pr = true →
      exec (.registerWrite (.pol p) 0x800 v pr) s = after s (modPol s.m p (fun q => { q with pintEn := v % 2 ^ 32 }))) ∧
    (∀ (p : Fin 16) (off : Nat), polWriteOk s.m p .user = false → off % 4 = 0 →
      exec (.registerWrite (.pol p) off v .user) s = after s (minc s.m Ctr.pvRefused 1)) ∧
    (∀ (r : Region) (off : Nat) (pr : Priv), off % 4 ≠ 0 → exec (.registerWrite r off v pr) s = after s s.m))

/-- A write of a user never gets past a PV register: whatever the register of the management, secure or warden aperture, the module is left as it was
but for PV_REFUSED, or for TST_IGNORED while DEBUG_LOCK is blown (R431, R451). -/
def Obligations.UserWritesOfPrivilegedApertures : Prop :=
  ∀ (fz : Fuses) (m : Mod) (r : Region) (off v : Nat), (∀ p, r ≠ .pol p) →
    registerWrite fz m r off v .user = m ∨ registerWrite fz m r off v .user = minc m Ctr.pvRefused 1 ∨
    (fz.debugLock = true ∧
      registerWrite fz m r off v .user = modWd m (fun w => { w with tstIgnored := (w.tstIgnored + 1) % 2 ^ 32 }))

/-- A write to a polder's aperture touches that polder alone: every other polder, the directory, the fences, the flash, the peers and the power
controller are as before, whoever writes and whatever is written (R403, R431 to R433). -/
def Obligations.PolderApertureIsolation : Prop :=
  ∀ (fz : Fuses) (m : Mod) (p q : Fin 16) (off v : Nat) (pr : Priv), q ≠ p →
    (registerWrite fz m (.pol p) off v pr).pol[q] = m.pol[q] ∧ (registerWrite fz m (.pol p) off v pr).dir = m.dir ∧
    (registerWrite fz m (.pol p) off v pr).fence = m.fence ∧ (registerWrite fz m (.pol p) off v pr).ftl = m.ftl ∧
    (registerWrite fz m (.pol p) off v pr).peers = m.peers ∧ (registerWrite fz m (.pol p) off v pr).jr = m.jr ∧
    (registerWrite fz m (.pol p) off v pr).sys = m.sys ∧ (registerWrite fz m (.pol p) off v pr).front = m.front

/-- Test perturbations (R451, Table 15-14): while DEBUG_LOCK is intact a privileged write arms the named unit's next operation, inverts a copy at
once, or sets a sensor's offset; while it is blown every such write is ignored and counted in TST_IGNORED.
Completes with its own effect under hypotheses on state and operands alone (the equations name next states: `after` and `withMod` are `.next`):
TST_RES_INJECT, TST_ECC_INJECT, TST_STALL_INJECT, TST_LOCKSTEP_INJECT, TST_TR_INJECT, TST_SENSOR_OFFSET. -/
def Obligations.TestPerturbations : Prop :=
  (∀ (s : State) (v : Nat), s.m.working = true → s.fuses.debugLock = false →
    (bit v 8 = true → arrayFenced s.m (v % 256) = false →
      exec (.tstResInject v .privileged) s = after s (armAdd s.m { kind := 0, target := 0, double := false, unit := v % 256 }) ∧
      exec (.tstStallInject v .privileged) s = after s (armAdd s.m { kind := 2, target := 0, double := false, unit := v % 256 })) ∧
    (bit v 16 = true → v % 4 = 0 →
      exec (.tstEccInject v .privileged) s = after s (armAdd s.m { kind := 1, target := 0, double := bit v 2, unit := 0 })) ∧
    (bit v 2 = true → unitFenced s.m 0x06 (v % 4) = false →
      exec (.tstLockstepInject v .privileged) s = after s (armAdd s.m { kind := 3, target := 0, double := false, unit := v % 4 })) ∧
    (bit v 5 = true → v % 8 ≠ 7 → v / 8 % 4 ≠ 3 →
      exec (.tstTrInject v .privileged) s =
        after s (modWd (flipRow s.m (v % 8) (v / 8 % 4)) (fun w => { w with tstInjected := (w.tstInjected + 1) % 2 ^ 32 }))) ∧
    (v % 64 < 36 → fencedBit s.m.fence.sensor (v % 64) = false → bit v 31 = false →
      exec (.tstSensorOffset v .privileged) s = after s (modWd s.m (fun w => { w with
        sensorReg := v % 64 + v / 65536 % 65536 * 65536, sensorOff := w.sensorOff.put (v % 64) ((v / 65536 % 65536 : Nat) : Int) })))) ∧
  (∀ (s : State) (v : Nat) (pr : Priv) (c : Instr), s.m.working = true → s.fuses.debugLock = true →
    c ∈ [.tstResInject v pr, .tstEccInject v pr, .tstStallInject v pr, .tstLockstepInject v pr, .tstTrInject v pr, .tstSensorOffset v pr] →
    exec c s = after s (modWd s.m (fun w => { w with tstIgnored := (w.tstIgnored + 1) % 2 ^ 32 })))

/-- The forerunner window (R448, R449): a read of CMP_LO answers the live low word and latches the high word, so that a read of any CMP_HI that
follows answers the high word of the same instant, whatever has been counted in between; CMP_LATCHES counts the latch.
Completes with its own effect under hypotheses on state and operands alone (the equations name next states: `after` and `withMod` are `.next`):
CMP_LO_READ, CMP_HI_READ. -/
def Obligations.ComparisonWindowLatches : Prop :=
  ∀ (s : State) (i j : Fin 16) (pr : Priv), s.m.working = true → cmpSeen s.m pr = true →
    exec (.cmpLoRead i pr) s = after s (emit
      { s.m with front := { s.m.front with cmpShadow := cmpValue s.m i.val / 2 ^ 32, cmpLatches := (s.m.front.cmpLatches + 1) % 2 ^ 32 } }
      (.reg (cmpValue s.m i.val % 2 ^ 32))) ∧
    exec (.cmpHiRead j pr) s = after s (emit s.m (.reg s.m.front.cmpShadow)) ∧
    (∀ t u : State, NoDissolve s.m → exec (.cmpLoRead i pr) s = .next t → exec (.cmpHiRead j pr) t = .next u →
      ∃ lo hi l1 l2, t.m.out = s.m.out ++ Out.reg lo :: l1 ∧ u.m.out = t.m.out ++ Out.reg hi :: l2 ∧ lo < 2 ^ 32 ∧
        hi * 2 ^ 32 + lo = cmpValue s.m i.val)

/-- Cross-domain reads (R434, R435): in stall mode a read answers the owning domain's value with STALE clear while that domain is up, waits while it
is down, and ends with 0xFFFF_FFFF and a count when the wait times out; in mirror mode it answers the mirror. A warden tick counts, and in mirror
mode takes every mirror of a domain that is up; in stall mode it takes none (R434).
Completes with its own effect under hypotheses on state and operands alone (the equations name next states: `after` and `withMod` are `.next`):
XD_STALL_READ, XD_TIMEOUT, MIRROR_REFRESH. -/
def Obligations.CrossDomainReads : Prop :=
  (∀ (s : State) (r : Region) (off : Nat) (pr : Priv), s.m.working = true → isXd r off = true → off % 4 = 0 →
    (mirrorMode s.m = false → ownerDown s.m r off = false →
      exec (.xdStallRead r ⟨off, false⟩ pr) s = after s (emit s.m (.reg (seen r off pr (rawRead s.fuses s.m r off .secure))))) ∧
    (mirrorMode s.m = false → ownerDown s.m r off = true → exec (.xdStallRead r ⟨off, false⟩ pr) s = after s s.m) ∧
    (mirrorMode s.m = false →
      exec (.xdTimeout r off) s =
        after s (emit { s.m with front := { s.m.front with xdTimeout := (s.m.front.xdTimeout + 1) % 2 ^ 32 } } (.reg 0xFFFFFFFF))) ∧
    (mirrorMode s.m = true → exec (.xdStallRead r ⟨off, false⟩ pr) s = after s (emit s.m (.reg (mirrorRead s.fuses s.m r off pr))))) ∧
  (∀ s : State, s.m.working = true → s.m.sys.wd.coresWedged = false → s.m.sys.wd.fabWedged = false →
    (mirrorMode s.m = true → exec .mirrorRefresh s = after s (takeMirrors s.fuses (modWd s.m (fun w => { w with ticks := w.ticks + 1 })))) ∧
    (mirrorMode s.m = false → exec .mirrorRefresh s = after s (modWd s.m (fun w => { w with ticks := w.ticks + 1 }))))

/-- One copy of a triplicated field may hold anything: while the other two agree the field reads as they do, and its next sweep makes all three agree
(R437). -/
def Obligations.OneBadCopyIsMasked : Prop :=
  ∀ (v x : Nat) (safe : Nat → Nat → Nat → Nat),
    (Tri.mk v v x).read safe = v ∧ (Tri.mk v x v).read safe = v ∧ (Tri.mk x v v).read safe = v ∧
    (sweepTri (Tri.mk v v x) safe).1 = Tri.mk1 v ∧ (sweepTri (Tri.mk v x v) safe).1 = Tri.mk1 v ∧ (sweepTri (Tri.mk x v v) safe).1 = Tri.mk1 v ∧
    ((sweepTri (Tri.mk v v x) safe).2.1 = true ↔ x ≠ v) ∧ (sweepTri (Tri.mk1 v) safe).2 = (false, false)

/-- TR_SWEEP (R437), once its millisecond has passed: where every triplicated field has a majority, every field holds three equal copies of it
afterwards. TR_SWEEP is a step of every module at work, and before its millisecond has passed it only takes the counter's reading (R437).
Completes with its own effect under hypotheses on state and operands alone (the equations name next states: `after` and `withMod` are `.next`):
TR_SWEEP. -/
def Obligations.SweepRepairsEveryField : Prop :=
  (∀ (s : State) (u : Nat), s.m.working = true → NoDissolve s.m → s.m.sys.wd.trAt + 1000000 ≤ max s.m.hvl u → EveryFieldVotes s.m →
    ∃ t, exec (.trSweep u) s = .next t ∧ t.pending = s.pending ∧ t.fuses = s.fuses ∧
      (∀ v, s.m.front.profile.vote = some v → t.m.front.profile = Tri.mk1 v) ∧
      (∀ (p : Fin 16) (v : Masks), s.m.pol[p].masks.vote = some v → t.m.pol[p].masks = Tri.mk1 v) ∧
      (∀ (p : Fin 16) (v : Nat), s.m.pol[p].sec.keysel.vote = some v → t.m.pol[p].sec.keysel = Tri.mk1 v) ∧
      (∀ v, s.m.sys.pw.caps.vote = some v → t.m.sys.pw.caps = Tri.mk1 v) ∧
      (∀ v, s.m.front.privMap.vote = some v → t.m.front.privMap = Tri.mk1 v) ∧
      (∀ v, s.m.sys.wd.conf.vote = some v → t.m.sys.wd.conf = Tri.mk1 v) ∧
      (∀ f ∈ fenceFields, ∀ v, (f s.m.fence).vote = some v → f t.m.fence = Tri.mk1 v)) ∧
  (∀ (s : State) (u : Nat), s.m.working = true → max s.m.hvl u < s.m.sys.wd.trAt + 1000000 → exec (.trSweep u) s = after s (tickHvl s.m u))

-- Rings, doorbells and mailboxes (chapter 14).

/-- A doorbell value written to a ring index stands for the next 16-bit value at or after the index: the index never moves back, moves by less than
65,536, and reads as written (R413). Doorbells (R413): a submission doorbell moves SQ_TAIL where the ring's entries then fit its depth, and is
ignored and counted in DBL_ERR where they would not; a completion doorbell frees the slots it passes and lets waiting events post, or is ignored and
counted beyond the entries posted.
Completes with its own effect under hypotheses on state and operands alone (the equations name next states: `after` and `withMod` are `.next`):
SQ_TAIL_WRITE, CQ_HEAD_WRITE. -/
def Obligations.DoorbellWrites : Prop :=
  (∀ old v : Nat, old ≤ advance16 old v ∧ advance16 old v < old + 65536 ∧ advance16 old v % 65536 = v % 65536) ∧
  (∀ (s : State) (p r : Fin 16) (v : Nat) (pr : Priv), s.m.working = true → polWriteOk s.m p pr = true →
    (advance16 s.m.pol[p].sqs[r].tail v - s.m.pol[p].sqs[r].head ≤ s.m.pol[p].sqs[r].depth →
      exec (.sqTailWrite p r v pr) s = after s (modSq s.m p r (fun x => { x with tail := advance16 s.m.pol[p].sqs[r].tail v }))) ∧
    (s.m.pol[p].sqs[r].depth < advance16 s.m.pol[p].sqs[r].tail v - s.m.pol[p].sqs[r].head →
      exec (.sqTailWrite p r v pr) s = after s (pinc s.m p Ctr.dblErr 1)) ∧
    (advance16 s.m.pol[p].cqs[r].head v ≤ s.m.pol[p].cqs[r].posted →
      exec (.cqHeadWrite p r v pr) s = after s (flushEvents (modCq s.m p r (fun x => { x with head := advance16 s.m.pol[p].cqs[r].head v })) p)) ∧
    (s.m.pol[p].cqs[r].posted < advance16 s.m.pol[p].cqs[r].head v →
      exec (.cqHeadWrite p r v pr) s = after s (pinc s.m p Ctr.dblErr 1)))

/-- Ring configuration (R412, R444): a ring that is disabled takes order, binding and enable where a 4 KiB base, a legal order and an enabled
completion ring let it; an enabled ring keeps order and binding, a write that would change them is counted in RING_CONF_DROP, and only its enable is
taken.
Completes with its own effect under hypotheses on state and operands alone (the equations name next states: `after` and `withMod` are `.next`):
SQ_CTRL_WRITE, CQ_CTRL_WRITE. -/
def Obligations.RingConfiguration : Prop :=
  ∀ (s : State) (p r : Fin 16) (v : Nat) (pr : Priv), s.m.working = true → polWriteOk s.m p pr = true →
    (s.m.pol[p].sqs[r].en = false → s.m.pol[p].sqs[r].cq = v / 16 % 16 → 4 ≤ v % 16 → v % 16 ≤ 12 → s.m.pol[p].sqs[r].base % 4096 = 0 →
      s.m.pol[p].cqs[pn (v / 16 % 16)].en = true →
      exec (.sqCtrlWrite p r v pr) s =
        after s (modSq s.m p r (fun x => { x with order := v % 16, cq := v / 16 % 16, en := bit v 8 }))) ∧
    (s.m.pol[p].sqs[r].en = true → v % 16 ≠ s.m.pol[p].sqs[r].order →
      exec (.sqCtrlWrite p r v pr) s = after s (modSq (pinc s.m p Ctr.ringConfDrop 1) p r (fun x => { x with en := bit v 8 }))) ∧
    (s.m.pol[p].cqs[r].en = false → 4 ≤ v % 16 → v % 16 ≤ 14 → s.m.pol[p].cqs[r].base % 4096 = 0 →
      exec (.cqCtrlWrite p r v pr) s =
        after s (flushEvents (modCq s.m p r (fun x => { x with order := v % 16, vector := v / 16 % 32, en := bit v 9 })) p)) ∧
    (s.m.pol[p].cqs[r].en = true → v % 16 = s.m.pol[p].cqs[r].order → bit v 9 = false → 0 < s.m.pol[p].cqs[r].inflight →
      exec (.cqCtrlWrite p r v pr) s =
        after s (modCq (pinc s.m p Ctr.ringConfDrop 1) p r (fun x => { x with vector := v / 16 % 32, en := true })))

/-- Events and moderation (R423, R426): a waiting event takes a free slot of an enabled completion ring 0; the oldest entry not signalled is
signalled when it has waited CQ_MOD_US, and not before.
Completes with its own effect under hypotheses on state and operands alone (the equations name next states: `after` and `withMod` are `.next`):
EVENT_POST, CQ_MOD_TIMER. -/
def Obligations.EventsAndModerationTimers : Prop :=
  (∀ (s : State) (p : Fin 16) (e : Event), s.m.working = true → s.m.pol[p].events = [e] → s.m.pol[p].cqs[(0 : Fin 16)].en = true →
    s.m.pol[p].cqs[(0 : Fin 16)].used < s.m.pol[p].cqs[(0 : Fin 16)].depth →
    exec (.eventPost p) s = after s (postEvent (modPol s.m p (fun q => { q with events := [] })) p e)) ∧
  (∀ (s : State) (p c : Fin 16) (t : Nat), s.m.working = true → s.m.pol[p].cqs[c].unsig ≠ 0 → s.m.pol[p].cqs[c].modUs ≠ 0 →
    s.m.pol[p].cqs[c].oldest + s.m.pol[p].cqs[c].modUs * 1000 ≤ max s.m.pol[p].clk t → polIrqOn s.m p s.m.pol[p].cqs[c].vector = true →
    exec (.cqModTimer p c t) s =
      after s (emit (pinc (modCq (tickPol s.m p t) p c (fun r => { r with unsig := 0 })) p (Ctr.cqIrq c.val) 1)
        (.irq (32 * p.val + s.m.pol[p].cqs[c].vector)))) ∧
  (∀ (s : State) (p c : Fin 16) (t : Nat), s.m.working = true → max s.m.pol[p].clk t < s.m.pol[p].cqs[c].oldest + s.m.pol[p].cqs[c].modUs * 1000 →
    exec (.cqModTimer p c t) s = after s (tickPol s.m p t))

/-- A ring's head entry is taken (R414, R416, R419): where the polder is not sealed, the completion ring has a free slot, the engine share is not
used up and the CMD policer is off, the entry's command is in flight, its completion slot is reserved and the ring's head has moved by one.
RING_INTAKE is one turn of the ring engine (R414): of a polder that is composed, not fenced, resetting or waiting for its first bounce setup, with no
head held, it tries the rings from the one next in turn and takes the entry of the first that can be taken; what was taken then runs.
Completes with its own effect under hypotheses on state and operands alone (the equations name next states: `after` and `withMod` are `.next`):
RING_INTAKE. -/
def Obligations.IntakeTakesTheHeadEntry : Prop :=
  (∀ (m : Mod) (p r : Fin 16) (heads : List HeadEntry) (h : HeadEntry) (e : Block),
    heads.find? (fun x => x.sq == r) = some h → m.pol[p].sealed = false → m.pol[p].sqs[r].en = true → m.pol[p].sqs[r].tail ≠ m.pol[p].sqs[r].head →
    m.pol[p].cqs[pn m.pol[p].sqs[r].cq].en = true → m.pol[p].cqs[pn m.pol[p].sqs[r].cq].used < m.pol[p].cqs[pn m.pol[p].sqs[r].cq].depth →
    m.pol[p].sqs[r].cqSince = none → m.pol[p].sqs[r].shareSince = none → m.pol[p].sqs[r].held = none → m.pol[p].ops < opsShare m →
    (∀ i : Fin 6, m.pol[p].polic[i].set.en = false) → headEntry m p r h = some e → entryBad m p e = none →
    ∃ m1, tryRing m p r heads = (true, m1) ∧ m1.pol[p].sqs[r].head = m.pol[p].sqs[r].head + 1 ∧
      m1.pol[p].cqs[pn m.pol[p].sqs[r].cq].inflight = m.pol[p].cqs[pn m.pol[p].sqs[r].cq].inflight + 1 ∧
      m1.pol[p].taken = m.pol[p].taken ++ [takenOf m p r e] ∧
      (∀ q : Fin 16, q ≠ p → m1.pol[q] = m.pol[q]) ∧ m1.dir = m.dir ∧ m1.sys = m.sys ∧ m1.out = m.out) ∧
  (∀ (s : State) (p : Fin 16) (t : Nat) (heads : List HeadEntry) (hv : HostGen) (m1 : Mod), s.m.working = true →
    s.m.pol[p].composed = true → s.m.pol[p].fenced = false → s.m.pol[p].resetting = false → s.m.front.ready = true → s.m.sys.fw.act = none →
    s.m.sys.wd.sealed = false → s.m.pol[p].sealed = false → (∀ r : Fin 16, s.m.pol[p].sqs[r].held = none) →
    tryRing (tickPol s.m p t) p (pn s.m.pol[p].rrNext) heads = (true, m1) →
    exec (.ringIntake p t heads hv) s = after s (kick m1 p hv))

/-- Slots of a completion ring are never oversubscribed by intake: a ring whose slots are within its depth is so after any ring has been tried, and
an entry whose completion ring is full is not taken (R415). -/
def Obligations.IntakeKeepsCompletionSlots : Prop :=
  ∀ (m : Mod) (p r : Fin 16) (heads : List HeadEntry), (∀ c : Fin 16, (m.pol[p].cqs[c]).ok) →
    (∀ c : Fin 16, ((tryRing m p r heads).2.pol[p].cqs[c]).ok) ∧
    (m.pol[p].cqs[pn m.pol[p].sqs[r].cq].depth ≤ m.pol[p].cqs[pn m.pol[p].sqs[r].cq].used →
      (tryRing m p r heads).1 = false ∧ (tryRing m p r heads).2.pol[p].taken = m.pol[p].taken)

/-- A completion (R415, R417, R420): the command in flight with its TAG is no longer in flight, its reserved slot holds the entry, and the entry
carries TAG, JOB, STATUS, OPCODE, the ring and PHASE of its place; the slots used on its ring stay the same, so that no completion overwrites an
entry not yet read. -/
def Obligations.CompletionUsesItsReservedSlot : Prop :=
  ∀ (m : Mod) (p : Fin 16) (t : Taken) (r : Res), findTaken m.pol[p] t.tag = some t → 0 < m.pol[p].cqs[pn t.cq].inflight →
    (m.pol[p].cqs[pn t.cq]).head ≤ (m.pol[p].cqs[pn t.cq]).posted →
    findTaken (complete m p t.tag r).pol[p] t.tag = none ∧
    (complete m p t.tag r).pol[p].cqs[pn t.cq].used = m.pol[p].cqs[pn t.cq].used ∧
    (complete m p t.tag r).pol[p].cqs[pn t.cq].posted = m.pol[p].cqs[pn t.cq].posted + 1 ∧
    (∃ e : CqEntry, Out.cq p.val (pn t.cq).val m.pol[p].cqs[pn t.cq].posted (slotOut m.pol[p] p.val
      (cqAddr m.pol[p] m.pol[p].cqs[pn t.cq] m.pol[p].cqs[pn t.cq].posted) 32 (cqBytes e)) ∈ (complete m p t.tag r).out ∧ e.tag = t.tag ∧ e.job = t.job ∧
      e.status = r.status ∧ e.opcode = t.opcode ∧ e.sq = t.sq ∧ e.event = false ∧ e.detail = r.detail ∧ e.result = r.result ∧
      e.phase = phaseOf m.pol[p].cqs[pn t.cq].posted m.pol[p].cqs[pn t.cq].depth) ∧
    (∀ q : Fin 16, q ≠ p → (complete m p t.tag r).pol[q] = m.pol[q]) ∧
    (complete m p t.tag r).dir = m.dir ∧ (complete m p t.tag r).sys = m.sys ∧ (complete m p t.tag r).front = m.front

/-- A mailbox accepts a command at GO (R404, Table 14-3): BUSY 1, DONE 0, TAG and CMD latched with as many words of ARG as LEN names; while BUSY
every write of CMD, ARG and GO is ignored and counted in DROPPED and changes nothing else. -/
def Obligations.MailboxAcceptsAtGo : Prop :=
  (∀ (x : Mbx) (pr : Priv), (acceptGo x pr).busy = true ∧ (acceptGo x pr).done = false ∧ (acceptGo x pr).runCmd = x.cmd ∧
    (acceptGo x pr).tag = x.cmd / 65536 % 65536 ∧ (acceptGo x pr).runArg = x.arg % 2 ^ (32 * min 16 (x.cmd / 256 % 32)) ∧
    (acceptGo x pr).cmd = x.cmd ∧ (acceptGo x pr).arg = x.arg ∧ (acceptGo x pr).res = x.res) ∧
  (∀ (m : Mod) (b : Box) (off v : Nat) (pr : Priv), (getMbx m b).busy = true → (off = 0 ∨ off = 4 ∨ (0x40 ≤ off ∧ off < 0x80)) →
    mbxWrite m b off v pr = modMbx m b (fun x => { x with dropped := (x.dropped + 1) % 2 ^ 32 })) ∧
  (∀ (m : Mod) (b : Box) (st res : Nat),
    (getMbx (mbxDone m b st res) b).busy = false ∧ (getMbx (mbxDone m b st res) b).done = true ∧ (getMbx (mbxDone m b st res) b).status = st ∧
    (getMbx (mbxDone m b st res) b).res = res)

-- Mailbox commands. `m` is the module with the command started; every equation gives the whole next state.

/-- Profiles and polders (R409, R493 to R495): PROFILE_SELECT with nothing composed or saved composes the defaults of the profile it names;
POLDER_COMPOSE composes the polder its argument names; POLDER_DISSOLVE of a polder with no PENDING_OUT lease frees it. Each saves its records and
ends with OK. POLDER_RESET (R500, Table 17-10): a row runs the steps up to the one it names, and the sixth ends the command; the first row of a
composed polder that is not busy starts with step 1, a later row goes on.
Completes with its own effect under hypotheses on state and operands alone (the equations name next states: `after` and `withMod` are `.next`):
PROFILE_SELECT, POLDER_COMPOSE, POLDER_DISSOLVE, POLDER_RESET. -/
def Obligations.ProfileAndPolderCommands : Prop :=
  (∀ (s : State) (b : Box), let m := mbxBegun s.m b; let a := argOf s b
    (Accepts s b 0x80 → (∀ p : Fin 16, m.pol[p].composed = false ∧ m.pol[p].diss = none) → s.m.sys.boot.saved = none →
      exec (.profileSelect b) s = after s (mbxSaved (composeDefaults s.fuses
        { dropSaved m with front := { (dropSaved m).front with profile := Tri.mk1 (fld a 0 0 2) } } (fld a 0 0 2)) b (at8 16 (fld a 0 0 2)))) ∧
    (∀ tenant, Accepts s b 0x81 → composeBad s.fuses m (pn (fld a 0 0 4)) a = false →
      exec (.polderCompose b tenant) s =
        after s (mbxSaved (composeWith m (pn (fld a 0 0 4)) a (if flg a 0 4 then tenant else 0)) b 0)) ∧
    (Accepts s b 0x82 → polderBusy m (pn (fld a 0 0 4)) = false → m.pol[pn (fld a 0 0 4)].composed = true →
      leasesLeft (settleSessions (stopPolder m (pn (fld a 0 0 4)) stAborted) (pn (fld a 0 0 4))) (pn (fld a 0 0 4)) = false →
      exec (.polderDissolve b) s =
        after s (mbxDone (dissolveEnd (settleSessions (stopPolder m (pn (fld a 0 0 4)) stAborted) (pn (fld a 0 0 4))) (pn (fld a 0 0 4))) b stOk 0)) ∧
    (Accepts s b 0x82 → polderBusy m (pn (fld a 0 0 4)) = false → m.pol[pn (fld a 0 0 4)].composed = true →
      leasesLeft (settleSessions (stopPolder m (pn (fld a 0 0 4)) stAborted) (pn (fld a 0 0 4))) (pn (fld a 0 0 4)) = true →
      exec (.polderDissolve b) s =
        after s (modPol (settleSessions (stopPolder m (pn (fld a 0 0 4)) stAborted) (pn (fld a 0 0 4))) (pn (fld a 0 0 4))
          (fun q => { q with resetting := true, diss := some b })))) ∧
  (∀ (s : State) (b : Box) (good : List (Nat × Nat)), let m := mbxBegun s.m b; let p := pn (fld (argOf s b) 0 0 4)
    (Accepts s b 0x83 → polderBusy s.m p = false → s.m.pol[p].composed = true →
      exec (.polderReset b 1 good) s = after s (resetStep b p good (modPol m p (fun q => { q with rst := q.rst.map (fun r => { r with step := 1 }) })) 1)) ∧
    (∀ r : RstRun, s.m.working = true → s.m.pol[p].rst = some r → r.box = b → r.step = 5 → (getMbx s.m b).busy = true → (getMbx s.m b).started = true →
      (getMbx s.m b).runCmd % 256 = 0x83 →
      exec (.polderReset b 6 good) s = after s (resetStep b p good (modPol s.m p (fun q => { q with rst := q.rst.map (fun r => { r with step := 6 }) })) 6)))

/-- A polder as POLDER_COMPOSE composes it (R494, Tables 14-4a, 06-5 and 11-5): composed with the slices, the tenant and the ports of the argument,
empty of sessions, commands and passes, its counters at zero, recall by default, weight 1 per granule in every arbiter, VCORE 550 mV, KEY_EPOCH and
keys its own; every other polder is untouched. -/
def Obligations.ComposedPolderContents : Prop :=
  ∀ (m : Mod) (p : Fin 16) (a tenant : Nat),
    (composeWith m p a tenant).pol[p].composed = true ∧ (composeWith m p a tenant).pol[p].slice = argMasks a ∧
    (composeWith m p a tenant).pol[p].sealed = flg a 0 4 ∧ (composeWith m p a tenant).pol[p].tenant = tenant ∧
    (composeWith m p a tenant).pol[p].ethPorts = fld a 1 0 4 ∧ (composeWith m p a tenant).pol[p].sess = [] ∧
    (composeWith m p a tenant).pol[p].taken = [] ∧ (composeWith m p a tenant).pol[p].passes = [] ∧ (composeWith m p a tenant).pol[p].fenced = false ∧
    (composeWith m p a tenant).pol[p].sqs = m.pol[p].sqs ∧ (composeWith m p a tenant).pol[p].cqs = m.pol[p].cqs ∧
    (∀ k, k < 9 → (composeWith m p a tenant).pol[p].wts.get k = some (popcount (argMasks a).arr 16)) ∧
    (flg a 0 6 = false → (composeWith m p a tenant).pol[p].recallCfg = recallDefault) ∧
    (∀ q : Fin 16, q ≠ p → (composeWith m p a tenant).pol[q] = m.pol[q])

/-- Firmware (R501 to R503, Table 17-11): a good image is staged and slot A kept in slot B; discarding clears it; an activation opens its window,
programs slot A, verifies, blows the fuses asked for at step 4 with the staged image running, and ends with OK; a slot A that does not verify ends it
with RETRY and the image of slot B; with nothing staged, with a REVOKE that names the staged image's key slot or leaves every key slot revoked, it
ends with BAD_CMD.
Completes with its own effect under hypotheses on state and operands alone (the equations name next states: `after` and `withMod` are `.next`):
FW_UPDATE_STAGE, FW_UPDATE_DISCARD, FW_UPDATE_ACTIVATE. -/
def Obligations.FirmwareCommands : Prop :=
  ∀ (s : State) (b : Box), let m := mbxBegun s.m b; let a := argOf s b
    (∀ img : FwImage, Accepts s b 0x84 → fld a 16 0 32 ≠ 0 → fld a 8 0 64 % 64 = 0 → stageOk s.fuses (fld a 16 0 32) img = true →
      exec (.fwUpdateStage b img) s = after s (mbxDone (modFw m (fun f => { f with
        staged := some img, slotB := if f.slotA.map FwImage.header != f.slotB.map FwImage.header then f.slotA else f.slotB }))
        b stOk (at8 16 img.svn + at8 32 (fwDigest (some img))))) ∧
    (Accepts s b 0x84 → fld a 16 0 32 = 0 →
      exec (.fwUpdateDiscard b) s = after s (mbxDone (modFw m (fun f => { f with staged := none })) b stOk 0)) ∧
    (∀ (i : FwImage) (good : Bool), Accepts s b 0x85 → s.m.sys.fw.act = none → s.m.sys.fw.staged = some i → activateBad s.fuses m a = false →
      (∀ p : Fin 16, polderBusy m p = false) →
      exec (.fwUpdateActivate b 1 good) s = after s (retryUnstarted (modFw m (fun f => { f with act := some ⟨fuseReq a i, 1⟩ })))) ∧
    (∀ (n : Nat) (good : Bool), Accepts s b 0x85 → s.m.sys.fw.act = none →
      (s.m.sys.fw.staged = none ∨ ∃ i, s.m.sys.fw.staged = some i ∧ ((flg a 0 1 = true ∧ bit (fld a 1 0 4) i.keySlot = true) ∨
        (s.fuses.revoke ||| if flg a 0 1 then fld a 1 0 4 else 0) % 16 = 15)) →
      exec (.fwUpdateActivate b n good) s = after s (mbxDone m b stBadCmd 0)) ∧
    (∀ (i : FwImage) (x : Activation) (good : Bool), s.m.working = true → s.m.sys.fw.act = some x → x.step = 3 → s.m.sys.fw.staged = some i →
      (getMbx s.m b).busy = true → (getMbx s.m b).started = true → (getMbx s.m b).runCmd % 256 = 0x85 → s.m.sys.wd.sealed = false →
      exec (.fwUpdateActivate b 4 good) s = .next
        { s with fuses := blowFuses s.fuses (fuseReq a i), m := settled s.m (modFw s.m (fun f => { f with
            act := some ⟨fuseReq a i, 4⟩, req := none, staged := none, running := some i })) }) ∧
    (∀ (x : Activation) (good : Bool), s.m.working = true → s.m.sys.fw.act = some x → x.step = 4 → (getMbx s.m b).busy = true →
      (getMbx s.m b).started = true → (getMbx s.m b).runCmd % 256 = 0x85 → s.m.sys.wd.sealed = false →
      exec (.fwUpdateActivate b 5 good) s =
        after s (mbxDone (modFw s.m (fun f => { f with act := none })) b stOk (at8 16 ((s.m.sys.fw.running.map FwImage.svn).getD 0))))

/-- Keys and quotes (R360, R365, R374): ATTEST_QUOTE of the module writes a quote signed by the attestation key; KEY_ROTATE at rest moves CURRENT to
PREVIOUS, takes a fresh key into the other slot and raises KEY_EPOCH; KEY_ROTATE of the bounce keys of a sealed polder by its tenant derives both
directions' keys, raises BB_EPOCH, restarts every counter and installs the window where the setup verifies, and is counted and refused where it does
not.
Completes with its own effect under hypotheses on state and operands alone (the equations name next states: `after` and `withMod` are `.next`):
ATTEST_QUOTE, KEY_ROTATE_AT_REST, KEY_ROTATE_BOUNCE. -/
def Obligations.KeyAndQuoteCommands : Prop :=
  ∀ (s : State) (b : Box), let m := mbxBegun s.m b; let a := argOf s b
    (b = .mgmt → Accepts s b 0x86 → fld a 0 0 8 = 0xFF → fld a 8 0 64 % 64 = 0 → 7688 ≤ fld a 16 0 32 → s.m.sys.fw.act = none →
      exec (.attestQuote b) s = after s (
        let r := signQuote m (akSeed s.fuses m) (quoteOf s.fuses m none (fld a 32 0 256))
        mbxDone (emit r.2 (.host (fld a 8 0 64) 7688 (quoteBytes r.1))) b stOk (at8 16 7688))) ∧
    (∀ p : Fin 16, Accepts s b 0x87 → flg a 1 0 = false → argPolder m a = some p → bit (keyselOf m.pol[p]) 1 = false → s.m.entropyOk = true →
      exec (.keyRotateAtRest b) s = after s (
        let cur := 1 - keyselOf m.pol[p] % 2
        let r := takeKeyPair (wfqServe m p 8 1)
        let m2 := modPol r.2 p (fun q => { q with
          keyEpoch := (q.keyEpoch + 1) % 2 ^ 32
          sec := { q.sec with keysel := Tri.mk1 (cur + 2 + 4), key0 := if cur == 0 then r.1 else q.sec.key0,
                              key1 := if cur == 1 then r.1 else q.sec.key1 } })
        let m3 := pinc (vaultWrite m2 p) p Ctr.keyRotations 1
        mbxDone m3 b stOk (at8 16 m3.pol[p].keyEpoch + at8 20 1))) ∧
    (∀ (p : Fin 16) (x : Block), Accepts s b 0x87 → flg a 1 0 = true → argPolder m a = some p →
      fld a 16 0 64 % 4096 = 0 → fld a 24 0 64 % 4096 = 0 → 65536 ≤ fld a 24 0 64 → fld a 24 0 64 ≤ 2 ^ 34 → s.m.entropyOk = true →
      m.pol[p].sealed = true → sha3Of [(1312, setupKey x)] = m.pol[p].tenant →
      exec (.keyRotateBounce b x) s = after s (
        if Config.mldsaVerify (setupKey x) (bounceMsg m.pol[p] p x (fld a 16 0 64) (fld a 24 0 64)) (setupSig x) then
          match Config.kemDecap m.pol[p].sec.kem (setupCt x) with
          | none => mbxDone (pinc m p Ctr.bbSetupFail 1) b stBadCmd 0
          | some ss =>
            let m2 := modPol (takeRandom (wfqServe m p 8 1)).2 p (fun q => { q with
              sqs := q.sqs.map (fun z => { z with lastCtr := 0 })
              sec := { q.sec with h2m := sha3Label "CS1600-BB-H2M" [(32, ss), (32, kemDigest q)], m2h := sha3Label "CS1600-BB-M2H" [(32, ss), (32, kemDigest q)],
                                  bbEpoch := (q.sec.bbEpoch + 1) % 2 ^ 32, bbBase := fld a 16 0 64, bbLen := fld a 24 0 64, m2hCtr := 0,
                                  kem := (takeRandom (wfqServe m p 8 1)).1 } })
            mbxDone (pinc m2 p Ctr.bbSetup 1) b stOk (at8 16 m2.pol[p].sec.bbEpoch)
        else mbxDone (pinc m p Ctr.bbSetupFail 1) b stBadCmd 0))

/-- Settings (R59, R293, R410, R411): QUOTA_SET changes the three dikes and the heat epoch of a polder at one instant and the spillway works to them;
TIME_SYNC_CONF sets the reference; PEER_CONF the lease and peer times; CKPT_SCHEDULE a polder's checkpoint parameters. Each is saved and ends with
OK. Accounts (R347, R408): ENERGY_REPORT of a polder that is not sealed writes the published rows MAX allows and leaves the totals without RESET;
CNT_SNAP of a polder loads that polder's holding registers at one instant; CNT_SNAP of the module loads every module counter and every composed
polder's, and its gauges begin again.
Completes with its own effect under hypotheses on state and operands alone (the equations name next states: `after` and `withMod` are `.next`):
QUOTA_SET, TIME_SYNC_CONF, ENERGY_REPORT, PEER_CONF, CKPT_SCHEDULE, CNT_SNAP, CNT_SNAP_POLDER. -/
def Obligations.SettingAndAccountCommands : Prop :=
  (∀ (s : State) (b : Box), let m := mbxBegun s.m b; let a := argOf s b
    (∀ p : Fin 16, Accepts s b 0x89 → argPolder m a = some p → flg a 1 0 = true → flg a 1 1 = true → flg a 1 2 = true → fld a 2 0 16 ≠ 0 →
      fld a 2 0 16 ≤ 1000 → dikeBad m m.pol[p] .crest (dikeOf a 16 true) = false → dikeBad m m.pol[p] .berm (dikeOf a 32 false) = false →
      dikeBad m m.pol[p] .toe (dikeOf a 48 false) = false → m.pol[p].fenced = false → dikeLow m.pol[p] .crest (dikeOf a 16 true) = false →
      dikeLow m.pol[p] .berm (dikeOf a 32 false) = false → dikeLow m.pol[p] .toe (dikeOf a 48 false) = false →
      exec (.quotaSet b) s = after s (
        let m2 := spill (modPol m p (fun q => { q with
          dCrest := dikeOf a 16 true, dBerm := dikeOf a 32 false, dToe := dikeOf a 48 false, heatMs := fld a 2 0 16 })) p
        mbxSaved (if highMark (dikeOf a 16 true) < crestSettled m2.pol[p] && (victims m2.pol[p] .crest 3).isEmpty then cacheTrim m2 p 64 else m2) b 0)) ∧
    (Accepts s b 0x8F → fld a 0 0 2 = 0 → s.m.sys.time.conf % 4 = 0 →
      exec (.timeSyncConf b) s = after s (
        let m1 := modTime m (fun t => { t with conf := fld a 0 0 5 + 256 * fld a 1 0 8, stepNs := if fld a 4 0 32 == 0 then 100000 else fld a 4 0 32 })
        mbxSaved m1 b (at8 16 (b2n (timeLocked m1))))) ∧
    (Accepts s b 0x93 → flg a 0 0 = true → flg a 0 1 = false → flg a 0 2 = false → 100 ≤ fld a 2 0 16 → fld a 2 0 16 ≤ 60000 → 10 ≤ fld a 4 0 16 →
      2 * fld a 4 0 16 ≤ fld a 2 0 16 → 20 ≤ fld a 6 0 16 → fld a 6 0 16 ≤ 5000 → 1 ≤ fld a 8 0 16 → fld a 8 0 16 ≤ 1000 →
      exec (.peerConf b) s = after s (mbxSaved { m with own := { m.own with
        leaseMs := fld a 2 0 16, guardMs := fld a 4 0 16, peerDeadMs := fld a 6 0 16, degradeMs := fld a 8 0 16 } } b 0)) ∧
    (∀ p : Fin 16, Accepts s b 0x94 → argPolder m a = some p → fld a 2 0 16 ≠ 0 → fld a 4 0 8 ≠ 0 → fld a 5 0 8 ≠ 0 → fld a 5 0 8 ≤ 16 → fld a 6 0 8 ≠ 0 →
      fld a 6 0 8 ≤ 50 → fld a 7 0 8 ≠ 0 → fld a 8 0 3 = 0 →
      exec (.ckptSchedule b) s = after s (mbxSaved (modCk m p (fun k => { k with conf :=
        { enable := flg a 1 0, onPark := flg a 1 1, every := fld a 2 0 16, chainMax := fld a 4 0 8, retain := fld a 5 0 8, share := fld a 6 0 8,
          inflight := fld a 7 0 8, repl := [] } })) b 0))) ∧
  (∀ (s : State) (b : Box), let m := mbxBegun s.m b; let a := argOf s b
    (∀ p : Fin 16, Accepts s b 0x90 → argPolder m a = some p → fld a 1 0 2 ≠ 3 → fld a 8 0 64 % 64 = 0 → m.pol[p].sealed = false → flg a 1 2 = false →
      exec (.energyReport b) s = after s (
        let rows := energyRows m.pol[p] (fld a 1 0 2)
        let out := rows.take (fld a 16 0 32)
        mbxDone (hostOut m p (fld a 8 0 64) (16 * out.length) (pack (energyFields (out.map (fun r => (r.1, r.2.2 / 1000000)))))) b stOk
          (at8 16 (m.pol[p].pw.closeAt % 2 ^ 64) + at8 24 (out.length % 2 ^ 32) + at8 28 ((rows.length - out.length) % 2 ^ 32)))) ∧
    (∀ t pt, Accepts s b 0x95 → flg a 0 0 = true → m.pol[pn (fld a 1 0 4)].composed = true →
      exec (.cntSnapPolder b t pt) s = after s (
        let m1 := snapPolder (tickPol (tickHvl m t) (pn (fld a 1 0 4)) pt) (pn (fld a 1 0 4))
        mbxDone m1 b stOk (snapRes m1.hvl (m1.pol[pn (fld a 1 0 4)].hold.rd 0x1000)))) ∧
    (∀ t ts, b = .mgmt → Accepts s b 0x95 → flg a 0 0 = false → (∀ p : Fin 16, m.pol[p].composed = false) →
      exec (.cntSnap b t ts) s = after s (
        let m0 := tickHvl m t
        let m1 := { m0 with front := { m0.front with
          hold := snapHead (withDown m0 (snapMod m0)) m0.front.hold 0x8000 m0.hvl 0 0, snapNum := m0.front.snapNum + 1 } }
        let m3 := { m1 with ctr := m1.ctr.wr Ctr.journalLagMaxUs 0, jr := { m1.jr with lag := 0 } }
        mbxDone (modPw m3 (fun x => { x with tjMax := x.tj })) b stOk (snapRes m1.hvl (m1.front.hold.rd 0x8000)))))

/-- Traffic settings (R316, R317, R320, R322, R325): POLICER_SET and POLICER_DISABLE wait for the next refill with their settings; WFQ_SET of one
arbiter for one polder sets its weight; SLUICE_LOAD schedules the list for the first cycle start at least 100 µs away, and SLUICE_REMOVE the removal
of the table. A list is scheduled no earlier than asked: the change falls on a cycle start base + n * cycle at or after the instant, and less than a
cycle after it where the base has passed (R325).
Completes with its own effect under hypotheses on state and operands alone (the equations name next states: `after` and `withMod` are `.next`):
SLUICE_LOAD, SLUICE_REMOVE, POLICER_SET, POLICER_DISABLE, WFQ_SET. -/
def Obligations.TrafficSettingCommands : Prop :=
  (∀ (s : State) (b : Box), let m := mbxBegun s.m b; let a := argOf s b
    (Accepts s b 0x8B → flg a 1 3 = true → polBad m a = false →
      exec (.policerSet b) s = after s (polPend m a (polSetOf a) (flg a 1 5))) ∧
    (Accepts s b 0x8B → flg a 1 3 = false → polBadTarget m a = false →
      exec (.policerDisable b) s = after s (polPend m a { m.pol[pn (fld a 0 0 8)].polic[polArg a].set with en := false } (flg a 1 5))) ∧
    (Accepts s b 0x8C → fld a 0 0 4 ≤ 8 → fld a 4 0 8 ≠ 0 → (∀ i, 1 ≤ i → i < 16 → fld a (4 + i) 0 8 = 0) → m.pol[(0 : Fin 16)].composed = true →
      exec (.wfqSet b) s = after s (keepCfg b s.m (mbxDone (modPol m 0 (fun q => { q with wts := q.wts.put (fld a 0 0 4) (fld a 4 0 8) })) b stOk 0))) ∧
    (∀ list, Accepts s b 0x8A → flg a 1 0 = true → sluiceBad m a (sluiceEntries list (min 256 (fld a 2 0 16))) = false →
      exec (.sluiceLoad b list) s = after s (keepCfg b s.m (
        let m1 := sluiceDue m (portArg a)
        let c := firstStart (fld a 16 0 64) (fld a 4 0 32) (m1.net.ports[portArg a].clk + 100000)
        mbxDone (scheduleList m1 (portArg a) c (some
          { base := fld a 16 0 64, cycle := fld a 4 0 32, ext := fld a 8 0 32, entries := sluiceEntries list (min 256 (fld a 2 0 16)) })) b stOk c))) ∧
    (∀ x : Sluice, Accepts s b 0x8A → flg a 1 0 = false → fencedBit m.fence.link (portArg a).val = false →
      (sluiceDue m (portArg a)).net.ports[portArg a].sluice = some x →
      exec (.sluiceRemove b) s = after s (keepCfg b s.m (
        let c := firstStart x.base x.cycle ((sluiceDue m (portArg a)).net.ports[portArg a].clk + 100000)
        mbxDone (scheduleList (sluiceDue m (portArg a)) (portArg a) c none) b stOk c)))) ∧
  (∀ base cycle t : Nat, 0 < cycle → t ≤ firstStart base cycle t ∧ base ≤ firstStart base cycle t ∧ (firstStart base cycle t - base) % cycle = 0 ∧
    (base < t → firstStart base cycle t < t + cycle))

/-- POWER_BUDGET, with module or polder scope, and CLAMP_RELEASE wait for the next control interval when they are valid (R333, R337).
Completes with its own effect under hypotheses on state and operands alone (the equations name next states: `after` and `withMod` are `.next`):
POWER_BUDGET, POWER_BUDGET_POLDER, CLAMP_RELEASE. -/
def Obligations.PowerBudgetCommands : Prop :=
  ∀ (s : State) (b : Box), let m := mbxBegun s.m b; let a := argOf s b
    Accepts s b 0x88 → releaseHot m a = false → budgetBad m b a = false →
    (flg a 0 0 = false → flg a 0 1 = false → exec (.powerBudget b) s = after s (modPw m (fun x => { x with cmds := x.cmds ++ [(b, a)] }))) ∧
    (flg a 0 0 = true → flg a 0 1 = false → exec (.powerBudgetPolder b) s = after s (modPw m (fun x => { x with cmds := x.cmds ++ [(b, a)] }))) ∧
    (flg a 0 1 = true → exec (.clampRelease b) s = after s (modPw m (fun x => { x with cmds := x.cmds ++ [(b, a)] })))

/-- FENCE_UNIT closes the cofferdam of a unit that is outside one and UNFENCE_UNIT returns a unit whose self-test passes (R386, R387): the unit's bit
of its fence mask is set, and cleared again; a unit already fenced, or not fenced, ends with OK unchanged. A fence mask's bit set reads as set and
the other bits as before; cleared, it reads as clear: the three copies agree (R385, R437, Table 15-7).
Completes with its own effect under hypotheses on state and operands alone (the equations name next states: `after` and `withMod` are `.next`):
FENCE_UNIT, UNFENCE_UNIT. -/
def Obligations.FenceCommands : Prop :=
  (∀ (s : State) (b : Box), let m := mbxBegun s.m b; let a := argOf s b; let ty := fld a 0 0 8; let i := fld a 2 0 16
    (Accepts s b 0x8D → i < unitCount ty → (ty ≠ 0x06 ∨ 1 < (livePairs m).length) → unitFenced m ty i = false →
      exec (.fenceUnit b) s = after s (mbxDone (closeFence s.fuses (logFault m ty i fFenceCmd 4 false 0) ty i) b stOk (at8 16 1))) ∧
    (Accepts s b 0x8D → i < unitCount ty → unitFenced m ty i = true → exec (.fenceUnit b) s = after s (mbxDone m b stOk 0)) ∧
    (Accepts s b 0x8E → i < unitCount ty → ty ≠ 0x0A → ((ownerPol m ty i).map (fun p => m.pol[p].fenced)).getD false = false → unitFenced m ty i = true →
      (ty ≠ 0x01 ∨ fencedBit m.fence.vdom (i / 16) = false) →
      exec (.unfenceUnit b true) s = after s (mbxDone (rejoin m ty i) b stOk (at8 16 1)) ∧
      exec (.unfenceUnit b false) s = after s (mbxDone (logFault m ty i fSelftest 0 false 0) b stFenced 0))) ∧
  (∀ (t : Tri Nat) (i j : Nat) (x : Bool), fencedBit (maskBit t i x) j = if j = i then x else fencedBit t j)

/-- Warden commands (R340, R360, R389, R390, R396): FAULT_LOG_READ answers the records from SEQ on; POLDER_FENCE fences each polder of its mask;
POWER_CLAMP clamps; MODULE_SEAL run to its fifth step seals the module; IDENTITY_QUOTE answers a quote of the device identity; WARM_RESET is counted,
tells the buddy and starts stage 3 with the profile kept. A sealed module stays sealed in a seal, and its fifth step seals it: SEALED is set and
SEALS counted (R390, Table 13-4).
Completes with its own effect under hypotheses on state and operands alone (the equations name next states: `after` and `withMod` are `.next`):
FAULT_LOG_READ, POLDER_FENCE, POWER_CLAMP, MODULE_SEAL, IDENTITY_QUOTE, WARM_RESET. -/
def Obligations.WardenCommands : Prop :=
  (∀ s : State, let m := wdBegun s.m; let a := s.m.sys.wd.mbx.runArg
    (WdAccepts s 0xC0 → fld a 16 0 32 ≤ 256 → fld a 8 0 64 = 0 →
      exec .faultLogRead s = after s (
        let max' := if fld a 16 0 32 == 0 then 256 else fld a 16 0 32
        let l := m.sys.wd.log.reverse
        let oldest := (l.head?.map FaultRec.seq).getD m.sys.wd.nextSeq
        let start := max (fld a 0 0 64) oldest
        let sel := (l.filter (fun r => decide (start ≤ r.seq))).take max'
        wdDone (modWd m (fun w => { w with buf := .faults sel })) stOk
          (sel.length + at8 8 (((sel.getLast?.map (fun r => r.seq + 1)).getD start) % 2 ^ 64) + at8 16 (oldest % 2 ^ 64)))) ∧
    (WdAccepts s 0xC1 → exec .polderFence s = after s (
        let m1 := (bitsOf (fld a 0 0 16) 16).foldl (fun m i => fencePolder m (pn i)) m
        wdDone m1 stOk (m1.fence.polder.orRead % 65536))) ∧
    (WdAccepts s 0xC2 → exec .powerClamp s = after s (wdDone (powerClamp m) stOk (floorW (powerClamp m)))) ∧
    (WdAccepts s 0xC3 → s.m.sys.wd.sealed = false → s.m.sys.wd.sealing = some 4 →
      exec (.moduleSeal 5) s = after s (
        let m1 := sealStep s.fuses 1 (modWd m (fun w => { w with sealing := some 5 })) 5
        wdDone m1 stOk ((((sealArea m1.sys.wd ((newestArea m1.sys.wd).getD 0)).map (fun x => x.dir.length)).getD 0) + at8 4 ((newestArea m1.sys.wd).getD 0)))) ∧
    (WdAccepts s 0xC4 → fld a 8 0 64 = 0 → 7688 ≤ fld a 16 0 32 →
      exec .identityQuote s = after s (
        let r := signQuote m (dikSeed s.fuses) (identityQuote s.fuses m (fld a 32 0 256))
        wdDone (modWd r.2 (fun w => { w with buf := .quote r.1 })) stOk (at8 16 7688))) ∧
    (∀ b : BootIn, WdAccepts s 0xC5 → s.m.sys.wd.thermTrip = false →
      ∃ t, exec (.warmReset b 3) s = .next t ∧ t.fuses = s.fuses ∧ t.pending = s.pending ∧ t.m.working = true ∧ t.m.front.stage = 3 ∧
        t.m.front.ready = false ∧ t.m.front.profile = Tri.mk1 (s.m.front.profile.read (fun a _ _ => a) % 4))) ∧
  ((∀ (fz : Fuses) (kind : Nat) (m : Mod) (n : Nat), m.sys.wd.sealed = true → sealTo fz kind m n = m) ∧
  (∀ (fz : Fuses) (kind : Nat) (m : Mod), m.sys.wd.sealed = false → (m.sys.wd.sealing.getD 0) < 5 → (sealTo fz kind m 5).sys.wd.sealed = true ∧
    (sealTo fz kind m 5).sys.wd.sealing = none))

-- Frames, gates and policers (chapters 10 and 16).

/-- Frames received (R458, R459): a culvert frame of module level for this module is accepted; one for a polder that is composed, not fenced and has
the port is counted by colour and accepted while its policer is off and its buffer has room; agreed MKA secures the port, and a request for the
port's address is answered. Refills and gates (R314, R317, R321, R324, R325): at a refill every policer of a composed polder is refilled up to the
counter's reading; at an entry boundary the gates take the entry's states; at CHANGE_TIME the loaded list takes over; when a frame ends the port
selects again.
Completes with its own effect under hypotheses on state and operands alone (the equations name next states: `after` and `withMod` are `.next`):
INGRESS_FRAME, MKA_FRAME, NEIGHBOUR_FRAME, POLICER_REFILL, SLUICE_ENTRY, SLUICE_CHANGE, FRAME_TX_DONE. -/
def Obligations.FramesGatesAndRefills : Prop :=
  (∀ (s : State) (k : Fin 4), s.m.working = true → s.m.net.ports[k].up = true →
    (∀ (w : Wire) (used size : Nat), fencedBit s.m.fence.link k.val = false → w.culvert = true → w.dst = selfId s.m → w.len ≤ maxL s.m k →
      w.ftype = 0 → moduleLevel w.ty = true →
      exec (.ingressFrame k w used size) s = after s { s.m with net := { s.m.net with rx := s.m.net.rx ++ [(k.val, w)] } }) ∧
    (∀ (w : Wire) (used size : Nat), fencedBit s.m.fence.link k.val = false → w.culvert = true → w.dst = selfId s.m → w.len ≤ maxL s.m k →
      w.ftype = 0 → moduleLevel w.ty = false → s.m.pol[pn w.dstPol].composed = true → s.m.pol[pn w.dstPol].fenced = false →
      bit s.m.pol[pn w.dstPol].ethPorts k.val = true → (∀ i : Fin 6, s.m.pol[pn w.dstPol].polic[i].set.en = false) → used < size →
      exec (.ingressFrame k w used size) s = after s (
        let i := polIdx 2 (if bit (portBoard s.m k).lcPcp w.pcp then .lc else .be)
        let m1 := pinc (modPol s.m (pn w.dstPol) (fun q => { q with polic := q.polic.set i s.m.pol[pn w.dstPol].polic[i] })) (pn w.dstPol) (Ctr.polGreen i) w.len
        { m1 with net := { m1.net with rx := m1.net.rx ++ [(k.val, w)] } })) ∧
    ((portBoard s.m k).macsec = true → exec (.mkaFrame k true) s = after s (modPort s.m k (fun po => { po with secured := true }))) ∧
    (∀ addr, fencedBit s.m.fence.link k.val = false → s.m.net.board.isSome = true → addr ≠ 0 → addr = (portBoard s.m k).ipv4 →
      exec (.neighbourFrame k addr) s = after s (emit s.m (.neighbour k.val addr (portBoard s.m k).mac)))) ∧
  ((∀ (s : State) (p : Fin 16) (t : Nat), s.m.working = true → s.m.pol[p].composed = true → s.m.pol[p].refill < max s.m.pol[p].clk t / 1000 →
    (getMbx s.m .mgmt).busy = false →
    ∃ m2, exec (.policerRefill p t) s = after s (keepCfg .mgmt s.m (kickPort (kickPort (kickPort (kickPort m2 0) 1) 2) 3)) ∧
      m2.pol[p].refill = max s.m.pol[p].clk t / 1000 ∧
      (∀ i : Fin 6, m2.pol[p].polic[i] = (refillTo i.val s.m.pol[p].refill (max s.m.pol[p].clk t / 1000) s.m.pol[p].polic[i]).2) ∧
      (∀ q : Fin 16, q ≠ p → m2.pol[q] = s.m.pol[q])) ∧
  (∀ (s : State) (k : Fin 4) (t : Nat), s.m.working = true → s.m.net.ports[k].change = none →
    exec (.sluiceEntry k t) s = after s (kickPort (setGates (tickPort s.m k t) k) k)) ∧
  (∀ (s : State) (k : Fin 4) (t c : Nat) (l : Option Sluice), s.m.working = true → s.m.net.ports[k].change = some (c, l) →
    c ≤ max s.m.net.ports[k].clk t →
    exec (.sluiceChange k t) s = after s (kickPort (setGates (minc (modPort (tickPort s.m k t) k (fun po => { po with
      sluice := l, change := none, gates := if l.isNone then 255 else po.gates })) (Ctr.sluChanges k.val) (b2n l.isSome)) k) k)) ∧
  (∀ (s : State) (k : Fin 4) (t : Nat) (x : EgrFrame × Nat), s.m.working = true → s.m.net.ports[k].flight = some x → x.2 ≤ max s.m.net.ports[k].clk t →
    exec (.frameTxDone k t) s = after s (kickPort (modPort (tickPort s.m k t) k (fun po => { po with flight := none, lastEnd := x.2 })) k)))

/-- A refill adds CIR and PIR and never fills a bucket beyond its burst limit, and a test never takes more than the buckets hold: the bounds hold
after any number of refills and any test, and a settings change cuts the buckets to the new limits (R314, R317). The colour test (R314, R315): a unit
is red where the peak bucket does not hold its need, else yellow where the committed bucket does not hold it or a colour-aware policer finds it
marked, else green; green takes from both buckets, yellow from the peak bucket, red and held units from none. -/
def Obligations.PolicerColoursAndBounds : Prop :=
  (∀ (i k need : Nat) (pre : Bool) (pl : Policer), pl.bounded i →
    (refillK i k pl).bounded i ∧ (police pl need pre).2.2.bounded i ∧ (∀ s fill, (applyPol i pl s fill).bounded i)) ∧
  (∀ (pl : Policer) (need : Nat) (pre : Bool), pl.set.en = true →
    (pl.tp < need → (police pl need pre).1 = 2 ∧ (police pl need pre).2.2 = pl) ∧
    (need ≤ pl.tp → (pl.tc < need ∨ (pre = true ∧ pl.set.aware = true)) → (police pl need pre).1 = 1 ∧
      (pl.set.yAct ≠ 2 → (police pl need pre).2.2 = { pl with tp := pl.tp - need }) ∧ (pl.set.yAct = 2 → (police pl need pre).2.2 = pl)) ∧
    (need ≤ pl.tp → need ≤ pl.tc → (pre = false ∨ pl.set.aware = false) →
      police pl need pre = (0, 0, { pl with tp := pl.tp - need, tc := pl.tc - need })))

/-- Over any sequence of refills and tests an enabled policer lets no more through green than its committed burst and CIR for each refill (R314): the
committed rate is kept over every interval, whatever the traffic. -/
def Obligations.CommittedRateIsKept : Prop :=
  ∀ (i : Nat) (l : List PolEvent) (pl : Policer), pl.set.en = true → pl.bounded i →
    (policed i l (pl, 0, 0)).2.1 ≤ pl.set.cbs * subUnits i + (policed i l (pl, 0, 0)).2.2 * pl.set.cir

/-- Weighted fair queueing (R318): serving a unit moves the arbiter's virtual time to its stamp, which is never before the virtual time; a polder's
next stamp follows its last by the unit's length over its weight. -/
def Obligations.FairStampsNeverGoBack : Prop :=
  ∀ (a : Arb) (p len w : Nat), a.v ≤ wfqStamp a p len w ∧ (a.fin.get p).getD 0 ≤ wfqStamp a p len w ∧
    wfqStamp { v := wfqStamp a p len w, fin := a.fin.put p (wfqStamp a p len w) } p len w = wfqStamp a p len w + len * 65536 / w

-- Faults (chapter 13).

/-- Masked faults (R145, R146, R383): the event counts, uses up an armed perturbation and leaves one fault record naming the unit, the fault and the
action that masked it; no cofferdam closes. A companion-memory read that times out (R456) is logged against its HVL half and, where it was a mailbox
command's, ends that command with RETRY.
Completes with its own effect under hypotheses on state and operands alone (the equations name next states: `after` and `withMod` are `.next`):
RESIDUE_MISMATCH, HANDSHAKE_STALL, HVL_READ_TIMEOUT, FABRIC_PORT_ERROR, FABRIC_WEDGE, ACT_STORE_ECC, CREST_ECC, CREST_SCRUB, BERM_ECC, DUP_MISMATCH,
HVL_LANE_CRC. -/
def Obligations.MaskedFaultsAreLogged : Prop :=
  (∀ s : State, s.m.working = true →
    (∀ a, a < 256 → arrayFenced s.m a = false →
      exec (.residueMismatch a false) s =
        after s (logFault (minc (minc (spend s.m (armHit 0 0 a false)) (Ctr.resFault a) 1) (Ctr.resRetryOk a) 1) 0x01 a fResidue 1 false 0)) ∧
    (∀ (p : Fin 16) (a : Nat) (sl : ArrSlots) (key : StripKey), s.m.pol[p].arrays.get a = some sl → sl.run = some key → sl.stalled = none →
      arrayFenced s.m a = false → s.m.pol[p].fenced = false →
      exec (.handshakeStall p a true) s = after s (dispatch (logFault
        (modPol (arrayLeaves (minc (spend s.m (armHit 2 0 a false)) (Ctr.hsStall a) 1) p a false) p (fun q => { q with
          arrays := q.arrays.upd a (fun x => { x with stalled := some key.pass }) })) 0x01 a fHsStall 3 false 0) p)) ∧
    (∀ a t, a < 256 → arrayFenced s.m a = false → (noteError (tickHvl s.m t) (errKey 1 0x01 a) 1000000).1 < 2 →
      exec (.fabricPortError a t) s = after s (logFault (noteError (tickHvl s.m t) (errKey 1 0x01 a) 1000000).2 0x01 a fResidue 2 false 0)) ∧
    (∀ t wt, s.m.sys.wd.fabWedged = false →
      exec (.fabricWedge ⟨t, wt⟩) s = after s (logFault (modWd (tickWd (tickHvl s.m t) wt) (fun w => { w with fabWedged := true, wedgedAt := w.ticks }))
        0x15 0 fFabWedged 0 false 0)) ∧
    (∀ a t d, a < 256 → arrayFenced s.m a = false →
      exec (.actStoreEcc a t false d) s =
        after s (logFault (minc (spend (tickHvl s.m t) (armHit 1 1 a false)) (Ctr.eccCorr (3 + a)) 1) 0x01 a fEccCorr 1 false d)) ∧
    (∀ die d, die < 4 →
      exec (.crestEcc die false none d) s = after s (logFault (minc (spend s.m (fun x => x.kind == 1 && x.target == 0 && x.double == false))
        (Ctr.eccCorr 0) 1) 0x0B die fEccCorr 1 false d)) ∧
    (∀ t wt, wdPassed (tickWd (tickHvl s.m t) wt) s.m.sys.wd.scrubAt 4000000000 = true →
      exec (.crestScrub ⟨t, wt⟩) s = after s (modWd (minc (tickWd (tickHvl s.m t) wt) Ctr.crestScrubPasses 1) (fun w => { w with scrubAt := w.ticks }))) ∧
    (∀ i t d, i < 16 → unitFenced s.m 0x02 i = false →
      exec (.bermEcc i t false false none d) s =
        after s (logFault (minc (spend (tickHvl s.m t) (armHit 1 2 i false)) (Ctr.eccCorr 1) 1) 0x02 i fEccCorr 1 false d)) ∧
    (∀ ty i t, (ty = 0x07 ∨ ty = 0x08) → i < 16 → unitFenced s.m ty i = false →
      (noteError (minc (tickHvl s.m t) (Ctr.dupMismatch ty) 1) (errKey 4 ty i) 1000000).1 < 2 →
      exec (.dupMismatch ty i t) s =
        after s (logFault (noteError (minc (tickHvl s.m t) (Ctr.dupMismatch ty) 1) (errKey 4 ty i) 1000000).2 ty i fDup 2 false 0)) ∧
    (∀ half, half < 2 → unitFenced s.m 0x05 half = false →
      exec (.hvlLaneCrc half) s = after s (logFault s.m 0x05 half fLinkCrc 1 false 0))) ∧
  (∀ (s : State) (half t : Nat) (b : Box), s.m.working = true → (getMbx s.m b).busy = true → (getMbx s.m b).started = false →
    exec (.hvlReadTimeout half none (some b) t) s = after s (mbxDone (logFault (tickHvl s.m t) 0x05 (half % 2) fTimeout 0 false 0) b stRetry 0) ∧
    exec (.hvlReadTimeout half none none t) s = after s (logFault (tickHvl s.m t) 0x05 (half % 2) fTimeout 0 false 0))

/-- Faults that fence (R383, R388, Table 13-2): the event is logged with ACTION 4 and the cofferdam of Table 13-3 closes over the unit, once; a unit
inside one already is left as it is.
Completes with its own effect under hypotheses on state and operands alone (the equations name next states: `after` and `withMod` are `.next`):
BERM_DEVICE_FAULT, BERM_TRAINING_CHECK, TOE_CHANNEL_FAULT, LOCKSTEP_MISMATCH, HEARTBEAT_LOSS, PHASE_FAULT, VCORE_DOMAIN_FAULT, HVL_LANE_LOSS,
ETH_PORT_FAULT, SENSOR_IMPLAUSIBLE. -/
def Obligations.FencingFaultsCloseTheCofferdam : Prop :=
  (∀ (fz : Fuses) (m : Mod) (ty i fault detail : Nat), i < unitCount ty → unitFenced m ty i = false →
    faultFence fz m ty i fault detail = closeFence fz (logFault m ty i fault 4 false detail) ty i) ∧
  (∀ (fz : Fuses) (m : Mod) (ty i fault detail : Nat), unitFenced m ty i = true → faultFence fz m ty i fault detail = m) ∧
  (∀ s : State, s.m.working = true →
    (∀ i t, exec (.bermDeviceFault i 1 t) s = after s (faultFence s.fuses (tickHvl s.m t) 0x02 i fTimeout 0)) ∧
    (∀ t wt, wdPassed (tickWd (tickHvl s.m t) wt) s.m.sys.wd.trainAt 100000000 = true →
      exec (.bermTrainingCheck ⟨t, wt⟩ 0) s = after s (modWd (tickWd (tickHvl s.m t) wt) (fun w => { w with trainAt := w.ticks }))) ∧
    (∀ ch, exec (.toeChannelFault ch 0) s = after s (faultFence s.fuses s.m 0x03 ch fTimeout 0)) ∧
    (∀ k, k < 4 → unitFenced s.m 0x06 k = false →
      exec (.lockstepMismatch k) s = after s (faultFence s.fuses (minc (spend s.m (armHit 3 0 k false)) (Ctr.lockstepMismatch k) 1) 0x06 k fLockstep 0)) ∧
    (∀ k t wt, k < 4 → unitFenced s.m 0x06 k = false →
      exec (.heartbeatLoss k ⟨t, wt⟩) s =
        after s (faultFence s.fuses (modWd (tickWd (tickHvl s.m t) wt) (fun w => { w with silent := setBit w.silent k true })) 0x06 k fTimeout 0)) ∧
    (∀ i, exec (.phaseFault i) s = after s (faultFence s.fuses s.m 0x0A i fPhase 0)) ∧
    (∀ g, exec (.vcoreDomainFault g) s = after s (faultFence s.fuses s.m 0x09 g fPhase 0)) ∧
    (∀ h, exec (.hvlLaneLoss h) s = after s (faultFence s.fuses s.m 0x05 h fLinkCrc 0)) ∧
    (∀ k, exec (.ethPortFault k) s = after s (faultFence s.fuses s.m 0x04 k fLinkCrc 0)) ∧
    (∀ i d, exec (.sensorImplausible i d) s = after s (faultFence s.fuses s.m 0x0C i fSensor d)))

/-- Module faults and the warden on its own (R383, R384, R393, R397, R399): a failing Crest die seals the module; AUTO_SEAL seals 100 ms after the
module wedged where WMB_CONF asks for it; 110 °C held for 1 ms clamps and 115 °C trips; the oscillator is judged every 10 ms and the log copied every
second. The warden's own bounds are timed on its oscillator (R383, R464).
Completes with its own effect under hypotheses on state and operands alone (the equations name next states: `after` and `withMod` are `.next`):
WARDEN_THERM_CLAMP, THERM_TRIP, CREST_DIE_FAULT, AUTO_SEAL, OSC_CHECK, FAULT_LOG_COPY. -/
def Obligations.ModuleFaultsAndWardenActions : Prop :=
  ∀ s : State, s.m.working = true →
    (∀ die, die < 4 → s.m.sys.wd.coresWedged = false →
      exec (.crestDieFault die) s = after s (sealTo s.fuses 1 (logFault s.m 0x0B die fEccUncorr 7 false 0) 5)) ∧
    (∀ t wt, bit (s.m.sys.wd.conf.read (fun _ _ _ => 1)) 0 = true → (s.m.sys.wd.coresWedged = true ∨ s.m.sys.wd.fabWedged = true) →
      wdPassed (tickWd (tickHvl s.m t) wt) s.m.sys.wd.wedgedAt 100000000 = true → s.m.sys.wd.sealing = none →
      exec (.autoSeal ⟨t, wt⟩) s = after s (sealTo s.fuses 1 (tickWd (tickHvl s.m t) wt) 5)) ∧
    (∀ t wt t0, s.m.sys.wd.hotSince = some t0 → wdPassed (tickWd (tickHvl s.m t) wt) t0 1000000 = true → s.m.sys.wd.thermHigh = false →
      exec (.wardenThermClamp ⟨t, wt⟩) s = after s (modWd (powerClamp (logFault (tickWd (tickHvl s.m t) wt) 0x1F 0 fThermHigh 6 true s.m.sys.pw.tj.toNat))
        (fun w => { w with thermHigh := true }))) ∧
    (s.m.sys.wd.thermTrip = false → 1150 ≤ s.m.sys.pw.tj →
      ∃ t, exec .thermTrip s = .next t ∧ t.fuses = s.fuses ∧ t.pending = s.pending ∧ t.m.sys.wd.thermTrip = true ∧ t.m.sys.pins.tripLow = true) ∧
    (∀ t ps, s.m.sys.wd.oscAt + 10000000 ≤ max s.m.hvl t → 19 * 1953125 ≤ 40 * ps → 40 * ps ≤ 21 * 1953125 →
      exec (.oscCheck t ps) s = after s (modWd (modWd (tickHvl s.m t) (fun w => { w with oscAt := max s.m.hvl t, tickPs := ps }))
        (fun w => { w with oscBad := false }))) ∧
    (∀ t, s.m.sys.wd.coresWedged = false → s.m.sys.wd.sealed = false → s.m.sys.wd.copyAt + 1000000000 ≤ max s.m.hvl t →
      exec (.faultLogCopy t) s = after s (modWd (tickHvl s.m t) (fun w => { w with copied := w.log, copyAt := max s.m.hvl t })))

/-- The fault log (R399, R400): it never holds more than 1,024 records; a record that repeats the newest within 1 s raises its COUNT and takes no
SEQ, any other is the newest with the next SEQ, its TIME and its unit. -/
def Obligations.FaultLogRule : Prop :=
  ∀ (m : Mod) (ty i f act : Nat) (env : Bool) (d : Block), logBounded m →
    logBounded (logFault m ty i f act env d) ∧
    (∀ r rest, m.sys.wd.log = r :: rest → r.unit = ty → r.index = i → r.fault = f → r.action = act → logTime m < r.time + 1000000000 →
      logFault m ty i f act env d = modWd { m with free := m.free + 1 } (fun w => { w with log := { r with count := r.count + 1 } :: rest })) ∧
    (m.sys.wd.log = [] → ∃ r, (logFault m ty i f act env d).sys.wd.log = [r] ∧ r.seq = m.sys.wd.nextSeq ∧ r.time = logTime m ∧ r.unit = ty ∧
      r.index = i ∧ r.fault = f ∧ r.action = act ∧ r.count = 1 ∧ (logFault m ty i f act env d).sys.wd.nextSeq = m.sys.wd.nextSeq + 1) ∧
    (logFault m ty i f act env d).dir = m.dir ∧ (logFault m ty i f act env d).pol = m.pol ∧ (logFault m ty i f act env d).fence = m.fence

-- Power, time and discovery (chapters 11, 16 and 17).

/-- The power controller's events (R124, R334, R338, R342, R346): each is due by its counter and sets what the rule names; before its time it only
takes the counter's reading.
Completes with its own effect under hypotheses on state and operands alone (the equations name next states: `after` and `withMod` are `.next`):
PACE_UPDATE, CONTROL_INTERVAL, THERMAL_SAMPLE, THERM_VHI_STEP, POWER_REQUEST, POWER_OFFER, OFFER_DEADLINE, OFFER_RETURN, ACCOUNTING_CLOSE. -/
def Obligations.PowerEvents : Prop :=
  ∀ s : State, s.m.working = true →
    (∀ (x : PwrSample) t, s.m.sys.wd.coresWedged = false → (∀ p : Fin 16, s.m.pol[p].composed = false) →
      exec (.controlInterval x t) s = after s (
        let m1 := askGroup (countHolds (shareOut (chargeEnergy (modeStep (runBudgets (tickHvl s.m t)) x) x) x) x)
        (List.range 16).foldl (fun m i => if m.pol[pn i].composed then dispatch m (pn i) else m) m1)) ∧
    (∀ temps t wt v, junction (tickWd (tickHvl s.m t) wt) temps = some v → 0 ≤ v → v < 1050 →
      exec (.thermalSample temps ⟨t, wt⟩) s = after s (modWd (modPw (tickWd (tickHvl s.m t) wt) (fun x => { x with
        tj := v, tjMax := max v x.tjMax, tjAt := max s.m.hvl t })) (fun w => { w with hotSince := none, thermHigh := false }))) ∧
    (∀ temps t wt v, junction (tickWd (tickHvl s.m t) wt) temps = some v → 1050 ≤ v → v < 1100 → s.m.sys.pw.mode ≠ 2 → s.m.sys.wd.coresWedged = false →
      1050 < s.m.sys.pw.tj →
      exec (.thermalSample temps ⟨t, wt⟩) s = after s (enterClamped (modWd (modPw (tickWd (tickHvl s.m t) wt) (fun x => { x with
        tj := v, tjMax := max v x.tjMax, tjAt := max s.m.hvl t })) (fun w => { w with hotSince := none, thermHigh := false })))) ∧
    (∀ t, 10 * (s.m.sys.pw.conf.tjSoft : Int) ≤ s.m.sys.pw.tj → s.m.sys.pw.cutAt + 10000000 ≤ max s.m.hvl t →
      exec (.thermVhiStep t) s = after s (modPw (cutVhi (tickHvl s.m t) true) (fun x => { x with cutAt := max s.m.hvl t }))) ∧
    (∀ m : Mod, ∀ p : Fin 16, (cutVhi m true).pol[p].pw.vhiCut = min (vHiSet m m.pol[p] - 550) (m.pol[p].pw.vhiCut + 25)) ∧
    (∀ t, s.m.sys.pw.borrowed = [] →
      exec (.offerDeadline t) s = after s (modPw (tickHvl s.m t) (fun x => { x with borrowed := [] }))) ∧
    (∀ t l, l ∈ s.m.sys.pw.lent → l.at_ ≤ max s.m.hvl t →
      exec (.offerReturn t) s = after s (capChanged (modPw (tickHvl s.m t) (fun x => { x with lent := x.lent.filter (fun y => decide (max s.m.hvl t < y.at_)) })))) ∧
    (∀ (p : Fin 16) t, s.m.pol[p].composed = true → s.m.pol[p].pw.conf.acctMs ≠ 0 →
      s.m.pol[p].pw.closeAt + s.m.pol[p].pw.conf.acctMs * 1000000 ≤ max s.m.pol[p].clk t →
      exec (.accountingClose p t) s = after s (modPol (tickPol s.m p t) p (fun q =>
        publish q (q.pw.closeAt + q.pw.conf.acctMs * 1000000 * ((q.clk - q.pw.closeAt) / (q.pw.conf.acctMs * 1000000)))))) ∧
    (∀ (p : Fin 16) rates t, s.m.pol[p].composed = true → s.m.pol[p].arrayList = [] →
      exec (.paceUpdate p rates t) s = after s (modPol (tickPol s.m p t) p (fun q => { q with pw := { q.pw with pace := 0, paceAt := s.m.hvl } }))) ∧
    (∀ src t (y : PowerMsg), Arrived (tickHvl s.m t) src 0 0 0 0x0A →
      exec (.powerRequest src t y) s = after s (recvRequest (heard (unlaned (tickHvl s.m t) src 0) src) src y) ∧
      exec (.powerOffer src t y) s = after s (recvPowerOffer (heard (unlaned (tickHvl s.m t) src 0) src) y))

/-- Power lent and borrowed (R341, R342, Table 11-7): a REQUEST the group's freeboard, SHIFT_MAX_W and FLOOR_W allow lowers the lender's cap before
its OFFER goes; an OFFER that can be given back in time raises the borrower's; neither cap ever leaves the range from FLOOR_W to the highest cap in
force. -/
def Obligations.EffectiveCapStaysInRange : Prop :=
  (∀ m : Mod, floorW m ≤ capHigh m → floorW m ≤ capEff m ∧ capEff m ≤ capHigh m) ∧
  (∀ (m : Mod) (l : Loan), floorW m ≤ capHigh m →
    capEff (modPw m (fun x => { x with lent := x.lent ++ [l] })) ≤ capEff m ∧ capEff m ≤ capEff (modPw m (fun x => { x with borrowed := x.borrowed ++ [l] })))

/-- Time (R460 to R463): a message of the configured domain and profile on the slave port measures its counter; a fresh, locked time message measures
the HVL counter against REF_NS and the delay; sixteen measurements in a row within 50 ns lock a counter, one above 200 ns unlocks it; a locked
counter not measured for 1 s enters holdover.
Completes with its own effect under hypotheses on state and operands alone (the equations name next states: `after` and `withMod` are `.next`):
PTP_FRAME, TIME_MESSAGE, LOCK_LOSS. -/
def Obligations.TimeEvents : Prop :=
  (∀ (s : State) (k : Fin 4) (dom prof t : Nat) (off hv : Int), s.m.working = true → s.m.sys.time.conf % 4 = 1 → s.m.sys.time.conf / 4 % 4 = k.val →
    s.m.sys.time.conf / 16 % 2 = prof % 2 → s.m.sys.time.conf / 256 % 256 = dom % 256 → s.m.net.ports[k].up = true →
    fencedBit s.m.fence.link k.val = false →
    exec (.ptpFrame k dom prof off hv [] t) s = after s (measure (measure (tickHvl s.m t) (1 + k.val) off) 0 hv)) ∧
  (∀ (s : State) (msg : Block) (delay t : Nat), s.m.working = true → flg msg 12 0 = true → s.m.sys.time.lastSeq = none → s.m.sys.time.conf % 4 = 2 →
    exec (.timeMessage msg delay [] t) s = after s (measure (modTime (tickHvl s.m t) (fun y => { y with lastSeq := some (octets msg 8 4) })) 0
      (((max s.m.hvl t : Nat) : Int) - ((octets msg 0 8 + delay : Nat) : Int)))) ∧
  (∀ (s : State) (k t : Nat), s.m.working = true → (syncOf s.m k).locked = true → (syncOf s.m k).at_ + 1000000000 ≤ max s.m.hvl t →
    exec (.lockLoss k t) s = after s (holdover (tickHvl s.m t) k)) ∧
  (∀ (m : Mod) (k : Nat), (syncOf (holdover m k) k).locked = false ∧ ((syncOf m k).locked = true → (syncOf (holdover m k) k).holdover = true)) ∧
  (∀ (m : Mod) (k : Nat) (off : Int), 5 ≤ k →
    (200 < off.natAbs → (syncOf (measure m k off) k).locked = false) ∧
    (off.natAbs ≤ 50 → (syncOf m k).good = 15 → (syncOf (measure m k off) k).locked = true ∧ (syncOf (measure m k off) k).holdover = false) ∧
    (50 < off.natAbs → off.natAbs ≤ 200 → (syncOf (measure m k off) k).locked = (syncOf m k).locked ∧ (syncOf (measure m k off) k).good = 0))

/-- Discovery (R496, R497, Table 17-8): a received announce of the domain is recorded by a module that is no anchor; the backoff's end asks anchor
SERIAL mod NANCHOR; an anchor that does not acknowledge within 100 ms passes the announce on to the next; an anchor's tick, a relay's forwarding and
its timeout take what is due.
Completes with its own effect under hypotheses on state and operands alone (the equations name next states: `after` and `withMod` are `.next`):
ANNOUNCE, DISCOVERY_BACKOFF, ANCHOR_ACK_TIMEOUT, ANCHOR_TICK, RELAY_FORWARD, RELAY_ACK_TIMEOUT. -/
def Obligations.DiscoveryEvents : Prop :=
  ∀ s : State, s.m.working = true →
    (∀ src (x : Announce) coord t, Arrived (tickHvl s.m t) src 0 0 0 0x0B → 4096 ≤ src → (s.m.net.board.map Board.domain) = some x.domain →
      anchorIndex s.m = none → x.serial ≠ s.fuses.serial → x.level ≠ 2 →
      exec (.announce src x coord t) s = after s (putEntry (unlaned (tickHvl s.m t) src 0) x)) ∧
    (∀ coord t d, s.m.sys.disc.due = some d → d ≤ max s.m.hvl t → (anchors s.m).length ≠ 0 →
      exec (.discoveryBackoff coord t) s = after s (askAnchor s.fuses (tickHvl s.m t) (s.fuses.serial % (anchors s.m).length) coord)) ∧
    (∀ coord t a, s.m.sys.disc.asked = some a → a + 100000000 ≤ max s.m.hvl t → unackedTo s.m (anchorDst s.m.sys.disc.anchor) = true →
      exec (.anchorAckTimeout coord t) s = after s (askAnchor s.fuses (modDisc (tickHvl s.m t) (fun d => { d with tries := d.tries + 1 }))
        ((s.m.sys.disc.anchor + 1) % max 1 (anchors s.m).length) coord)) ∧
    (∀ t me up, anchorIndex s.m = some me → s.m.sys.disc.up = some up → s.m.sys.disc.tickAt = 0 → s.m.sys.disc.fresh = [] →
      up + 1500000000 ≤ max s.m.hvl t →
      exec (.anchorTick t) s = after s (modDisc (tickHvl s.m t) (fun d => { d with fresh := [], tickAt := up + 1500000000 }))) ∧
    (∀ t i, s.m.front.modId = some i →
      exec (.relayForward t) s = after s (
        let m := tickHvl s.m t
        let m1 := modDisc m (fun d => { d with forward := d.forward.filter (fun e => !decide (e.1 ≤ m.hvl)) })
        (m.sys.disc.forward.filter (fun e => decide (e.1 ≤ m.hvl))).foldl (fun m e =>
          (cellMembers s.fuses m (i / 64) e.2).foldl (fun m z => sendAnnounce m (announceDst z) 1 e.2) m) m1)) ∧
    (∀ t c sers t0, s.m.sys.disc.relays = [(c, sers, t0)] → t0 + 1000000000 ≤ max s.m.hvl t → relayOf s.m c = none →
      exec (.relayAckTimeout t) s = after s (modDisc (tickHvl s.m t) (fun d => { d with relays := [] })))

-- Ring commands and what follows them (chapters 02 to 09). `m` is the module with the command started.

/-- Session commands (R96 to R101, R103, R106, R107): a new session takes an entry and its pages, completes with its handle and EPOCH 1; a query
answers the entry in any state; park, fork, move and handoff act at the step boundary, which is now where no step is in flight; a revival makes the
session ACTIVE and streams its pages; a waiting SESS_HANDOFF_IN waits for its OFFER until its window would close. What a session command does at its
boundary (R31, R97, R99 to R101, Table 03-9): it waits while a step of the session is in flight, else it acts at once. A fork with room opens a child
at EPOCH 1; a move to a polder that holds the model opens the session there at EPOCH + 1; a handoff parks the session, sets PENDING_OUT with
PEND_EPOCH = EPOCH + 1 and its destination, and journals that before the OFFER.
Completes with its own effect under hypotheses on state and operands alone (the equations name next states: `after` and `withMod` are `.next`):
SESS_OPEN, SESS_PARK, SESS_REVIVE, SESS_MOVE, SESS_FORK, SESS_RETIRE, SESS_HANDOFF_OUT, SESS_HANDOFF_IN, SESS_QUERY, REVIVAL_RESUME. -/
def Obligations.SessionCommands : Prop :=
  (∀ (s : State) (p : Fin 16) (tag : Nat) (t : Taken), let m := begun s.m p tag; let e := t.entry
    (∀ sl, Takes s p tag 0x10 t → openCheck m p (clsOf (flg e 28 0)) (flg e 28 1) (fld e 29 0 8) = .ok sl →
      (if fld e 32 0 32 == 0 then modeMax (flg e 28 1) else fld e 32 0 32) ≤ modeMax (flg e 28 1) → liveEntries m p.val < dirShare m →
      exec (.sessOpen p tag) s = after s (
        match takeEntry m (newDesc m p (clsOf (flg e 28 0)) (flg e 28 1) (fld e 29 0 8)
          (if fld e 32 0 32 == 0 then modeMax (flg e 28 1) else fld e 32 0 32) t.job) with
        | none => complete m p tag (rQuota 3)
        | some (idx, m1) =>
          match mapSession m1 p idx (clsOf (flg e 28 0)) (flg e 28 1) sl.man.main
            (if fld e 32 0 32 == 0 then modeMax (flg e 28 1) else fld e 32 0 32) with
          | .error tier => quotaEnd (if tier == errWait then m else freeEntry { m1 with pol := m.pol } idx) p tag tier
          | .ok (ss, m2) => openEnd m2 p idx tag (flg e 28 1) ss)) ∧
    (∀ idx d, Takes s p tag 0x18 t → flg e 28 0 = true → fld e 32 0 64 = 0 → lookupSid m p (fld e 16 0 64) = .ok (some (idx, d)) →
      exec (.sessQuery p tag) s = after s (complete (cacheUse m p idx) p tag (queryRes p idx d))) ∧
    (∀ d, Takes s p tag 0x18 t → flg e 28 0 = false → fld e 32 0 64 ≠ 0 → fld e 16 24 4 = p.val → m.refetch.contains (fld e 16 0 24) = false →
      m.dirGone.contains (fld e 16 0 24) = false → desc? m (fld e 16 0 24) = some d → d.own ≠ .none → d.pol = p.val → d.gen = fld e 20 0 32 →
      exec (.sessQuery p tag) s = after s (complete (hostOut (cacheUse m p (fld e 16 0 24)) p (fld e 32 0 64) 64 (descBytes d)) p tag
        (queryRes p (fld e 16 0 24) d))) ∧
    (∀ idx d, Takes s p tag 0x11 t → liveSession m p e = .ok (idx, d) → d.life ≠ .parked →
      exec (.sessPark p tag) s = after s (atBoundary (setJob (cacheUse m p idx) idx t.job) p idx tag .park (fun m => parkNow m p idx tag))) ∧
    (∀ idx d hv, Takes s p tag 0x12 t → liveSession m p e = .ok (idx, d) → d.life ≠ .active →
      rootLost (cacheUse m p idx).pol[p] idx = false → pumpFenced (cacheUse m p idx) p = false →
      exec (.sessRevive p tag hv) s = after s (kick (reviveNow (setJob (cacheUse m p idx) idx t.job) p idx tag d) p hv)) ∧
    (∀ idx d, Takes s p tag 0x15 t → resolve m p e = .ok (idx, d) → busyOwn d = false → d.own ≠ .importing → (d.life = .active ∨ d.life = .parked) →
      stepInFlight (setJob (cacheUse m p idx) idx t.job).pol[p] idx = false →
      exec (.sessRetire p tag) s = after s (retireNow (setJob (cacheUse m p idx) idx t.job) p idx tag)) ∧
    (∀ idx ss, s.m.working = true → s.m.pol[p].sess.get idx = some ss → ss.reviving = true → ss.revPaused = true →
      adoptedLoad s.m.pol[p] idx = none →
      exec (.revivalResume p idx) s = after s (restoreStream (pump s.m p idx) p idx)) ∧
    (∀ idx d, Takes s p tag 0x14 t → liveSession m p e = .ok (idx, d) →
      exec (.sessFork p tag) s = after s (atBoundary (setJob (cacheUse m p idx) idx t.job) p idx tag .fork (fun m => forkNow m p idx tag))) ∧
    (∀ idx d, Takes s p tag 0x13 t → liveSession m p e = .ok (idx, d) →
      moveBad (cacheUse m p idx) p d (destMod e) (destPol e) = none →
      exec (.sessMove p tag) s = after s (atBoundary (setJob (cacheUse m p idx) idx t.job) p idx tag .move (fun m => moveNow m p idx tag e))) ∧
    (∀ idx d, Takes s p tag 0x16 t → liveSession m p e = .ok (idx, d) →
      handoffBad (cacheUse m p idx) p d (destMod e) (destPol e) = none →
      exec (.sessHandoffOut p tag) s = after s (atBoundary (setJob (cacheUse m p idx) idx t.job) p idx tag .handoff
        (fun m => handoffOutNow m p idx tag e))) ∧
    (∀ hv, Takes s p tag 0x17 t → importOf m.pol[p] (fld e 16 0 64) = none → importRefusal m p (fld e 16 0 64) = none →
      exec (.sessHandoffIn p tag hv) s = after s (kick (modPol m p (fun q => { q with
        inWaits := q.inWaits ++ [⟨tag, fld e 16 0 64, fld e 24 0 32, q.clk + msNs (m.own.leaseMs - m.own.guardMs), false, []⟩] })) p hv)) ∧
    (∀ hv im, Takes s p tag 0x17 t → importOf m.pol[p] (fld e 16 0 64) = some im → im.h = fld e 24 0 32 →
      exec (.sessHandoffIn p tag hv) s = after s (kick (bindIn m p t im) p hv))) ∧
  (∀ (m : Mod) (p : Fin 16) (idx tag : Nat),
    (∀ w f, stepInFlight m.pol[p] idx = false → atBoundary m p idx tag w f = f m) ∧
    (∀ w f, stepInFlight m.pol[p] idx = true → atBoundary m p idx tag w f = modPol m p (fun q => { q with waits := q.waits ++ [⟨tag, idx, w⟩] })) ∧
    (∀ d ss sl rd, desc? m idx = some d → m.pol[p].sess.get idx = some ss → desc? m (famRoot d idx) = some rd → 0 < rd.famRefs → rd.famRefs < 65535 →
      liveEntries m p.val < dirShare m → anyLost m p (forkReads m.pol[p] idx ss) = false → m.pol[p].slots.get d.slot = some sl →
      forkNow m p idx tag = (
        match takeEntry m (fun i => { d with
          sid := selfId m * 2 ^ 52 + m.sidNext % 2 ^ 52, epoch := 1, pend := 0, fam := famRoot d idx, famRefs := 0, ckptRef := 0
          own := .owned, jdirty := false, root := i }) with
        | none => complete m p tag (rQuota 3)
        | some (ci, m1) =>
          match forkPages m1 p ci d ss sl.man.main with
          | .error tier => quotaEnd (if tier == errWait then m else freeEntry { m1 with pol := m.pol } ci) p tag tier
          | .ok m2 => forkEnd (toeReads m2 p (forkReads m.pol[p] idx ss)) p idx ci tag d ss (famRoot d idx) rd.famRefs)) ∧
    (∀ dst d ss slot, desc? m idx = some d → m.pol[p].sess.get idx = some ss →
      slotByDigest m.pol[pn dst] (((m.pol[p].slots.get d.slot).map (fun x => x.man.main.digest)).getD 0) = some slot →
      liveEntries m (pn dst).val < dirShare m →
      moveLocal m p idx tag dst = (
        match takeEntry m (fun i => { d with
          pol := (pn dst).val, slot := slot, epoch := d.epoch + 1, fam := i, famRefs := 0, sealed := m.pol[pn dst].sealed }) with
        | none => complete m p tag (rQuota 3)
        | some (ni, m1) =>
          match movePages m1 p (pn dst) ni slot d ss with
          | .error tier => quotaEnd (if tier == errWait then m else freeEntry { m1 with pol := m.pol } ni) p tag tier
          | .ok m2 => moveEnd (toeReads m2 p (allPages m.pol[p] idx)) p idx ni tag (pn dst) d)) ∧
    (∀ d, adoptedLoad m.pol[p] idx = none → reviveNow m p idx tag d = (
      let m1 := changeDesc m idx (fun d => { d with life := .active })
      let m2 := (sessPages m1.pol[p] idx).foldl (fun m n => cancelDemotion m p n) m1
      let m3 := modSess m2 p idx (fun s => { s with reviving := true })
      let m4 := if d.sparse then coarseHome m3 p idx true else m3
      complete (pump m4 p idx) p tag (rSess (handleOf idx p.val d.gen) d.epoch
        ((inToe m2.pol[p] (streamOrder m2.pol[p] idx)).length + ((adoptedLoad m2.pol[p] idx).map (fun r => r.left.length)).getD 0)))) ∧
    (∀ dm dp mv, handoffNow m p idx tag dm dp mv = (
      let m1 := modDesc (coarseHome (endSessReqs m p idx stAborted 5) p idx false) idx (fun d => { d with
        life := .parked, own := .pendingOut, pend := d.epoch + 1, peerMod := dm, peerPol := dp })
      journalFirst m1 idx (ownRec m1 idx) (.offer p.val idx tag mv))))

/-- Generation commands (R186, R222 to R229, R236, R237, R249): a request joins its session's queue; prefill state is bound to an imported session
without a pending token; a stop ends the session's requests with ABORTED at its boundary, a job's stop ends it at its next pass; settings take effect
at the next step boundary and complete at once; a job that R155 and R184 allow is queued.
Completes with its own effect under hypotheses on state and operands alone (the equations name next states: `after` and `withMod` are `.next`):
GEN_STEP, GEN_PREFILL_ACCEPT, GEN_STOP, GEN_STOP_JOB, GEN_SPEC_CONF, SAMPLER_CONF, KRN_SUBMIT. -/
def Obligations.GenerationCommands : Prop :=
  ∀ (s : State) (p : Fin 16) (tag : Nat) (t : Taken), let m := begun s.m p tag; let e := t.entry
    (∀ idx d hv, Takes s p tag 0x20 t → resolve m p e = .ok (idx, d) → busyOwn d = false → d.own ≠ .importing → d.life = .active → genStepBad e = none →
      exec (.genStep p tag hv) s =
        after s (kick (modPol (setJob (cacheUse m p idx) idx t.job) p (fun q => { q with reqs := q.reqs ++ [newReq q t idx false] })) p hv)) ∧
    (∀ idx d ss hist hv, Takes s p tag 0x21 t → fld e 40 0 13 ≤ 4096 → fld e 24 0 32 = 0 →
      findSid m p.val (fld e 16 0 64) = some (idx, d) → d.own = .owned → d.tokens = 0 →
      m.pol[p].sess.get idx = some ss → ss.gen.pendValid = false → (d.life = .active ∨ d.life = .parked) →
      exec (.genPrefillAccept p tag hist hv) s = after s (applyPrefill (cacheUse m p idx) p t idx d (hist.take (fld e 40 0 13)) hv)) ∧
    (∀ (m : Mod) idx d hist hv, fld e 28 0 32 < ((m.pol[p].slots.get d.slot).map (fun s => s.man.main.vocab)).getD 0 →
      (∀ n ∈ corePages m.pol[p] idx, ∀ g, getPage m p n = some g → present g = true ∧ g.st ≠ .lost) →
      applyPrefill m p t idx d hist hv =
        kick (complete (writeCore (modSess (setJob m idx t.job) p idx (fun s => bindPrefill s (fld e 28 0 32) (fld e 44 0 32) hist)) p idx) p t.tag
          (rSess (handleOf idx p.val d.gen) d.epoch d.tokens)) p hv) ∧
    (∀ idx d, TakesForm s p tag 0x22 (fun e => !flg e 28 0) t → liveSession m p e = .ok (idx, d) →
      exec (.genStop p tag) s = after s (atBoundary (setJob (cacheUse m p idx) idx t.job) p idx tag .stop (fun m => stopNow m p idx tag))) ∧
    (∀ j, TakesForm s p tag 0x22 (fun e => flg e 28 0) t → j ∈ m.pol[p].jobs → j.tag = fld e 16 0 16 →
      exec (.genStopJob p tag) s = after s (formJob (modPol m p (fun q => { q with
        jobs := updWhere q.jobs (fun j => j.tag == fld e 16 0 16) (fun j => { j with stopping := true, stopTags := j.stopTags ++ [tag] }) })) p (fld e 16 0 16))) ∧
    (∀ idx d, Takes s p tag 0x23 t → liveSession m p e = .ok (idx, d) →
      specBad e (((cacheUse m p idx).pol[p].slots.get d.slot).map Slot.man) = none →
      exec (.genSpecConf p tag) s = after s (withPages (cacheUse m p idx) p tag (corePages (cacheUse m p idx).pol[p] idx) (fun m =>
        complete (setAtBoundary (setJob m idx t.job) p idx (.spec (fld e 28 0 2) (flg e 28 2) (fld e 28 4 4) (fld e 29 0 8)
          ((List.range (fld e 29 0 8)).map (fun i => fld e (32 + i) 0 8)))) p tag (rOk 0)))) ∧
    (∀ idx d bulk, Takes s p tag 0x24 t → fld e 56 0 64 = 0 → liveSession m p e = .ok (idx, d) →
      sampBad e ((((cacheUse m p idx).pol[p].slots.get d.slot).map (fun s => s.man.main.vocab)).getD 0) none = none →
      exec (.samplerConf p tag bulk) s = after s (withPages (cacheUse m p idx) p tag (corePages (cacheUse m p idx).pol[p] idx) (fun m =>
        complete (setAtBoundary (setJob m idx t.job) p idx (.samp (sampOf e) none)) p tag (rOk 0)))) ∧
    (∀ (m : Mod) ns (f : Mod → Mod), (∀ n ∈ ns, ∀ g, getPage m p n = some g → present g = true ∧ g.st ≠ .lost) → withPages m p tag ns f = f m) ∧
    (∀ (m : Mod) ns (f : Mod → Mod) n g, n ∈ ns → getPage m p n = some g → g.st = .lost →
      withPages m p tag ns f = complete m p tag (rSt stTierLost)) ∧
    (∀ g row, Takes s p tag 0x30 t → krnCheck m p e = .ok (g, row) →
      exec (.krnSubmit p tag) s = after s (kick (modPol (keepImage m p (fld e 32 0 8)) p (fun q => { q with jobs := q.jobs ++ [
        { tag := tag, slot := fld e 32 0 8, lc := !flg e 33 0, draft := flg e 33 1, items := fld e 36 0 32, itemTokens := fld e 40 0 32,
          done := 0, outSsa := fld e 24 0 64, rowBytes := row, stopping := false, stopTags := [], out := [] }] })) p ⟨[], []⟩)) ∧
    (∀ (x : Setting) idx,
      (stepInFlight m.pol[p] idx = true → setAtBoundary m p idx x = modSess m p idx (fun s => { s with settings := s.settings ++ [x] })) ∧
      (stepInFlight m.pol[p] idx = false → setAtBoundary m p idx x = writeCore (modSess m p idx (fun s => applySetting s x)) p idx))

/-- Events of generation (R171, R172, R214, R215, R235, R241, R245): a strip of an array that is not fenced completes with its effect, the array's
next strip runs and the dispatcher places what it can; unfinished selections end at the recall deadline; a forced pass commits the journaled tokens;
a token ring's unsignalled entries are signalled after MOD_US; a due reseed is made with a healthy source, whose failure is counted.
Completes with its own effect under hypotheses on state and operands alone (the equations name next states: `after` and `withMod` are `.next`):
STRIP_COMPLETE, FORCED_PASS, RECALL_DEADLINE, TOKEN_RING_MOD_TIMER, DRBG_RESEED, ENTROPY_HEALTH_FAIL. -/
def Obligations.GenerationEvents : Prop :=
  ∀ (s : State) (p : Fin 16), s.m.working = true →
    (∀ a t o hv sl key, s.m.pol[p].arrays.get a = some sl → sl.run = some key → arrayFenced s.m a = false → s.m.pol[p].fenced = false →
      stripComplete s.m p a t o hv =
        spill (kick (modPol (runStrip p a key o (tickPol s.m p t)) p (fun q => { q with arrays := q.arrays.upd a (fun z => { z with
          run := z.nxt, nxt := none, staged := z.staged.filter (fun e => e.1 != key) }) })) p hv) p ∧
      (passOf (stripComplete s.m p a t o hv).pol[p] key.pass = none →
        exec (.stripComplete p a t o hv) s = after s (stripComplete s.m p a t o hv)) ∧
      (∀ x, passOf (stripComplete s.m p a t o hv).pol[p] key.pass = some x → x.vec = none →
        exec (.stripComplete p a t o hv) s = after s (stripComplete s.m p a t o hv))) ∧
    (∀ a key o (m : Mod), runStrip p a key o m = (
      let m1 := if key.select then selectionDone m p key else stripEffect m p a key o
      let m2 := modPass m1 p key.pass (fun x => { x with
        placed := x.placed.filter (fun k => k != key), done := if key.level == x.level then x.done ++ [(key, a)] else x.done })
      let m3 := pinc (minc m2 (Ctr.arrHs a) (stripHs m p key)) p (if keyLc m1.pol[p] key then Ctr.lcStrips else Ctr.beStrips) 1
      pinc (pinc m3 p Ctr.pumpWaitNs o.waitNs) p Ctr.actSpillBytes (if (passOf m.pol[p] key.pass).any (fun x => x.claim != 0) then o.spillBytes else 0))) ∧
    (∀ id t hv x, passOf (tickPol s.m p t).pol[p] id = some x → x.deadlineDone = false → x.job = none →
      x.start + s.m.pol[p].recallCfg.deadlineUs * 1000 ≤ max s.m.pol[p].clk t →
      exec (.recallDeadline p id t hv) s = after s (kick (modPass (tickPol s.m p t) p id (fun x => { x with
        deadlineDone := true, seqs := x.seqs.map (deadlineSeq (tickPol s.m p t) p) })) p hv)) ∧
    (∀ idx arrs outs hv d ss sl toks step left m1, desc? s.m idx = some d → s.m.pol[p].sess.get idx = some ss → s.m.pol[p].slots.get d.slot = some sl →
      takeReplay 8 ss.replay = (toks, step, left) → toks ≠ [] → d.own = .owned → d.pol = p.val → ss.gen.pendValid = true → s.m.pol[p].fenced = false →
      liveArrays s.m p ≠ [] → (d.sparse = false ∨ ss.qsValid = true) → takeStepFrames s.m p idx d toks.length = .ok m1 →
      weightsLost m1.pol[p] d.slot sl.fromCrest = false →
      (∀ n ∈ forcedPages m1 p sl.man.main (forcedSeq idx (ss.gen.pendTok :: toks.dropLast) false []) ((m1.pol[p].sess.get idx).getD ss) d,
        ∀ g, getPage m1 p n = some g → present g = true ∧ g.st ≠ .lost) →
      exec (.forcedPass p idx arrs outs hv) s = after s
        (kick (runForced m1 p idx d sl.man.main sl (forcedSeq idx (ss.gen.pendTok :: toks.dropLast) false []) step toks left (arrs.zip outs)) p hv)) ∧
    (∀ tag t r, reqOf s.m.pol[p] tag = some r → r.modUs ≠ 0 → r.unsig ≠ 0 → r.oldest + r.modUs * 1000 ≤ max s.m.pol[p].clk t →
      exec (.tokenRingModTimer p tag t) s = after s (
        let m1 := modReq (tickPol s.m p t) p tag (fun r => { r with unsig := 0 })
        polIrq (pincIf m1 p (polIrqOn m1 p r.vector) Ctr.ringIrq) p r.vector)) ∧
    (2 ^ 20 ≤ s.m.pol[p].drbg.reqs → s.m.entropyOk = true →
      exec (.drbgReseed p) s = after s (pinc (reseed s.m p) p Ctr.drbgReseed 1) ∧ (reseed s.m p).pol[p].drbg.reqs = 0) ∧
    exec .entropyHealthFail s = after s { minc s.m Ctr.entropyFail 1 with entropyOk := false }

/-- Model slots (R155, R162 to R168): a manifest that passes its checks and its digest becomes the slot's image in Berm, and in Crest where CACHE or
PIN asks for it; an unused slot is freed with both images; a Crest image is pinned, unpinned, or dropped at the slot's step boundary.
Completes with its own effect under hypotheses on state and operands alone (the equations name next states: `after` and `withMod` are `.next`):
MODEL_LOAD, MODEL_EVICT, MODEL_EVICT_CREST, MODEL_PIN, MODEL_UNPIN. -/
def Obligations.ModelCommands : Prop :=
  ∀ (s : State) (p : Fin 16) (tag : Nat) (t : Taken), let m := begun s.m p tag; let e := t.entry; let slot := fld e 32 0 8
    (∀ man img, let mf := manifestOf man
      Takes s p tag 0x31 t → loadBad m p e mf = none → manifestFail mf = none → imageDigest man img = mf.main.digest →
      exec (.modelLoad p tag man img) s = after s (vaultUnlock (
        match imagePages m p (.weights slot) .berm (imageFrames mf) with
        | .error tier => quotaEnd m p tag tier
        | .ok m1 =>
          if flg e 33 0 || flg e 33 1 then
            buildImage (modPol m1 p (fun q => { q with slots := q.slots.put slot (newSlot e mf img) })) p ⟨tag, slot, flg e 33 1, true⟩
          else complete (modPol m1 p (fun q => { q with slots := q.slots.put slot (newSlot e mf img) })) p tag (rOk (mf.main.imageBytes % 2 ^ 64))) p)) ∧
    (TakesForm s p tag 0x32 (fun e => !flg e 33 0) t → slot ≤ 31 → m.pol[p].sealed = false → m.pol[p].slots.has slot = true → slotInUse m p slot = false →
      (∀ w ∈ m.pol[p].modelWaits, w.slot ≠ slot) →
      exec (.modelEvict p tag) s = after s (complete (freeSlot m p slot) p tag (rOk (at8 8 (crestImageFrames m.pol[p] slot % 2 ^ 32) +
        at8 12 ((m.pol[p].pages.filter (fun e => e.2.owner == .weights slot)).length % 2 ^ 32))))) ∧
    (∀ sl, TakesForm s p tag 0x32 (fun e => flg e 33 0) t → slot ≤ 31 → m.pol[p].sealed = false → m.pol[p].slots.get slot = some sl → sl.crest = true →
      sl.evictCrest = none →
      exec (.modelEvictCrest p tag) s = after s (slotBoundary (modPol m p (fun q => { q with
        slots := q.slots.upd slot (fun x => { x with dropAtBoundary := true, evictCrest := some tag }) })) p slot)) ∧
    (TakesForm s p tag 0x33 (fun e => flg e 33 0) t → slot ≤ 31 → m.pol[p].slots.has slot = true →
      exec (.modelPin p tag) s = after s (retryWaits (buildImage m p ⟨tag, slot, true, false⟩) p)) ∧
    (∀ sl, TakesForm s p tag 0x33 (fun e => !flg e 33 0) t → m.pol[p].slots.get slot = some sl →
      exec (.modelUnpin p tag) s = after s (complete (pinImage m p slot false) p tag
        (rOk (at8 8 ((if sl.pinned then crestImageFrames m.pol[p] slot else 0) % 2 ^ 32)))))

/-- Memory commands (R61, R62, R422): a range of unmapped pages is mapped ZERO, every page or none; a release frees every mapped page of its range; a
remap makes LOST pages ZERO; a prefetch starts copies towards its tier and completes when they end; a pin R61 allows cancels demotions and completes
with every page RESIDENT and pinned; an unpin clears the pins.
Completes with its own effect under hypotheses on state and operands alone (the equations name next states: `after` and `withMod` are `.next`):
MEM_MAP, MEM_MAP_RELEASE, MEM_MAP_REMAP, MEM_PREFETCH, MEM_PIN, MEM_UNPIN. -/
def Obligations.MemoryCommands : Prop :=
  ∀ (s : State) (p : Fin 16) (tag n k : Nat) (t : Taken), let m := begun s.m p tag; let e := t.entry
    memRange p e = .ok (n, k) → rangeTaken m.pol[p] n k = false →
    (∀ m1, TakesForm s p tag 0x50 (fun e => !flg e 28 0 && !flg e 28 2) t → rangePages m.pol[p] n k = [] →
      takeTables (mapRun m p n k (clsOf (flg e 28 1)) .mapped) p = .ok m1 →
      exec (.memMap p tag) s = after s (complete m1 p tag (memN k))) ∧
    (TakesForm s p tag 0x50 (fun e => flg e 28 0) t →
      exec (.memMapRelease p tag) s = after s (complete (releasePages m p ((rangePages m.pol[p] n k).map (·.1))) p tag
        (memN (rangePages m.pol[p] n k).length))) ∧
    (TakesForm s p tag 0x50 (fun e => flg e 28 2 && !flg e 28 0) t →
      exec (.memMapRemap p tag) s = after s (complete
        (((rangePages m.pol[p] n k).filter (fun e => e.2.st == .lost)).foldl (fun m e => mapZero m p e.1 e.2.cls .mapped) m) p tag
        (memN ((rangePages m.pol[p] n k).filter (fun e => e.2.st == .lost)).length))) ∧
    (Takes s p tag 0x51 t →
      exec (.memPrefetch p tag) s = after s (prefetchStep m p ⟨tag, none, if flg e 28 0 then Tier.berm else Tier.crest, n, k⟩)) ∧
    (∀ w : MemWait, (∀ x ∈ rangePages m.pol[p] w.start w.n, x.2.st = .resident ∧ tierNo x.2.tier ≤ tierNo w.toTier) →
      prefetchStep m p w = complete m p w.tag (memN (rangePages m.pol[p] w.start w.n).length)) ∧
    (TakesForm s p tag 0x52 (fun e => flg e 28 0) t → pinCheck m.pol[p] (if flg e 28 1 then Tier.berm else Tier.crest) n k = none →
      exec (.memPin p tag) s = after s (pinStep (((rangePages m.pol[p] n k).map (·.1)).foldl (fun m j => cancelDemotion m p j) m) p
        ⟨tag, some (if flg e 28 1 then Tier.berm else Tier.crest), if flg e 28 1 then Tier.berm else Tier.crest, n, k⟩)) ∧
    (TakesForm s p tag 0x52 (fun e => !flg e 28 0) t →
      exec (.memUnpin p tag) s = after s (complete ((((rangePages m.pol[p] n k).filter (fun e => e.2.pin)).map (·.1)).foldl
        (fun m j => modPage m p j (fun g => { g with pin := false })) m) p tag
        (memN (((rangePages m.pol[p] n k).filter (fun e => e.2.pin)).map (·.1)).length)))

/-- Heat and page copies (R45, R51, R53, R54, R66): a heat epoch that has passed halves HEAT of every page and counts COOL, then cool pages move
down; a copy whose page was written since commits nothing and is counted; else FRAME swings to the destination; a Crest read that fails has the clean
copy below take its place.
Completes with its own effect under hypotheses on state and operands alone (the equations name next states: `after` and `withMod` are `.next`):
HEAT_EPOCH, MIGRATION_COMMIT, TIER_READ_FAIL. -/
def Obligations.TierEvents : Prop :=
  ∀ (s : State) (p : Fin 16), s.m.working = true →
    (∀ t, s.m.pol[p].composed = true → s.m.pol[p].nextHeat ≤ max s.m.pol[p].clk t →
      exec (.heatEpoch p t) s = after s (
        let m := tickPol s.m p t
        let per := max 1 (m.pol[p].heatMs * 1000000)
        let k := (m.pol[p].clk - m.pol[p].nextHeat) / per + 1
        spill (coolTier (coolTier (modPol m p (fun q => { q with
          nextHeat := q.nextHeat + k * per, pages := q.pages.mapKV (fun _ pg => coolPage k pg) })) p .crest) p .berm) p)) ∧
    (∀ t, max s.m.pol[p].clk t < s.m.pol[p].nextHeat → exec (.heatEpoch p t) s = after s (tickPol s.m p t)) ∧
    (∀ pg, pg.heat < 65536 → (coolPage 1 pg).heat = pg.heat / 2 ∧ (coolPage 1 pg).cool = min (pg.cool + if pg.heat ≤ 1 then 1 else 0) 65535 ∧
      { coolPage 1 pg with heat := pg.heat, cool := pg.cool } = pg) ∧
    (∀ n hv pg, getPage s.m p n = some pg → (pg.st = .promoting ∨ pg.st = .demoting) → destWritten s.m pg = true → pg.wgen ≠ pg.sample →
      exec (.migrationCommit p n hv) s = after s (spill (kick (memRetry (streamOn (pinc (modPage (dropFrame s.m pg.oTier pg.other) p n
        (fun g => { g with st := .resident, oTier := .none, other := 0, pre := [], forPage := none })) p Ctr.migAbandon 1) p) p) p hv) p)) ∧
    (∀ n hv pg, getPage s.m p n = some pg → pg.st = .demoting → destWritten s.m pg = true → pg.wgen = pg.sample → pg.tier = .crest → pg.oTier = .berm →
      pg.forPage = none →
      exec (.migrationCommit p n hv) s = after s (
        let m2 := modPage (dropFrame s.m pg.tier pg.frame) p n (fun g => { g with
          st := .resident, tier := pg.oTier, frame := pg.other, keyEpoch := s.m.pol[p].keyEpoch, oTier := .none, other := 0, oEpoch := 0
          dirty := g.dirty, pre := [], forPage := none })
        spill (kick (memRetry (streamOn (pinc m2 p (Ctr.migDemote (pairNo pg.tier pg.oTier)) 1) p) p) p hv) p)) ∧
    (∀ n hv pg, getPage s.m p n = some pg → (pg.st = .promoting ∨ pg.st = .demoting) → destWritten s.m pg = true → pg.wgen = pg.sample →
      exec (.migrationCommit p n hv) s = after s (spill (kick (memRetry (streamOn (copyEnds s.m p n pg) p) p) p hv) p)) ∧
    (∀ n hv pg, getPage s.m p n = some pg → destWritten s.m pg = false → exec (.migrationCommit p n hv) s = after s s.m) ∧
    (∀ n tries again pg, getPage s.m p n = some pg → pg.st = .resident → pg.tier = .crest → pg.oTier ≠ .none → tierNo pg.tier < tierNo pg.oTier →
      exec (.tierReadFail p n tries again false) s = after s (kick (pinc (pinc (modPage (dropFrame s.m pg.tier pg.frame) p n (fun g => { g with
        tier := g.oTier, frame := g.other, keyEpoch := g.oEpoch, oTier := .none, other := 0, dirty := false })) p
        (Ctr.migDemote (pairNo pg.tier pg.oTier)) 1) p Ctr.cleanRecover 1) p ⟨[], []⟩)) ∧
    (∀ n tries again pg, getPage s.m p n = some pg → pg.st = .resident → pg.tier = .crest → pg.oTier = .none →
      exec (.tierReadFail p n tries again false) s = after s (kick (pageGone s.m p n) p ⟨[], []⟩))

/-- Flash (R71 to R80, R366): a stripe row closes 10 ms after it began, a short one counted; a write is acknowledged once its row's parity is; a
failed program or erase retires its block; data at the retention interval moves; a reclaimed block is erased and free, a marked one counted, and wear
is levelled; a fenced channel's units move within the room of the others; the key sweep runs while the previous key is in use and no POLDER_RESET
does.
Completes with its own effect under hypotheses on state and operands alone (the equations name next states: `after` and `withMod` are `.next`):
STRIPE_ROW_CLOSE, TOE_WRITE_ACK, PROGRAM_FAILURE, ERASE_FAILURE, RETENTION_RELOCATE, GARBAGE_COLLECTION, REBUILD_COMPLETE, KEY_SWEEP. -/
def Obligations.FlashEvents : Prop :=
  ∀ s : State, s.m.working = true →
    (∀ row t r c, s.m.ftl.rows.find? (fun r => r.id == row) = some r → r.closed = false → r.units ≠ [] → r.start + 10000000 ≤ max s.m.hvl t →
      parityChan (tickHvl s.m t) (rowChans (tickHvl s.m t).ftl r) = some c →
      exec (.stripeRowClose row t) s = after s (
        let m1 := { tickHvl s.m t with ftl := { s.m.ftl with
          rr := c + 1, rows := updWhere s.m.ftl.rows (fun r => r.id == row) (fun r => { r with closed := true, parity := some c }) } }
        if r.units.length < 31 then minc m1 Ctr.shortRows 1 else m1)) ∧
    (∀ u blk x, s.m.ftl.units.get u = some x → canAck s.m u blk = true →
      exec (.toeWriteAck u blk) s = after s (vecUnitAcked (ckUnitAcked (ackUnit s.m u blk) (pn x.pol) u) (pn x.pol) u)) ∧
    (∀ (m : Mod) u blk x, m.ftl.units.get u = some x → ∃ y, (ackUnit m u blk).ftl.units.get u = some y ∧ y.acked = true ∧ y.blk = blk ∧ y.old = none) ∧
    (∀ (m : Mod) u blk x c, m.ftl.units.get u = some x → m.ftl.chans.get x.ch = some c → (blkOf c blk).retired = true → canAck m u blk = false) ∧
    (∀ u blk x c, s.m.ftl.units.get u = some x → x.acked = false → s.m.ftl.chans.get x.ch = some c → (blkOf c blk).retired = false →
      exec (.programFailure u blk) s = after s (retireBlk s.m x.ch blk)) ∧
    (∀ ch blk c, s.m.ftl.chans.get ch = some c → (blkOf c blk).retired = false → exec (.eraseFailure ch blk) s = after s (retireBlk s.m ch blk)) ∧
    (∀ ch blk dst t c, s.m.ftl.chans.get ch = some c → canMove (tickHvl s.m t) ch blk dst = true → blkUnits s.m.ftl ch blk ≠ [] →
      s.m.ftl.retentionDays * 86400 * 1000000000 ≤ (blkOf c blk).age + (max s.m.hvl t - (blkOf c blk).since) →
      exec (.retentionRelocate ch blk dst t) s = after s (minc (relocate (tickHvl s.m t) ch blk dst) (Ctr.retReloc ch) 1)) ∧
    (∀ ch blk dst lvl verify c, s.m.ftl.chans.get ch = some c → canMove s.m ch blk dst = true → ((blkOf c blk).marked = true ∨ marksLeft c = false) →
      (blkOf c blk).suspect = false →
      exec (.garbageCollection ch blk dst lvl verify) s =
        after s (levelWear (if (blkOf c blk).marked then minc (relocate s.m ch blk dst) (Ctr.rdReloc ch) 1 else relocate s.m ch blk dst) ch lvl)) ∧
    (∀ ch blk dst lvl c, s.m.ftl.chans.get ch = some c → canMove s.m ch blk dst = true → ((blkOf c blk).marked = true ∨ marksLeft c = false) →
      (blkOf c blk).suspect = true →
      exec (.garbageCollection ch blk dst lvl false) s = after s (
        let m2 := if (blkOf c blk).marked then minc (relocate s.m ch blk dst) (Ctr.rdReloc ch) 1 else relocate s.m ch blk dst
        levelWear (retireBlk (modChan m2 ch (fun c => putBlk c blk { blkOf c blk with suspect := false })) ch blk) ch lvl)) ∧
    (∀ ch blk dst lvl verify c, s.m.ftl.chans.get ch = some c → (blkOf c blk).marked = false → marksLeft c = true →
      exec (.garbageCollection ch blk dst lvl verify) s = after s s.m) ∧
    (∀ (p : Fin 16) ch, fencedBit s.m.fence.toe ch = true → (toeChans s.m.pol[p]).contains ch = true →
      (∀ x ∈ s.m.ftl.units, x.2.ch ≠ ch ∨ x.2.pol ≠ p.val) →
      exec (.rebuildComplete p ch) s = after s s.m) ∧
    (∀ (p : Fin 16) ch u x, fencedBit s.m.fence.toe ch = true → (toeChans s.m.pol[p]).contains ch = true → s.m.ftl.units = [(u, x)] → x.ch = ch →
      x.pol = p.val → x.acked = true → toeRoom s.m s.m.pol[p] = true →
      exec (.rebuildComplete p ch) s = after s (minc (moveUnit s.m u) (Ctr.reconReads ch) 1)) ∧
    (∀ (p : Fin 16) n, s.m.pol[p].composed = true → s.m.pol[p].resetting = false → bit (keyselOf s.m.pol[p]) 1 = true →
      exec (.keySweep p n) s = after s (sweepEnd (sweepStart (sweepCommit s.m p n) p) p)) ∧
    (∀ (p : Fin 16) n, s.m.pol[p].resetting = true → exec (.keySweep p n) s = after s s.m)

/-- Vector updates (R254 to R256, R260 to R268): a definition places its objects or is refused for want of room; an insert, a delete and a build put
their records on the way and commit when every unit they wrote is acknowledged, which raises the list's version by one; a drop empties a list or
frees the index; a compaction takes its snapshot; a seal is tried again. Vector queries (R270 to R281): a query is ranked by a strip pass over the
centroids; visits start when a queue has waited its batch time; the end of a visit lets the next ones start; at its deadline a query leaves the
queues it waits in.
Completes with its own effect under hypotheses on state and operands alone (the equations name next states: `after` and `withMod` are `.next`):
VEC_QUERY, VEC_INSERT, VEC_DELETE, VEC_DEFINE, VEC_BUILD, VEC_DROP_LIST, VEC_DROP_INDEX, VEC_COMPACT, SEAL_RETRY, BATCH_TIMER, VISIT_END,
QUERY_DEADLINE. -/
def Obligations.VectorCommands : Prop :=
  (∀ (s : State) (p : Fin 16) (tag : Nat) (t : Taken), let m := begun s.m p tag; let e := t.entry
    (∀ blk cents, let d := defOf blk
      TakesForm s p tag 0x43 (fun e => fld e 33 0 2 == 0) t → m.pol[p].sealed = false → idxOf m.pol[p] (fld e 32 0 3) = none → defBad d = false →
      exec (.vecDefine p tag blk cents) s = after s (
        match placeIndex m p (fld e 32 0 3) d with
        | .error tier => quotaEnd m p tag tier
        | .ok (c, l, r, m1) =>
          complete (modVec m1 p (fun v => { v with idx := v.idx.put (fld e 32 0 3) (newIndex d cents c l r) })) p tag (updRes 0 0 0))) ∧
    (∀ recs i x l m1, Takes s p tag 0x41 t → vecList m p e = .ok (i, x, l) → fld e 40 0 32 ≤ 65536 → (listOf x l).next + fld e 40 0 32 ≤ 2 ^ 32 - 1 →
      m.ctr.rd Ctr.itemsLive + pendingItems m + fld e 40 0 32 ≤ 200000000000 →
      insPlan m p i x l tag (fld e 40 0 32) (recsOf x.d (fld e 40 0 32) recs) = .ok m1 →
      exec (.vecInsert p tag recs) s = after s (settleList m1 p i l)) ∧
    (∀ i x l m1, Takes s p tag 0x42 t → vecList m p e = .ok (i, x, l) → fld e 44 0 32 ≤ 65536 →
      (listOf x l).tombs.length + ((listOf x l).upds.filter (fun u => u.kind == .del)).length + 1 ≤ 4096 →
      delPlan m p i x l tag (fld e 40 0 32) (fld e 44 0 32) = .ok m1 →
      exec (.vecDelete p tag) s = after s (settleList m1 p i l)) ∧
    (∀ recs i x l m1, TakesForm s p tag 0x43 (fun e => fld e 33 0 2 == 1) t → vecList m p e = .ok (i, x, l) → fld e 40 0 32 ≤ 16777216 →
      (listOf x l).next + fld e 40 0 32 ≤ 2 ^ 32 - 1 → m.ctr.rd Ctr.itemsLive + pendingItems m + fld e 40 0 32 ≤ 200000000000 →
      buildPlan m p i x l tag (fld e 40 0 32) (recsOf x.d (fld e 40 0 32) recs) = .ok m1 →
      exec (.vecBuild p tag recs) s = after s (settleList m1 p i l)) ∧
    (∀ i x l us m1, TakesForm s p tag 0x43 (fun e => fld e 33 0 2 == 2) t → vecList m p e = .ok (i, x, l) →
      logAppend m p i ⟨l, false, 0, nextVer (listOf x l), 64⟩ = .ok (us, m1) →
      exec (.vecDropList p tag) s =
        after s (settleList (modList m1 p i l (fun y => { y with upds := y.upds ++ [⟨some tag, .drop, us, 0, 0, []⟩] })) p i l)) ∧
    (∀ i x, TakesForm s p tag 0x43 (fun e => fld e 33 0 2 == 3) t → vecIndex m p e = .ok (i, x) → (∀ z ∈ m.pol[p].vec.queries, z.index ≠ i) →
      exec (.vecDropIndex p tag) s = after s (settleDrop (modIdx m p i (fun x => { x with dropping := some tag })) p i)) ∧
    (∀ i x l, Takes s p tag 0x44 t → fld e 36 0 32 ≠ 0xFFFFFFFF → vecList m p e = .ok (i, x, l) →
      exec (.vecCompact p tag) s = after s (settleList (modList (modIdx m p i (fun x => { x with alls := x.alls ++ [⟨tag, [l], true, 0, 0⟩] })) p i l
        (fun y => { y with upds := y.upds ++ [⟨some tag, .compact, [], 0, 0, []⟩] })) p i l)) ∧
    (∀ i x l y, s.m.working = true → s.m.pol[p].vec.idx = [(i, x)] → x.lists = [(l, y)] → exec (.sealRetry p) s = after s (startSeals s.m p i l)) ∧
    (∀ i x l u rest, idxOf m.pol[p] i = some x → (listOf x l).upds = u :: rest → u.kind = .ins → (∀ k ∈ u.units, unitAcked m k = true) →
      commitHead m p i l = (true, startSeals (tell (liveAdd (pinc (modList (modList m p i l (fun y => { y with upds := rest })) p i l
        (fun y => { y with ver := y.ver + 1, committed := y.committed + u.count })) p Ctr.vecInserted u.count) u.count) p u.tag
        (updRes u.first ((listOf x l).ver + 1) u.count)) p i l)) ∧
    (∀ i x l u rest, idxOf m.pol[p] i = some x → (listOf x l).upds = u :: rest → (∃ k ∈ u.units, unitAcked m k = false) → commitHead m p i l = (false, m))) ∧
  (∀ (s : State) (p : Fin 16), s.m.working = true →
    (∀ tag t blk i x, let m := begun s.m p tag; let z := newQuery tag t.entry i (qblockOf x.d blk) m.pol[p].clk
      let cents := (List.range (cdiv (x.d.lists * (x.d.codeBits / 8)) 65536)).map (fun k => x.centPg + k)
      Takes s p tag 0x40 t → vecIndex m p t.entry = .ok (i, x) → queryBad t.entry x (qblockOf x.d blk) = none → (∀ n ∈ cents, pageLost m.pol[p] n = false) →
      exec (.vecQuery p tag blk) s = after s (vecPass (cents.foldl (fun m n => accessPage m p n)
        (modVec m p (fun v => { v with queries := v.queries ++ [z] }))) p z (some i) (cdiv x.d.lists 64 * cdiv x.d.codeBits 4096 * 64) 1)) ∧
    (∀ t, exec (.batchTimer p t) s = after s (startVisits (tickPol s.m p t) p)) ∧
    (∀ m : Mod, (∀ e ∈ m.pol[p].vec.queues, queueReady m.pol[p] e.1 e.2 = false) → startVisits m p = m) ∧
    (∀ m : Mod, m.pol[p].fenced = true → startVisits m p = m) ∧
    (∀ id t bad v x, (tickPol s.m p t).pol[p].vec.visits.find? (fun v => v.id == id) = some v → s.m.pol[p].fenced = false →
      idxOf (tickPol s.m p t).pol[p] v.index = some x → v.queries = [] → v.segs = [] → v.tail = [] →
      (∀ n ∈ [x.listPg + 64 * v.list / 65536] ++ (segTabPage (tickPol s.m p t).pol[p] v.index x v.list).toList ++ (listOf x v.list).tombPage.toList,
        pageLost (tickPol s.m p t).pol[p] n = false) →
      exec (.visitEnd p id t bad) s = after s (settleIndex (vecSweep (startVisits (pinc (pinc (pinc (modVec (tickPol s.m p t) p
        (fun w => { w with visits := w.visits.filter (fun z => z.id != id) })) p Ctr.visits 1) p Ctr.visitQueries 0) p Ctr.scanRecords 0) p) p v.index)
        p v.index)) ∧
    (∀ tag t z d, queryOf (tickPol s.m p t).pol[p] tag = some z → z.deadline = some d → d ≤ max s.m.pol[p].clk t → z.phase = .visiting → z.queued ≠ [] →
      exec (.queryDeadline p tag t) s = after s (settleIndex (roundOver (modVec (modQuery (tickPol s.m p t) p tag
        (fun z => { z with unvisited := true, queued := [] })) p (fun v => { v with
          queues := (v.queues.map (fun e => (e.1, e.2.filter (fun w => w.1 != tag)))).filter (fun e => !e.2.isEmpty) })) p tag) p z.index)) ∧
    (∀ (d : VDef) (l : Nat) (z : VQuery) (it : VItem), z.filter = none → z.maxDist = 0xFFFF →
      (examine d l z it).found = z.found + 1 ∧ ((examine d l z it).heap.length ≤ z.keep) ∧ (examine d l z it).rank = z.rank))

/-- Checkpoints (R286, R294 to R306): CKPT_BEGIN and an export fix their snapshot at the step boundary; CKPT_COMMIT answers when local commit and
replicas are settled; once every chunk is acknowledged the copy commits or the stream is written; a drop removes a checkpoint with its descendants; a
restore loads at its step boundary, and completes when its non-layer state is in; an uncommitted replica is reclaimed after 600 s. Replicas (R297 to
R299): digests are answered with those the store lacks; a lacking chunk is shipped; a chunk, records and a commit record of an open replica are
stored, and a commit whose records match is acknowledged; an acknowledgement settles its target.
Completes with its own effect under hypotheses on state and operands alone (the equations name next states: `after` and `withMod` are `.next`):
CKPT_BEGIN, CKPT_EXPORT, CKPT_COMMIT, CKPT_RESTORE, CKPT_DROP, CKPT_COPY_DONE, REPLICA_RECLAIM, RESTORE_LOAD_DONE, REPL_DIGESTS, REPL_LACKS,
REPL_CHUNK, REPL_RECORDS, REPL_COMMIT, REPL_ACK. -/
def Obligations.CheckpointsAndReplicas : Prop :=
  (∀ (s : State) (p : Fin 16) (tag : Nat) (t : Taken), let m := begun s.m p tag; let e := t.entry
    (∀ idx d, TakesForm s p tag 0x60 (fun e => !flg e 28 2) t → resolve m p e = .ok (idx, d) → d.own ≠ .importing → d.own ≠ .restoring →
      (d.life = .active ∨ d.life = .parked) → ckBusy m.pol[p] d.sid = false → m.pol[p].sec.locked = false → m.pol[p].ck.store.rebuilt = true →
      exec (.ckptBegin p tag) s = after s (atBoundary (cacheUse m p idx) p idx tag .ckpt (fun m => ckBeginNow m p idx tag))) ∧
    (∀ idx d, TakesForm s p tag 0x60 (fun e => flg e 28 2) t → resolve m p e = .ok (idx, d) → d.own ≠ .importing → d.own ≠ .restoring →
      (d.life = .active ∨ d.life = .parked) → m.pol[p].sealed = false → fld e 32 0 6 = 0 → ckBusy m.pol[p] d.sid = false → m.pol[p].sec.locked = false →
      exec (.ckptExport p tag) s = after s (atBoundary (cacheUse m p idx) p idx tag .ckpt (fun m => ckBeginNow m p idx tag))) ∧
    (∀ idx d j, Takes s p tag 0x61 t → resolve m p e = .ok (idx, d) → d.own ≠ .importing → d.own ≠ .restoring → (d.life = .active ∨ d.life = .parked) →
      ckJobOf m.pol[p] d.sid = some j → j.ck.seq = fld e 28 0 32 → j.commit = none → j.host = none →
      exec (.ckptCommit p tag) s = after s (ckFinish (modJob (cacheUse m p idx) p d.sid (fun j => { j with commit := some tag })) p d.sid)) ∧
    (∀ c, Takes s p tag 0x63 t → flg e 32 0 = false → flg e 32 1 = false → m.pol[p].ck.store.rebuilt = true →
      findCk m.pol[p].ck.store (fld e 16 0 64) (fld e 24 0 32) (fld e 28 0 32) = some c → ckJobOf m.pol[p] (fld e 16 0 64) = none →
      m.pol[p].ck.restores = [] → findSid (modCk m p (fun k => { k with
        store := removeCks m.pol[p].ck.store (descendants m.pol[p].ck.store (m.pol[p].ck.store.cks.length + 1) [c]) })) p.val (fld e 16 0 64) = none →
      descendants m.pol[p].ck.store (m.pol[p].ck.store.cks.length + 1) [c] ≠ [] →
      exec (.ckptDrop p tag) s = after s (
        let named := descendants m.pol[p].ck.store (m.pol[p].ck.store.cks.length + 1) [c]
        let st1 := removeCks m.pol[p].ck.store named
        let m1 := modCk m p (fun k => { k with store := st1 })
        complete (storeGauge ((fitStore m1 p).toOption.getD m1) p) p tag
          (rOk (at8 4 ((chunkBytes m.pol[p].ck.store - chunkBytes st1) / 1024 % 2 ^ 32) + at8 12 (named.length % 2 ^ 32))))) ∧
    (∀ idx d stream, Takes s p tag 0x62 t → pumpFenced m p = false → flg e 36 2 = false → resolve m p e = .ok (idx, d) → busyOwn d = false →
      (d.life = .active ∨ d.life = .parked) →
      exec (.ckptRestore p tag stream) s = after s (atBoundary (modCk (setJob (cacheUse m p idx) idx t.job) p (fun c => { c with
        streams := c.streams ++ [(tag, stream)] })) p idx tag .restore (fun m => restoreWaited m p idx tag))) ∧
    (∀ stream, Takes s p tag 0x62 t → pumpFenced m p = false → flg e 36 2 = true → lookupSid m p (fld e 16 0 64) = .ok none →
      findSidAny m (fld e 16 0 64) = none →
      exec (.ckptRestore p tag stream) s = after s (restoreNow m p t stream none (fld e 16 0 64))) ∧
    (∀ sid j st, s.m.working = true → ckJobOf s.m.pol[p] sid = some j → j.localDone = false → j.beginAcked = true → j.lost = false →
      j.refused = none → j.units = [] → j.host = some st →
      exec (.ckptCopyDone p sid) s = after s (
        let img := streamImage (selfId s.m) p.val { j.ck with hosted := true }
        let m1 := hostServe (emit (toeReads (pinc s.m p Ctr.ckptReadBytes j.readBytes) p (j.copying.map (·.1))) (.host st.1 img.length (ofBytes img))) p
          img.length
        ckFinish (modJob (ckOpEnd (modJob m1 p sid (fun j => { j with localDone := true, copying := [], engine := false })) p j) p sid
          (fun j => { j with auto := true })) p sid)) ∧
    (∀ sid j, s.m.working = true → ckJobOf s.m.pol[p] sid = some j → j.localDone = false → j.beginAcked = true → j.lost = false →
      j.refused = none → j.units = [] → j.host = none →
      exec (.ckptCopyDone p sid) s = after s (ckCommitted (modCk (toeReads (pinc s.m p Ctr.ckptReadBytes j.readBytes) p (j.copying.map (·.1))) p (fun c => { c with
        store := { c.store with
          cks := c.store.cks ++ [j.ck], begins := c.store.begins.filter (fun b => b.1 != sid || decide (j.ck.seq ≤ b.2.1)) } })) p sid j j.newBytes)) ∧
    (∀ sid j, s.m.working = true → ckJobOf s.m.pol[p] sid = some j → j.localDone = false → j.beginAcked = true → j.lost = true →
      exec (.ckptCopyDone p sid) s = after s (ckAbandon s.m p sid (rSt stTierLost))) ∧
    (∀ u, s.m.working = true → (∀ x ∈ s.m.pol[p].ck.ins, max s.m.pol[p].clk u < x.last + 600000000000) →
      exec (.replicaReclaim p u) s = after s (tickPol s.m p u)) ∧
    (∀ u x, s.m.working = true → s.m.pol[p].ck.ins = [x] → x.last + 600000000000 ≤ max s.m.pol[p].clk u →
      exec (.replicaReclaim p u) s = after s (replReclaimOne (tickPol s.m p u) p x)) ∧
    (∀ idx r d sl, s.m.working = true → s.m.pol[p].ck.restores.find? (fun r => r.idx == idx && r.owned && !r.loaded && r.adopted.isNone) = some r →
      desc? s.m idx = some d → s.m.pol[p].slots.get r.slot = some sl → s.m.pol[p].sess.get idx = none →
      exec (.restoreLoadDone p idx) s = after s (
        match loadSession s.m p idx r.ck.cls r.ck.sparse sl.man.main r.ck.ctxMax r.ck.tokens (restoreGet s.m p r) r.recs with
        | .error tier => if tier == errWait then beginRoom s.m p else restoreFail (countRefused s.m p tier) p idx r (rQuota tier)
        | .ok none => restoreFail s.m p idx r (rSt stTierLost)
        | .ok (some m1) => restoreLoaded (readChunks m1 p ((r.recs.filter (fun x => x.kind != 5)).map CkRec.digest)) p idx r d))) ∧
  (∀ (s : State) (src srcPol : Nat) (p : Fin 16), s.m.working = true →
    (∀ sid epoch seq ds, let m := unlaned s.m src 0; Arrived s.m src srcPol p.val 0 0x0E → m.pol[p].composed = true →
      (replStore m.pol[p] (replKey src srcPol)).rebuilt = true → m.pol[p].ck.ins = [] →
      exec (.replDigests src srcPol p sid epoch seq ds) s = after s (send (putReplStore (modCk m p (fun c => { c with ins := c.ins ++ [
        { src := replKey src srcPol, sid := sid, epoch := epoch, seq := seq, digests := ds, held := ds, recs := [], last := m.pol[p].clk, retries := []
          failed := false, commit := none }] })) p (replKey src srcPol) (replStore m.pol[p] (replKey src srcPol))) src srcPol p.val
        (.replLacks (ds.map (fun d => !(replStore m.pol[p] (replKey src srcPol)).chunks.any (fun c => c.digest == d)))))) ∧
    (∀ bits, let m := unlaned s.m src 0; Arrived s.m src srcPol p.val 0 0x0F →
      exec (.replLacks src srcPol p bits) s = after s (recvReplLacks m src srcPol p bits)) ∧
    (∀ (m : Mod) bits j r, replJobOf m.pol[p] src srcPol .offered = some (j, r) → (∀ b ∈ bits, b = false) →
      recvReplLacks m src srcPol p bits = replAcked (modRepl m p j.ck.sid src srcPol (fun r => { r with st := .shipping })) src) ∧
    (∀ digest bytes pay x us m2, let m := unlaned s.m src 1; Arrived s.m src srcPol p.val 1 0x21 →
      (m.pol[p].ck.ins.filter (fun x => x.src == replKey src srcPol)).getLast? = some x → payDigest pay = digest →
      (∀ c ∈ (replStore m.pol[p] (replKey src srcPol)).chunks, c.digest ≠ digest) →
      writeStore (putReplStore (modCk m p (fun c => { c with ins := updWhere c.ins (fun y => y == x) (fun y => { y with last := m.pol[p].clk }) })) p
        (replKey src srcPol) { replStore m.pol[p] (replKey src srcPol) with
          chunks := (replStore m.pol[p] (replKey src srcPol)).chunks ++ [{ digest := digest, pay := pay, bytes := bytes, refs := 0 }] }) p = .ok (us, m2) →
      exec (.replChunk src srcPol p digest bytes pay) s = after s (storeGauge m2 p)) ∧
    (∀ sid epoch seq rs x us m2, let m := unlaned s.m src 1; Arrived s.m src srcPol p.val 1 0x22 →
      m.pol[p].ck.ins.find? (fun x => x.src == replKey src srcPol && x.sid == sid && x.epoch == epoch && x.seq == seq) = some x →
      (∀ r ∈ rs, ∃ c ∈ (replStore m.pol[p] (replKey src srcPol)).chunks, c.digest = r.digest) →
      writeStore (putReplStore (modCk m p (fun c => { c with
        ins := updWhere c.ins (fun y => y == x) (fun y => { y with recs := y.recs ++ rs, last := m.pol[p].clk }) })) p (replKey src srcPol)
        (addChunks (replStore m.pol[p] (replKey src srcPol)) rs).2) p = .ok (us, m2) →
      exec (.replRecords src srcPol p sid epoch seq rs) s = after s (storeGauge m2 p)) ∧
    (∀ c x us m2, let m := unlaned s.m src 0; Arrived s.m src srcPol p.val 0 0x10 →
      m.pol[p].ck.ins.find? (fun x => x.src == replKey src srcPol && x.sid == c.sid && x.epoch == c.epoch && x.seq == c.seq) = some x →
      recsDigest x.sid x.epoch x.seq x.recs = c.recsDigest →
      writeStore (modCk m p (fun k => { k with ins := updWhere k.ins (fun y => y == x) (fun y => { y with commit := some c }) })) p = .ok (us, m2) →
      exec (.replCommit src srcPol p c) s = after s (replCommits m2 p)) ∧
    (∀ (m : Mod) x c, storeAcked m p = true → m.pol[p].ck.ins = [x] → x.commit = some c → replCommits m p = replCommitted m p x c) ∧
    (∀ m : Mod, storeAcked m p = false → replCommits m p = m) ∧
    (∀ (m : Mod) x c, m.pol[p].ck.ins = [x] → replCommitted m p x c = send (storeGauge (modCk (putReplStore m p x.src
        { replStore m.pol[p] x.src with cks := (replStore m.pol[p] x.src).cks ++ [{ c with recs := x.recs }] }) p (fun k => { k with ins := [] })) p)
      (x.src / 16) (x.src % 16) p.val (.replAck c.sid c.epoch c.seq false)) ∧
    (∀ sid epoch seq j, let m := unlaned s.m src 0; Arrived s.m src srcPol p.val 0 0x11 → ckJobOf m.pol[p] sid = some j → j.ck.epoch = epoch →
      j.ck.seq = seq → (∃ r ∈ j.repl, r.mod = src ∧ r.pol = srcPol) →
      exec (.replAck src srcPol p sid epoch seq false) s =
        after s (ckFinish (pinc (modRepl m p sid src srcPol (fun r => { r with st := .done })) p Ctr.replCommitted 1) p sid) ∧
      exec (.replAck src srcPol p sid epoch seq true) s = after s (replFail m p sid src srcPol)))

/-- Messages of a transfer (R103 to R109, R392, Table 03-9): an OFFER opens a provisional import or is refused; a page is placed and acknowledged; a
CLAIM at the offered epoch relinquishes the session and is acknowledged, one below the epoch held is answered with an ASSERT; an acknowledged claim
is closed; an ABORT discards the import or takes the session back; a higher ASSERT supersedes the copy here, any other is answered with the holder.
Timers of ownership (R103, R104, R107, Table 03-9): an expired PENDING_OUT lease takes the session back at PEND_EPOCH + 1, journaled before its
ASSERT; a commit window that closes discards the import; an expired forwarding entry is freed; an expired restoring lease owns; a waiting command
ends with PHASE_LOST; each does nothing but take the counter's reading before its time.
Completes with its own effect under hypotheses on state and operands alone (the equations name next states: `after` and `withMod` are `.next`):
LEASE_EXPIRY, COMMIT_WINDOW_CLOSE, RELINQUISHED_EXPIRY, RESTORE_LEASE_EXPIRY, HANDOFF_IN_WAIT_EXPIRY, OFFER, PAGE, PAGE_ACK, CLAIM, CLAIM_ACK,
ABORT, ASSERT, ASSERT_REPLY. -/
def Obligations.OwnershipTransfers : Prop :=
  (∀ (s : State) (src srcPol : Nat) (p : Fin 16), s.m.working = true → let m := unlaned s.m src 0
    (∀ x, Arrived s.m src srcPol p.val 0 0x01 → m.pol[p].composed = true → ¬ (x.cls = .lc ∧ x.sparse = true) → importOf m.pol[p] x.sid = none →
      findSidAny m x.sid = none → exec (.offer src srcPol p x) s = after s (offerFresh m src srcPol p x)) ∧
    (∀ x idx d, Arrived s.m src srcPol p.val 0 0x01 → m.pol[p].composed = true → ¬ (x.cls = .lc ∧ x.sparse = true) → importOf m.pol[p] x.sid = none →
      findSidAny m x.sid = some (idx, d) → d.own = .owned → d.pol = p.val → d.life ≠ .retiring → d.life ≠ .husk →
      exec (.offer src srcPol p x) s =
        after s (if x.epoch ≤ d.epoch then offerRefuse m src srcPol p x stStale else offerOpened m src srcPol p x idx true d)) ∧
    (∀ x hv im m1, let n := unlaned s.m src 1; Arrived s.m src srcPol p.val 1 0x20 → importOf n.pol[p] x.sid = some im → im.h = x.h → im.srcMod = src →
      (∀ y ∈ im.pages, y.pseq ≠ x.pseq) → placePage n p im x = .ok m1 → im.pages.length + 1 < im.expected →
      exec (.page src srcPol p x hv) s = after s (kick (send (modImport (pinc (pinc m1 p Ctr.importPages 1) p Ctr.importBytes x.len) p x.sid
        (fun i => { i with pages := i.pages ++ [x], last := i.last })) src srcPol p.val (.pageAck x.sid x.h x.pseq)) p hv)) ∧
    (∀ sid h pseq idx d, Arrived s.m src srcPol p.val 0 0x07 → findSid m p.val sid = some (idx, d) → d.own = .pendingOut → d.pend = h →
      exec (.pageAck src srcPol p sid h pseq) s = after s (modPol m p (fun q => { q with
        xfers := updWhere q.xfers (fun x => x.idx == idx && !x.acked.contains pseq) (fun x => { x with acked := x.acked ++ [pseq] }) }))) ∧
    (∀ x idx d, Arrived s.m src srcPol p.val 0 0x02 → findSidAny m x.sid = some (idx, d) → desc? m idx = some d → d.pol = p.val → d.own = .pendingOut →
      leaseDue m p idx d = false → d.pend = x.epoch → 0 < x.epoch →
      xferOf (sendOwn (relinquish m p idx x.epoch src srcPol) src srcPol p.val .claimAck x.sid x.epoch).pol[p] idx = none →
      exec (.claim src srcPol p x) s = after s (sendOwn (relinquish m p idx x.epoch src srcPol) src srcPol p.val .claimAck x.sid x.epoch)) ∧
    (∀ x idx d, Arrived s.m src srcPol p.val 0 0x02 → findSidAny m x.sid = some (idx, d) → desc? m idx = some d → d.pol = p.val → d.own = .owned →
      x.epoch < d.epoch → exec (.claim src srcPol p x) s = after s (sendOwn m src srcPol p.val .assert x.sid d.epoch)) ∧
    (∀ x, Arrived s.m src srcPol p.val 0 0x03 →
      exec (.claimAck src srcPol p x) s = after s (modPol m p (fun q => { q with claims := q.claims.filter (fun c => c != (x.sid, x.epoch)) }))) ∧
    (∀ x im, Arrived s.m src srcPol p.val 0 0x04 → importOf m.pol[p] x.sid = some im → im.h = x.epoch → im.srcMod = src →
      exec (.abort src srcPol p x) s =
        after s (discardImport m p x.sid (rSt stPhaseLost) (if peerFailed m src then none else some stPhaseLost))) ∧
    (∀ x idx d, Arrived s.m src srcPol p.val 0 0x04 → importOf m.pol[p] x.sid = none → findSid m p.val x.sid = some (idx, d) → d.own = .pendingOut →
      d.pend = x.epoch → d.peerMod = src → x.status ≠ stStale → exec (.abort src srcPol p x) s = after s (reassertStart m p idx)) ∧
    (∀ x idx d, Arrived s.m src srcPol p.val 0 0x05 → findSidAny m x.sid = some (idx, d) → d.epoch < x.epoch →
      exec (.assert src srcPol p x) s = after s (sendReply (supersede m idx x.epoch src srcPol) src srcPol d.pol x.sid x.epoch 0 false)) ∧
    (∀ x idx d, Arrived s.m src srcPol p.val 0 0x05 → findSidAny m x.sid = some (idx, d) → x.epoch < d.epoch →
      exec (.assert src srcPol p x) s = after s (sendReply m src srcPol d.pol x.sid d.epoch (if d.own == .relinquished then d.peerMod else selfId m)
        (d.own != .relinquished || d.peerMod != src))) ∧
    (∀ x idx d, Arrived s.m src srcPol p.val 0 0x06 → findSidAny m x.sid = some (idx, d) → d.own = .owned → d.epoch < x.epoch → x.ownerValid = true →
      exec (.assertReply src srcPol p x) s = after s (supersede m idx x.epoch x.holder d.pol))) ∧
  (∀ (s : State) (p : Fin 16) (t : Nat), s.m.working = true → let m := tickPol s.m p t
    (∀ idx d, desc? m idx = some d → d.pol = p.val → d.own = .pendingOut → 0 < d.pend → leaseDue m p idx d = true →
      exec (.leaseExpiry p idx t) s = after s (journalFirst (modDesc m idx (fun d => { d with epoch := d.pend + 1, pend := 0 })) idx
        (recOf 3 p.val { d with own := .owned, epoch := d.pend + 1, pend := 0 }) (.reassert p.val idx 0))) ∧
    (∀ idx d, desc? m idx = some d → leaseDue m p idx d = false →
      exec (.leaseExpiry p idx t) s = after s m ∧ exec (.relinquishedExpiry p idx t) s = after s m ∧ exec (.restoreLeaseExpiry p idx t) s = after s m) ∧
    (∀ sid im, importOf m.pol[p] sid = some im → im.arrived + msNs (im.leaseMs - im.guardMs) ≤ m.pol[p].clk →
      exec (.commitWindowClose p sid t) s =
        after s (discardImport m p sid (rSt stPhaseLost) (if peerFailed m im.srcMod then none else some stPhaseLost))) ∧
    (∀ idx d, desc? m idx = some d → d.pol = p.val → d.own = .relinquished → leaseDue m p idx d = true → (d.life ≠ .husk ∨ d.famRefs = 0) →
      exec (.relinquishedExpiry p idx t) s = after s (journalFree (freeDesc (modPol m p (fun q => { q with
        sess := q.sess.del idx, cache := q.cache.filter (fun c => c.1 != idx) })) p idx) idx d)) ∧
    (∀ idx d, desc? m idx = some d → d.pol = p.val → d.own = .restoring → leaseDue m p idx d = true →
      exec (.restoreLeaseExpiry p idx t) s = after s (restoreOwn m p idx)) ∧
    (∀ tag w, m.pol[p].inWaits.find? (fun w => w.tag == tag) = some w → w.deadline ≤ m.pol[p].clk →
      exec (.handoffInWaitExpiry p tag t) s =
        after s (complete (modPol m p (fun q => { q with inWaits := q.inWaits.filter (fun x => x.tag != tag) })) p tag (rSt stPhaseLost))))

/-- The journal and its peers (R110 to R115, R93, R472): records enter their sender's shadow directory and are acknowledged; an acknowledgement
releases the records up to it and what waited for them; coalesced records are sent; a silent buddy degrades, and nothing waits for it then; a silent
peer and a NOTICE of the peer's serial declare it failed once; a fetched entry of a relinquished session serves again.
Completes with its own effect under hypotheses on state and operands alone (the equations name next states: `after` and `withMod` are `.next`):
JOURNAL, JOURNAL_ACK, JOURNAL_FLUSH, BUDDY_DEGRADE, PEER_FAILURE_DECLARED, NOTICE, DIR_REFETCH. -/
def Obligations.JournalAndPeers : Prop :=
  ∀ s : State, s.m.working = true →
    (∀ src srcPol p recs, Arrived s.m src srcPol (p : Fin 16).val 0 0x08 →
      exec (.journal src srcPol p recs) s = after s (recvJournal (unlaned s.m src 0) src recs)) ∧
    (∀ (pr : Peer) (r : JRec), (r.jseq ≤ pr.heldJseq → shadowRec pr r = pr) ∧ (pr.heldJseq < r.jseq → (shadowRec pr r).heldJseq = r.jseq)) ∧
    (∀ src jseq hv, Arrived s.m src 0 0 0 0x09 → (unlaned s.m src 0).jr.buddy = some src →
      exec (.journalAck src jseq hv) s = after s (kickAll (recvJournalAck (unlaned s.m src 0) src jseq) hv)) ∧
    (∀ t, exec (.journalFlush t) s = after s ((s.m.jr.q.filter (fun x => !x.sent)).foldl flushOne (tickHvl s.m t))) ∧
    (∀ t, s.m.jr.down = false → (∃ x ∈ s.m.jr.q, x.sent = true) → max s.m.jr.lastAck s.m.jr.waitSince + msNs s.m.own.degradeMs ≤ max s.m.hvl t →
      exec (.buddyDegrade t) s = after s (s.m.jr.acts.foldl (fun m a => runAct m a.1 a.2)
        { tickHvl s.m t with jr := { s.m.jr with down := true, resentTo := none, downAt := max s.m.hvl t, acts := [] } })) ∧
    (∀ t, s.m.jr.down = true → exec (.buddyDegrade t) s = after s (tickHvl s.m t)) ∧
    (∀ src t pr e, s.m.peers.get src = some pr → pr.expectSince = some e → pr.failed = false →
      max e (pr.lastFrame.getD 0) + msNs s.m.own.peerDeadMs ≤ max s.m.hvl t →
      exec (.peerFailureDeclared src t) s = after s (peerDown s.m (declareFailed (tickHvl s.m t) src) src)) ∧
    (∀ (m : Mod) src pr kind n, m.peers.get src = some pr → 1 ≤ kind → kind ≤ 3 → pr.failed = false → pr.expectSince ≠ none → pr.serial = some n →
      recvNotice m src kind n = declareFailed { m with peers := m.peers.upd src (fun x => { x with noticed := true }) } src ∧
      recvNotice m src kind (n + 1) = m ∧ recvNotice m src 4 n = m) ∧
    (∀ (m : Mod) src pr kind n, m.peers.get src = some pr → pr.expectSince = none → recvNotice m src kind n = m) ∧
    (∀ port w, s.m.net.rx = [(port, w)] → w.ftype = 2 → w.check = true →
      exec .notice s = after s (
        let m1 := { s.m with net := { s.m.net with rx := [] } }
        peerDown m1 (recvNotice m1 w.src w.kind w.serial) w.src)) ∧
    (∀ idx d, s.m.refetch.contains idx = true → s.m.pol[pn d.pol].sess.get idx = none → d.own = .relinquished →
      exec (.dirRefetch idx d) s = after s (
        let m0 := minc { s.m with refetch := s.m.refetch.filter (fun i => i != idx) } Ctr.dirRefetch 1
        let m1 := { m0 with dir := m0.dir.put idx d }
        modDesc m1 idx (fun x => { x with famRefs := countFamily m1 idx d, life := if x.life == .active then .parked else x.life })))

/-- Culvert (R466, R468, R471): a DATA frame whose check holds is kept once, in order, its message delivered when complete, and every sixteenth is
acknowledged; an ACK releases the frames it names; a frame not acknowledged in its time is sent again with its timer doubled up to 10 ms; the oldest
frame received is acknowledged within 10 µs; an idle lane sends KEEPALIVE. Transfer keys (R375, R376): a quote that R375 refuses is counted and no
key is agreed; a first hello is answered with a ciphertext and installs the shared secret as the next generation; a key of 23 h starts an exchange,
one of 24 h is zeroized, and a previous key goes by its deadline.
Completes with its own effect under hypotheses on state and operands alone (the equations name next states: `after` and `withMod` are `.next`):
CULVERT_DATA, CULVERT_ACK, CULVERT_ACK_TIMER, CULVERT_RESEND_TIMER, KEEPALIVE_TIMER, KEEPALIVE, TK_HELLO, TK_RENEW, TK_EXPIRE, TK_PREVIOUS_DISCARD. -/
def Obligations.CulvertAndTransferKeys : Prop :=
  (∀ s : State, s.m.working = true →
    (∀ t ft port w m, takeRx (tickHvl s.m t) ft = some ((port, w), m) → w.check = false →
      (ft = 0 → exec (.culvertData t) s = after s m) ∧ (ft = 1 → exec (.culvertAck t) s = after s m)) ∧
    (∀ t port w m l n, takeRx (tickHvl s.m t) 0 = some ((port, w), m) → w.check = true → w.ty ≠ 0x08 →
      laneOf (heard m w.src) (laneKey w.src (w.lane % 2)) = l → unwrap l.rxNext w.psn = some n → l.rxSeen.contains n = false →
      exec (.culvertData t) s = after s (
        let l1 := slide { l with
          sinceAck := l.sinceAck + 1, oldest := some (l.oldest.getD (heard m w.src).hvl), ece := l.ece || w.ce, rxSeen := l.rxSeen ++ [n]
          rxFrames := l.rxFrames ++
            [RxFrame.mk n ((unwrap l.rxMsg w.msg).getD w.msg) w.seg w.last w.ty w.srcPol w.dstPol port w.sealed w.keygen w.auth] } (l.rxSeen.length + 1)
        let m2 := putLane (heard m w.src) (laneKey w.src (w.lane % 2)) l1
        deliverN (if 16 ≤ l1.sinceAck then sendAck m2 (laneKey w.src (w.lane % 2)) else m2) w.src (laneKey w.src (w.lane % 2)) (l1.rxFrames.length + 1))) ∧
    (∀ t port w m l n, takeRx (tickHvl s.m t) 0 = some ((port, w), m) → w.check = true → w.ty ≠ 0x08 →
      laneOf (heard m w.src) (laneKey w.src (w.lane % 2)) = l → unwrap l.rxNext w.psn = some n → l.rxSeen.contains n = true → l.sinceAck < 15 →
      exec (.culvertData t) s = after s (deliverN (putLane (heard m w.src) (laneKey w.src (w.lane % 2)) { l with
        sinceAck := l.sinceAck + 1, oldest := some (l.oldest.getD (heard m w.src).hvl), ece := l.ece || w.ce }) w.src
        (laneKey w.src (w.lane % 2)) (l.rxFrames.length + 1))) ∧
    (∀ t port w m l ap, takeRx (tickHvl s.m t) 1 = some ((port, w), m) → w.check = true → w.ece = false →
      laneOf (heard m w.src) (laneKey w.src (w.lane % 2)) = l → l.unacked ≠ [] →
      unwrap (((l.unacked.head?).map CulFrame.psn).getD l.nextPsn) w.ackPsn = some ap → ap ≤ l.nextPsn → (∀ f ∈ l.unacked, f.psn < ap) →
      exec (.culvertAck t) s = after s (pumpAll (replAcked (putLane (heard m w.src) (laneKey w.src (w.lane % 2)) { l with
        unacked := [], win := if l.grow < ap then min (laneWin (laneKey w.src (w.lane % 2))) (l.win + 1) else l.win
        grow := if l.grow < ap then l.nextPsn else l.grow }) w.src) (laneKey w.src (w.lane % 2)))) ∧
    (∀ src lane t o, (laneOf s.m (laneKey src (lane % 2))).oldest = some o →
      exec (.culvertAckTimer src lane t) s =
        after s (if o + 10000 ≤ max s.m.hvl t then sendAck (tickHvl s.m t) (laneKey src (lane % 2)) else tickHvl s.m t)) ∧
    (∀ dst lane psn t f, (laneOf s.m (laneKey dst (lane % 2))).unacked.find? (fun f => f.psn == psn) = some f → f.sentAt + f.timer ≤ max s.m.hvl t →
      exec (.culvertResendTimer dst lane psn t) s =
        after s (resend (tickHvl s.m t) (laneKey dst (lane % 2)) [psn] (fun x => min 10000000 (2 * x)))) ∧
    (∀ dst lane t l, s.m.net.lanes.get (laneKey dst (lane % 2)) = some l → l.unacked = [] → l.queue = [] →
      l.lastTx + msNs s.m.own.peerDeadMs / 4 ≤ max s.m.hvl t →
      exec (.keepaliveTimer dst lane t) s =
        after s (send (putLane (tickHvl s.m t) (laneKey dst (lane % 2)) { l with lastTx := max s.m.hvl t }) dst 0 0 .keepalive)) ∧
    (∀ src, Arrived s.m src 0 0 0 0x0D → exec (.keepalive src) s = after s (heard (unlaned s.m src 0) src))) ∧
  (∀ (s : State) (p : Fin 16), s.m.working = true →
    (∀ src srcPol q ct ok, let m := unlaned s.m src 0; Arrived s.m src srcPol p.val 0 0x0C → m.pol[p].composed = true → quoteOk m p q ok = false →
      exec (.tkHello src srcPol p q ct ok) s =
        after s (pinc (putTk m p src srcPol { tkOf m p src srcPol with helloSent := false }) p Ctr.tkRefused 1)) ∧
    (∀ src srcPol q, let m := unlaned s.m src 0; Arrived s.m src srcPol p.val 0 0x0C → m.pol[p].composed = true → quoteOk m p q true = true →
      (tkOf m p src srcPol).helloSent = false →
      exec (.tkHello src srcPol p q 0 true) s = after s (
        let e := Config.kemEncap q.kemKey (takeRandom m).1
        tkInstall (sendHello s.fuses (takeRandom m).2 p src srcPol e.1) p src srcPol e.2)) ∧
    (∀ mod pol t, s.m.pol[p].composed = true → s.m.pol[p].sealed = true → s.m.front.modId.isSome = true → (tkOf s.m p mod pol).live = true →
      (tkOf s.m p mod pol).helloSent = false → (tkOf s.m p mod pol).since + 82800000000000 ≤ max s.m.hvl t →
      exec (.tkRenew p mod pol t) s =
        after s (sendHello s.fuses (putTk (tickHvl s.m t) p mod pol { tkOf s.m p mod pol with helloSent := true }) p mod pol 0)) ∧
    (∀ mod pol t, (tkOf s.m p mod pol).live = true → (tkOf s.m p mod pol).since + 86400000000000 ≤ max s.m.hvl t → s.m.pol[p].ck.jobs = [] →
      exec (.tkExpire p mod pol t) s =
        after s (putTk (tickHvl s.m t) p mod pol { tkOf s.m p mod pol with live := false, key := 0, prev := none, prevKey := 0 })) ∧
    (∀ mod pol t, (tkOf s.m p mod pol).since + 86400000000000 > max s.m.hvl t → (tkOf s.m p mod pol).sent < 2 ^ 32 → (tkOf s.m p mod pol).recv < 2 ^ 32 →
      exec (.tkExpire p mod pol t) s = after s (tickHvl s.m t)) ∧
    (∀ mod pol t d, (tkOf s.m p mod pol).prev = some d → d ≤ max s.m.hvl t →
      exec (.tkPreviousDiscard p mod pol t) s =
        after s (putTk (tickHvl s.m t) p mod pol { tkOf s.m p mod pol with prev := none, prevKey := 0 })))

/-- Handles (R86, R90): a command whose POLDER field is not its ring's, or whose GEN is not its entry's, ends with BAD_CMD at byte 16; every command
on a session ends so; freeing an entry raises its GEN and changes no other entry, so that the handle it had resolves no longer; a new session takes a
free entry, which keeps its GEN. -/
def Obligations.FreedHandlesAreRefused : Prop :=
  (∀ (m : Mod) (p : Fin 16) (e : Block), fld e 16 24 4 ≠ p.val → resolve m p e = .error (rBad 16)) ∧
  (∀ (m : Mod) (idx : Nat) (d : Desc), desc? m idx = some d →
    desc? (freeEntry m idx) idx = some (Desc.blank ((d.gen + 1) % 2 ^ 32)) ∧ (∀ j, j ≠ idx → desc? (freeEntry m idx) j = desc? m j)) ∧
  (∀ (m : Mod) (p : Fin 16) (e : Block) (d : Desc), let idx := fld e 16 0 24
    desc? m idx = some d → d.gen < 2 ^ 32 → fld e 20 0 32 = d.gen → m.refetch.contains idx = false → m.dirGone.contains idx = false →
    ∃ r, resolve (freeEntry m idx) p e = .error r ∧ r.status = stBadCmd) ∧
  (∀ (m : Mod) (p : Fin 16) (e : Block) (d : Desc), desc? m (fld e 16 0 24) = some d → fld e 16 24 4 = p.val → m.refetch.contains (fld e 16 0 24) = false →
    m.dirGone.contains (fld e 16 0 24) = false → d.gen ≠ fld e 20 0 32 → d.own ≠ .relinquished → resolve m p e = .error (rBad 16)) ∧
  (∀ (s : State) (p : Fin 16) (tag : Nat) (t : Taken) (x : Instr × Nat),
    x ∈ [(.sessPark p tag, 0x11), (.sessFork p tag, 0x14), (.sessRetire p tag, 0x15), (.sessMove p tag, 0x13), (.sessHandoffOut p tag, 0x16),
      (.genSpecConf p tag, 0x23), (.ckptCommit p tag, 0x61)] →
    Takes s p tag x.2 t → resolve (begun s.m p tag) p t.entry = .error (rBad 16) →
    exec x.1 s = after s (complete (begun s.m p tag) p tag (rBad 16))) ∧
  (∀ (m m1 : Mod) (mk : Nat → Desc) (i : Nat), takeEntry m mk = some (i, m1) →
    (∀ d, desc? m i = some d → d.own = .none ∧ desc? m1 i = some { mk i with gen := d.gen }) ∧ (∀ j, j ≠ i → desc? m1 j = desc? m j)) ∧
  (∀ idx pol gen : Nat, idx < 2 ^ 24 → pol < 16 → gen < 2 ^ 32 →
    handleOf idx pol gen % 2 ^ 24 = idx ∧ handleOf idx pol gen / 2 ^ 24 % 16 = pol ∧ handleOf idx pol gen / 2 ^ 32 = gen)

/-- Sampling (R237, R239): a row's distribution keeps at most TOP_K tokens where TOP_K is not 0, each a token of the row below VOCAB; at temperature
0 the first kept token is taken and no word is drawn; a drawn token is always one of those kept; and a step's tokens are cut to a prefix that ends at
the first token that ends the request, never beyond MAX_TOKENS. -/
def Obligations.SamplingStaysWithinTheRow : Prop :=
  (∀ (n vocab : Nat) (s : SampPage) (step : Option Nat) (hist : List Nat) (row : List F32) (d : Dist), distribution n vocab s step hist row = some d →
    (∀ e ∈ d.kept, e.1 < vocab ∧ e.1 < row.length) ∧ (s.pr.topK ≠ 0 → d.kept.length ≤ s.pr.topK)) ∧
  (∀ (m : Mod) (p : Fin 16) (d : Dist), d.greedy = true → sample m p d = (some ((d.kept.head?.map (·.1)).getD 0), m)) ∧
  (∀ (m m1 : Mod) (p : Fin 16) (d : Dist) (t : Nat), d.kept ≠ [] → sample m p d = (some t, m1) → ∃ e ∈ d.kept, e.1 = t) ∧
  (∀ (eos : Nat) (stops : List (List Nat)) (left : Nat) (sofar : List Nat) (l : List (Nat × Nat × Bool)), 1 ≤ left →
    (cut eos stops left sofar l).length ≤ left ∧ (cut eos stops left sofar l).map Emit.tok <+: l.map (·.1) ∧
    (∀ x ∈ (cut eos stops left sofar l).dropLast, x.last = none))
end

