-- ==== Sys2Proof/Laws/State.lean ====
section
/-! SUPPORT. What each named update of the module leaves in each field: one lemma per field per update, so that no later proof unfolds a record update. -/

namespace Sys2Proof.Machine

@[simp] theorem modPol_working (m : Mod) (p : Fin 16) (f : Polder → Polder) : (modPol m p f).working = m.working := rfl
@[simp] theorem modPol_hvl (m : Mod) (p : Fin 16) (f : Polder → Polder) : (modPol m p f).hvl = m.hvl := rfl
@[simp] theorem modPol_front (m : Mod) (p : Fin 16) (f : Polder → Polder) : (modPol m p f).front = m.front := rfl
@[simp] theorem modPol_fence (m : Mod) (p : Fin 16) (f : Polder → Polder) : (modPol m p f).fence = m.fence := rfl
@[simp] theorem modPol_dir (m : Mod) (p : Fin 16) (f : Polder → Polder) : (modPol m p f).dir = m.dir := rfl
@[simp] theorem modPol_sidNext (m : Mod) (p : Fin 16) (f : Polder → Polder) : (modPol m p f).sidNext = m.sidNext := rfl
@[simp] theorem modPol_jr (m : Mod) (p : Fin 16) (f : Polder → Polder) : (modPol m p f).jr = m.jr := rfl
@[simp] theorem modPol_own (m : Mod) (p : Fin 16) (f : Polder → Polder) : (modPol m p f).own = m.own := rfl
@[simp] theorem modPol_peers (m : Mod) (p : Fin 16) (f : Polder → Polder) : (modPol m p f).peers = m.peers := rfl
@[simp] theorem modPol_ftl (m : Mod) (p : Fin 16) (f : Polder → Polder) : (modPol m p f).ftl = m.ftl := rfl
@[simp] theorem modPol_net (m : Mod) (p : Fin 16) (f : Polder → Polder) : (modPol m p f).net = m.net := rfl
@[simp] theorem modPol_entropyOk (m : Mod) (p : Fin 16) (f : Polder → Polder) : (modPol m p f).entropyOk = m.entropyOk := rfl
@[simp] theorem modPol_ctr (m : Mod) (p : Fin 16) (f : Polder → Polder) : (modPol m p f).ctr = m.ctr := rfl
@[simp] theorem modPol_refetch (m : Mod) (p : Fin 16) (f : Polder → Polder) : (modPol m p f).refetch = m.refetch := rfl
@[simp] theorem modPol_dirGone (m : Mod) (p : Fin 16) (f : Polder → Polder) : (modPol m p f).dirGone = m.dirGone := rfl
@[simp] theorem modPol_out (m : Mod) (p : Fin 16) (f : Polder → Polder) : (modPol m p f).out = m.out := rfl
@[simp] theorem modPol_free (m : Mod) (p : Fin 16) (f : Polder → Polder) : (modPol m p f).free = m.free := rfl
@[simp] theorem modPol_sys (m : Mod) (p : Fin 16) (f : Polder → Polder) : (modPol m p f).sys = m.sys := rfl

@[simp] theorem pinc_working (m : Mod) (p : Fin 16) (k n : Nat) : (pinc m p k n).working = m.working := rfl
@[simp] theorem pinc_hvl (m : Mod) (p : Fin 16) (k n : Nat) : (pinc m p k n).hvl = m.hvl := rfl
@[simp] theorem pinc_front (m : Mod) (p : Fin 16) (k n : Nat) : (pinc m p k n).front = m.front := rfl
@[simp] theorem pinc_fence (m : Mod) (p : Fin 16) (k n : Nat) : (pinc m p k n).fence = m.fence := rfl
@[simp] theorem pinc_dir (m : Mod) (p : Fin 16) (k n : Nat) : (pinc m p k n).dir = m.dir := rfl
@[simp] theorem pinc_sidNext (m : Mod) (p : Fin 16) (k n : Nat) : (pinc m p k n).sidNext = m.sidNext := rfl
@[simp] theorem pinc_jr (m : Mod) (p : Fin 16) (k n : Nat) : (pinc m p k n).jr = m.jr := rfl
@[simp] theorem pinc_own (m : Mod) (p : Fin 16) (k n : Nat) : (pinc m p k n).own = m.own := rfl
@[simp] theorem pinc_peers (m : Mod) (p : Fin 16) (k n : Nat) : (pinc m p k n).peers = m.peers := rfl
@[simp] theorem pinc_ftl (m : Mod) (p : Fin 16) (k n : Nat) : (pinc m p k n).ftl = m.ftl := rfl
@[simp] theorem pinc_net (m : Mod) (p : Fin 16) (k n : Nat) : (pinc m p k n).net = m.net := rfl
@[simp] theorem pinc_entropyOk (m : Mod) (p : Fin 16) (k n : Nat) : (pinc m p k n).entropyOk = m.entropyOk := rfl
@[simp] theorem pinc_ctr (m : Mod) (p : Fin 16) (k n : Nat) : (pinc m p k n).ctr = m.ctr := rfl
@[simp] theorem pinc_refetch (m : Mod) (p : Fin 16) (k n : Nat) : (pinc m p k n).refetch = m.refetch := rfl
@[simp] theorem pinc_dirGone (m : Mod) (p : Fin 16) (k n : Nat) : (pinc m p k n).dirGone = m.dirGone := rfl
@[simp] theorem pinc_out (m : Mod) (p : Fin 16) (k n : Nat) : (pinc m p k n).out = m.out := rfl
@[simp] theorem pinc_free (m : Mod) (p : Fin 16) (k n : Nat) : (pinc m p k n).free = m.free := rfl
@[simp] theorem pinc_sys (m : Mod) (p : Fin 16) (k n : Nat) : (pinc m p k n).sys = m.sys := rfl

@[simp] theorem modSq_working (m : Mod) (p s : Fin 16) (f : Sq → Sq) : (modSq m p s f).working = m.working := rfl
@[simp] theorem modSq_hvl (m : Mod) (p s : Fin 16) (f : Sq → Sq) : (modSq m p s f).hvl = m.hvl := rfl
@[simp] theorem modSq_front (m : Mod) (p s : Fin 16) (f : Sq → Sq) : (modSq m p s f).front = m.front := rfl
@[simp] theorem modSq_fence (m : Mod) (p s : Fin 16) (f : Sq → Sq) : (modSq m p s f).fence = m.fence := rfl
@[simp] theorem modSq_dir (m : Mod) (p s : Fin 16) (f : Sq → Sq) : (modSq m p s f).dir = m.dir := rfl
@[simp] theorem modSq_sidNext (m : Mod) (p s : Fin 16) (f : Sq → Sq) : (modSq m p s f).sidNext = m.sidNext := rfl
@[simp] theorem modSq_jr (m : Mod) (p s : Fin 16) (f : Sq → Sq) : (modSq m p s f).jr = m.jr := rfl
@[simp] theorem modSq_own (m : Mod) (p s : Fin 16) (f : Sq → Sq) : (modSq m p s f).own = m.own := rfl
@[simp] theorem modSq_peers (m : Mod) (p s : Fin 16) (f : Sq → Sq) : (modSq m p s f).peers = m.peers := rfl
@[simp] theorem modSq_ftl (m : Mod) (p s : Fin 16) (f : Sq → Sq) : (modSq m p s f).ftl = m.ftl := rfl
@[simp] theorem modSq_net (m : Mod) (p s : Fin 16) (f : Sq → Sq) : (modSq m p s f).net = m.net := rfl
@[simp] theorem modSq_entropyOk (m : Mod) (p s : Fin 16) (f : Sq → Sq) : (modSq m p s f).entropyOk = m.entropyOk := rfl
@[simp] theorem modSq_ctr (m : Mod) (p s : Fin 16) (f : Sq → Sq) : (modSq m p s f).ctr = m.ctr := rfl
@[simp] theorem modSq_refetch (m : Mod) (p s : Fin 16) (f : Sq → Sq) : (modSq m p s f).refetch = m.refetch := rfl
@[simp] theorem modSq_dirGone (m : Mod) (p s : Fin 16) (f : Sq → Sq) : (modSq m p s f).dirGone = m.dirGone := rfl
@[simp] theorem modSq_out (m : Mod) (p s : Fin 16) (f : Sq → Sq) : (modSq m p s f).out = m.out := rfl
@[simp] theorem modSq_free (m : Mod) (p s : Fin 16) (f : Sq → Sq) : (modSq m p s f).free = m.free := rfl
@[simp] theorem modSq_sys (m : Mod) (p s : Fin 16) (f : Sq → Sq) : (modSq m p s f).sys = m.sys := rfl

@[simp] theorem modCq_working (m : Mod) (p c : Fin 16) (f : Cq → Cq) : (modCq m p c f).working = m.working := rfl
@[simp] theorem modCq_hvl (m : Mod) (p c : Fin 16) (f : Cq → Cq) : (modCq m p c f).hvl = m.hvl := rfl
@[simp] theorem modCq_front (m : Mod) (p c : Fin 16) (f : Cq → Cq) : (modCq m p c f).front = m.front := rfl
@[simp] theorem modCq_fence (m : Mod) (p c : Fin 16) (f : Cq → Cq) : (modCq m p c f).fence = m.fence := rfl
@[simp] theorem modCq_dir (m : Mod) (p c : Fin 16) (f : Cq → Cq) : (modCq m p c f).dir = m.dir := rfl
@[simp] theorem modCq_sidNext (m : Mod) (p c : Fin 16) (f : Cq → Cq) : (modCq m p c f).sidNext = m.sidNext := rfl
@[simp] theorem modCq_jr (m : Mod) (p c : Fin 16) (f : Cq → Cq) : (modCq m p c f).jr = m.jr := rfl
@[simp] theorem modCq_own (m : Mod) (p c : Fin 16) (f : Cq → Cq) : (modCq m p c f).own = m.own := rfl
@[simp] theorem modCq_peers (m : Mod) (p c : Fin 16) (f : Cq → Cq) : (modCq m p c f).peers = m.peers := rfl
@[simp] theorem modCq_ftl (m : Mod) (p c : Fin 16) (f : Cq → Cq) : (modCq m p c f).ftl = m.ftl := rfl
@[simp] theorem modCq_net (m : Mod) (p c : Fin 16) (f : Cq → Cq) : (modCq m p c f).net = m.net := rfl
@[simp] theorem modCq_entropyOk (m : Mod) (p c : Fin 16) (f : Cq → Cq) : (modCq m p c f).entropyOk = m.entropyOk := rfl
@[simp] theorem modCq_ctr (m : Mod) (p c : Fin 16) (f : Cq → Cq) : (modCq m p c f).ctr = m.ctr := rfl
@[simp] theorem modCq_refetch (m : Mod) (p c : Fin 16) (f : Cq → Cq) : (modCq m p c f).refetch = m.refetch := rfl
@[simp] theorem modCq_dirGone (m : Mod) (p c : Fin 16) (f : Cq → Cq) : (modCq m p c f).dirGone = m.dirGone := rfl
@[simp] theorem modCq_out (m : Mod) (p c : Fin 16) (f : Cq → Cq) : (modCq m p c f).out = m.out := rfl
@[simp] theorem modCq_free (m : Mod) (p c : Fin 16) (f : Cq → Cq) : (modCq m p c f).free = m.free := rfl
@[simp] theorem modCq_sys (m : Mod) (p c : Fin 16) (f : Cq → Cq) : (modCq m p c f).sys = m.sys := rfl

@[simp] theorem modSess_working (m : Mod) (p : Fin 16) (idx : Nat) (f : Sess → Sess) : (modSess m p idx f).working = m.working := rfl
@[simp] theorem modSess_hvl (m : Mod) (p : Fin 16) (idx : Nat) (f : Sess → Sess) : (modSess m p idx f).hvl = m.hvl := rfl
@[simp] theorem modSess_front (m : Mod) (p : Fin 16) (idx : Nat) (f : Sess → Sess) : (modSess m p idx f).front = m.front := rfl
@[simp] theorem modSess_fence (m : Mod) (p : Fin 16) (idx : Nat) (f : Sess → Sess) : (modSess m p idx f).fence = m.fence := rfl
@[simp] theorem modSess_dir (m : Mod) (p : Fin 16) (idx : Nat) (f : Sess → Sess) : (modSess m p idx f).dir = m.dir := rfl
@[simp] theorem modSess_sidNext (m : Mod) (p : Fin 16) (idx : Nat) (f : Sess → Sess) : (modSess m p idx f).sidNext = m.sidNext := rfl
@[simp] theorem modSess_jr (m : Mod) (p : Fin 16) (idx : Nat) (f : Sess → Sess) : (modSess m p idx f).jr = m.jr := rfl
@[simp] theorem modSess_own (m : Mod) (p : Fin 16) (idx : Nat) (f : Sess → Sess) : (modSess m p idx f).own = m.own := rfl
@[simp] theorem modSess_peers (m : Mod) (p : Fin 16) (idx : Nat) (f : Sess → Sess) : (modSess m p idx f).peers = m.peers := rfl
@[simp] theorem modSess_ftl (m : Mod) (p : Fin 16) (idx : Nat) (f : Sess → Sess) : (modSess m p idx f).ftl = m.ftl := rfl
@[simp] theorem modSess_net (m : Mod) (p : Fin 16) (idx : Nat) (f : Sess → Sess) : (modSess m p idx f).net = m.net := rfl
@[simp] theorem modSess_entropyOk (m : Mod) (p : Fin 16) (idx : Nat) (f : Sess → Sess) : (modSess m p idx f).entropyOk = m.entropyOk := rfl
@[simp] theorem modSess_ctr (m : Mod) (p : Fin 16) (idx : Nat) (f : Sess → Sess) : (modSess m p idx f).ctr = m.ctr := rfl
@[simp] theorem modSess_refetch (m : Mod) (p : Fin 16) (idx : Nat) (f : Sess → Sess) : (modSess m p idx f).refetch = m.refetch := rfl
@[simp] theorem modSess_dirGone (m : Mod) (p : Fin 16) (idx : Nat) (f : Sess → Sess) : (modSess m p idx f).dirGone = m.dirGone := rfl
@[simp] theorem modSess_out (m : Mod) (p : Fin 16) (idx : Nat) (f : Sess → Sess) : (modSess m p idx f).out = m.out := rfl
@[simp] theorem modSess_free (m : Mod) (p : Fin 16) (idx : Nat) (f : Sess → Sess) : (modSess m p idx f).free = m.free := rfl
@[simp] theorem modSess_sys (m : Mod) (p : Fin 16) (idx : Nat) (f : Sess → Sess) : (modSess m p idx f).sys = m.sys := rfl

@[simp] theorem minc_working (m : Mod) (k n : Nat) : (minc m k n).working = m.working := rfl
@[simp] theorem minc_hvl (m : Mod) (k n : Nat) : (minc m k n).hvl = m.hvl := rfl
@[simp] theorem minc_front (m : Mod) (k n : Nat) : (minc m k n).front = m.front := rfl
@[simp] theorem minc_fence (m : Mod) (k n : Nat) : (minc m k n).fence = m.fence := rfl
@[simp] theorem minc_dir (m : Mod) (k n : Nat) : (minc m k n).dir = m.dir := rfl
@[simp] theorem minc_sidNext (m : Mod) (k n : Nat) : (minc m k n).sidNext = m.sidNext := rfl
@[simp] theorem minc_jr (m : Mod) (k n : Nat) : (minc m k n).jr = m.jr := rfl
@[simp] theorem minc_own (m : Mod) (k n : Nat) : (minc m k n).own = m.own := rfl
@[simp] theorem minc_peers (m : Mod) (k n : Nat) : (minc m k n).peers = m.peers := rfl
@[simp] theorem minc_ftl (m : Mod) (k n : Nat) : (minc m k n).ftl = m.ftl := rfl
@[simp] theorem minc_net (m : Mod) (k n : Nat) : (minc m k n).net = m.net := rfl
@[simp] theorem minc_entropyOk (m : Mod) (k n : Nat) : (minc m k n).entropyOk = m.entropyOk := rfl
@[simp] theorem minc_pol (m : Mod) (k n : Nat) : (minc m k n).pol = m.pol := rfl
@[simp] theorem minc_refetch (m : Mod) (k n : Nat) : (minc m k n).refetch = m.refetch := rfl
@[simp] theorem minc_dirGone (m : Mod) (k n : Nat) : (minc m k n).dirGone = m.dirGone := rfl
@[simp] theorem minc_out (m : Mod) (k n : Nat) : (minc m k n).out = m.out := rfl
@[simp] theorem minc_free (m : Mod) (k n : Nat) : (minc m k n).free = m.free := rfl
@[simp] theorem minc_sys (m : Mod) (k n : Nat) : (minc m k n).sys = m.sys := rfl

@[simp] theorem minc_ctr (m : Mod) (k n : Nat) : (minc m k n).ctr = m.ctr.inc k n := rfl

@[simp] theorem emit_working (m : Mod) (x : Out) : (emit m x).working = m.working := rfl
@[simp] theorem emit_hvl (m : Mod) (x : Out) : (emit m x).hvl = m.hvl := rfl
@[simp] theorem emit_front (m : Mod) (x : Out) : (emit m x).front = m.front := rfl
@[simp] theorem emit_fence (m : Mod) (x : Out) : (emit m x).fence = m.fence := rfl
@[simp] theorem emit_dir (m : Mod) (x : Out) : (emit m x).dir = m.dir := rfl
@[simp] theorem emit_sidNext (m : Mod) (x : Out) : (emit m x).sidNext = m.sidNext := rfl
@[simp] theorem emit_jr (m : Mod) (x : Out) : (emit m x).jr = m.jr := rfl
@[simp] theorem emit_own (m : Mod) (x : Out) : (emit m x).own = m.own := rfl
@[simp] theorem emit_peers (m : Mod) (x : Out) : (emit m x).peers = m.peers := rfl
@[simp] theorem emit_ftl (m : Mod) (x : Out) : (emit m x).ftl = m.ftl := rfl
@[simp] theorem emit_net (m : Mod) (x : Out) : (emit m x).net = m.net := rfl
@[simp] theorem emit_entropyOk (m : Mod) (x : Out) : (emit m x).entropyOk = m.entropyOk := rfl
@[simp] theorem emit_pol (m : Mod) (x : Out) : (emit m x).pol = m.pol := rfl
@[simp] theorem emit_ctr (m : Mod) (x : Out) : (emit m x).ctr = m.ctr := rfl
@[simp] theorem emit_refetch (m : Mod) (x : Out) : (emit m x).refetch = m.refetch := rfl
@[simp] theorem emit_dirGone (m : Mod) (x : Out) : (emit m x).dirGone = m.dirGone := rfl
@[simp] theorem emit_free (m : Mod) (x : Out) : (emit m x).free = m.free := rfl
@[simp] theorem emit_sys (m : Mod) (x : Out) : (emit m x).sys = m.sys := rfl

@[simp] theorem emit_out (m : Mod) (x : Out) : (emit m x).out = m.out ++ [x] := rfl

@[simp] theorem tickHvl_working (m : Mod) (t : Nat) : (tickHvl m t).working = m.working := rfl
@[simp] theorem tickHvl_front (m : Mod) (t : Nat) : (tickHvl m t).front = m.front := rfl
@[simp] theorem tickHvl_fence (m : Mod) (t : Nat) : (tickHvl m t).fence = m.fence := rfl
@[simp] theorem tickHvl_dir (m : Mod) (t : Nat) : (tickHvl m t).dir = m.dir := rfl
@[simp] theorem tickHvl_sidNext (m : Mod) (t : Nat) : (tickHvl m t).sidNext = m.sidNext := rfl
@[simp] theorem tickHvl_jr (m : Mod) (t : Nat) : (tickHvl m t).jr = m.jr := rfl
@[simp] theorem tickHvl_own (m : Mod) (t : Nat) : (tickHvl m t).own = m.own := rfl
@[simp] theorem tickHvl_peers (m : Mod) (t : Nat) : (tickHvl m t).peers = m.peers := rfl
@[simp] theorem tickHvl_ftl (m : Mod) (t : Nat) : (tickHvl m t).ftl = m.ftl := rfl
@[simp] theorem tickHvl_net (m : Mod) (t : Nat) : (tickHvl m t).net = m.net := rfl
@[simp] theorem tickHvl_entropyOk (m : Mod) (t : Nat) : (tickHvl m t).entropyOk = m.entropyOk := rfl
@[simp] theorem tickHvl_pol (m : Mod) (t : Nat) : (tickHvl m t).pol = m.pol := rfl
@[simp] theorem tickHvl_ctr (m : Mod) (t : Nat) : (tickHvl m t).ctr = m.ctr := rfl
@[simp] theorem tickHvl_refetch (m : Mod) (t : Nat) : (tickHvl m t).refetch = m.refetch := rfl
@[simp] theorem tickHvl_dirGone (m : Mod) (t : Nat) : (tickHvl m t).dirGone = m.dirGone := rfl
@[simp] theorem tickHvl_out (m : Mod) (t : Nat) : (tickHvl m t).out = m.out := rfl
@[simp] theorem tickHvl_free (m : Mod) (t : Nat) : (tickHvl m t).free = m.free := rfl
@[simp] theorem tickHvl_sys (m : Mod) (t : Nat) : (tickHvl m t).sys = m.sys := rfl

@[simp] theorem tickHvl_hvl (m : Mod) (t : Nat) : (tickHvl m t).hvl = max m.hvl t := rfl

@[simp] theorem tickPol_working (m : Mod) (p : Fin 16) (t : Nat) : (tickPol m p t).working = m.working := rfl
@[simp] theorem tickPol_hvl (m : Mod) (p : Fin 16) (t : Nat) : (tickPol m p t).hvl = m.hvl := rfl
@[simp] theorem tickPol_front (m : Mod) (p : Fin 16) (t : Nat) : (tickPol m p t).front = m.front := rfl
@[simp] theorem tickPol_fence (m : Mod) (p : Fin 16) (t : Nat) : (tickPol m p t).fence = m.fence := rfl
@[simp] theorem tickPol_dir (m : Mod) (p : Fin 16) (t : Nat) : (tickPol m p t).dir = m.dir := rfl
@[simp] theorem tickPol_sidNext (m : Mod) (p : Fin 16) (t : Nat) : (tickPol m p t).sidNext = m.sidNext := rfl
@[simp] theorem tickPol_jr (m : Mod) (p : Fin 16) (t : Nat) : (tickPol m p t).jr = m.jr := rfl
@[simp] theorem tickPol_own (m : Mod) (p : Fin 16) (t : Nat) : (tickPol m p t).own = m.own := rfl
@[simp] theorem tickPol_peers (m : Mod) (p : Fin 16) (t : Nat) : (tickPol m p t).peers = m.peers := rfl
@[simp] theorem tickPol_ftl (m : Mod) (p : Fin 16) (t : Nat) : (tickPol m p t).ftl = m.ftl := rfl
@[simp] theorem tickPol_net (m : Mod) (p : Fin 16) (t : Nat) : (tickPol m p t).net = m.net := rfl
@[simp] theorem tickPol_entropyOk (m : Mod) (p : Fin 16) (t : Nat) : (tickPol m p t).entropyOk = m.entropyOk := rfl
@[simp] theorem tickPol_ctr (m : Mod) (p : Fin 16) (t : Nat) : (tickPol m p t).ctr = m.ctr := rfl
@[simp] theorem tickPol_refetch (m : Mod) (p : Fin 16) (t : Nat) : (tickPol m p t).refetch = m.refetch := rfl
@[simp] theorem tickPol_dirGone (m : Mod) (p : Fin 16) (t : Nat) : (tickPol m p t).dirGone = m.dirGone := rfl
@[simp] theorem tickPol_out (m : Mod) (p : Fin 16) (t : Nat) : (tickPol m p t).out = m.out := rfl
@[simp] theorem tickPol_free (m : Mod) (p : Fin 16) (t : Nat) : (tickPol m p t).free = m.free := rfl
@[simp] theorem tickPol_sys (m : Mod) (p : Fin 16) (t : Nat) : (tickPol m p t).sys = m.sys := rfl

@[simp] theorem modDesc_working (m : Mod) (idx : Nat) (f : Desc → Desc) : (modDesc m idx f).working = m.working := rfl
@[simp] theorem modDesc_hvl (m : Mod) (idx : Nat) (f : Desc → Desc) : (modDesc m idx f).hvl = m.hvl := rfl
@[simp] theorem modDesc_front (m : Mod) (idx : Nat) (f : Desc → Desc) : (modDesc m idx f).front = m.front := rfl
@[simp] theorem modDesc_fence (m : Mod) (idx : Nat) (f : Desc → Desc) : (modDesc m idx f).fence = m.fence := rfl
@[simp] theorem modDesc_sidNext (m : Mod) (idx : Nat) (f : Desc → Desc) : (modDesc m idx f).sidNext = m.sidNext := rfl
@[simp] theorem modDesc_jr (m : Mod) (idx : Nat) (f : Desc → Desc) : (modDesc m idx f).jr = m.jr := rfl
@[simp] theorem modDesc_own (m : Mod) (idx : Nat) (f : Desc → Desc) : (modDesc m idx f).own = m.own := rfl
@[simp] theorem modDesc_peers (m : Mod) (idx : Nat) (f : Desc → Desc) : (modDesc m idx f).peers = m.peers := rfl
@[simp] theorem modDesc_ftl (m : Mod) (idx : Nat) (f : Desc → Desc) : (modDesc m idx f).ftl = m.ftl := rfl
@[simp] theorem modDesc_net (m : Mod) (idx : Nat) (f : Desc → Desc) : (modDesc m idx f).net = m.net := rfl
@[simp] theorem modDesc_entropyOk (m : Mod) (idx : Nat) (f : Desc → Desc) : (modDesc m idx f).entropyOk = m.entropyOk := rfl
@[simp] theorem modDesc_pol (m : Mod) (idx : Nat) (f : Desc → Desc) : (modDesc m idx f).pol = m.pol := rfl
@[simp] theorem modDesc_ctr (m : Mod) (idx : Nat) (f : Desc → Desc) : (modDesc m idx f).ctr = m.ctr := rfl
@[simp] theorem modDesc_refetch (m : Mod) (idx : Nat) (f : Desc → Desc) : (modDesc m idx f).refetch = m.refetch := rfl
@[simp] theorem modDesc_dirGone (m : Mod) (idx : Nat) (f : Desc → Desc) : (modDesc m idx f).dirGone = m.dirGone := rfl
@[simp] theorem modDesc_out (m : Mod) (idx : Nat) (f : Desc → Desc) : (modDesc m idx f).out = m.out := rfl
@[simp] theorem modDesc_free (m : Mod) (idx : Nat) (f : Desc → Desc) : (modDesc m idx f).free = m.free := rfl
@[simp] theorem modDesc_sys (m : Mod) (idx : Nat) (f : Desc → Desc) : (modDesc m idx f).sys = m.sys := rfl

@[simp] theorem modDesc_dir (m : Mod) (idx : Nat) (f : Desc → Desc) : (modDesc m idx f).dir = m.dir.upd idx f := rfl

@[simp] theorem modFence_working (m : Mod) (f : Fences → Fences) : (modFence m f).working = m.working := rfl
@[simp] theorem modFence_hvl (m : Mod) (f : Fences → Fences) : (modFence m f).hvl = m.hvl := rfl
@[simp] theorem modFence_front (m : Mod) (f : Fences → Fences) : (modFence m f).front = m.front := rfl
@[simp] theorem modFence_dir (m : Mod) (f : Fences → Fences) : (modFence m f).dir = m.dir := rfl
@[simp] theorem modFence_sidNext (m : Mod) (f : Fences → Fences) : (modFence m f).sidNext = m.sidNext := rfl
@[simp] theorem modFence_jr (m : Mod) (f : Fences → Fences) : (modFence m f).jr = m.jr := rfl
@[simp] theorem modFence_own (m : Mod) (f : Fences → Fences) : (modFence m f).own = m.own := rfl
@[simp] theorem modFence_peers (m : Mod) (f : Fences → Fences) : (modFence m f).peers = m.peers := rfl
@[simp] theorem modFence_ftl (m : Mod) (f : Fences → Fences) : (modFence m f).ftl = m.ftl := rfl
@[simp] theorem modFence_net (m : Mod) (f : Fences → Fences) : (modFence m f).net = m.net := rfl
@[simp] theorem modFence_entropyOk (m : Mod) (f : Fences → Fences) : (modFence m f).entropyOk = m.entropyOk := rfl
@[simp] theorem modFence_pol (m : Mod) (f : Fences → Fences) : (modFence m f).pol = m.pol := rfl
@[simp] theorem modFence_ctr (m : Mod) (f : Fences → Fences) : (modFence m f).ctr = m.ctr := rfl
@[simp] theorem modFence_refetch (m : Mod) (f : Fences → Fences) : (modFence m f).refetch = m.refetch := rfl
@[simp] theorem modFence_dirGone (m : Mod) (f : Fences → Fences) : (modFence m f).dirGone = m.dirGone := rfl
@[simp] theorem modFence_out (m : Mod) (f : Fences → Fences) : (modFence m f).out = m.out := rfl
@[simp] theorem modFence_free (m : Mod) (f : Fences → Fences) : (modFence m f).free = m.free := rfl
@[simp] theorem modFence_sys (m : Mod) (f : Fences → Fences) : (modFence m f).sys = m.sys := rfl

@[simp] theorem modFence_fence (m : Mod) (f : Fences → Fences) : (modFence m f).fence = f m.fence := rfl

@[simp] theorem modPort_working (m : Mod) (k : Fin 4) (f : Port → Port) : (modPort m k f).working = m.working := rfl
@[simp] theorem modPort_hvl (m : Mod) (k : Fin 4) (f : Port → Port) : (modPort m k f).hvl = m.hvl := rfl
@[simp] theorem modPort_front (m : Mod) (k : Fin 4) (f : Port → Port) : (modPort m k f).front = m.front := rfl
@[simp] theorem modPort_fence (m : Mod) (k : Fin 4) (f : Port → Port) : (modPort m k f).fence = m.fence := rfl
@[simp] theorem modPort_dir (m : Mod) (k : Fin 4) (f : Port → Port) : (modPort m k f).dir = m.dir := rfl
@[simp] theorem modPort_sidNext (m : Mod) (k : Fin 4) (f : Port → Port) : (modPort m k f).sidNext = m.sidNext := rfl
@[simp] theorem modPort_jr (m : Mod) (k : Fin 4) (f : Port → Port) : (modPort m k f).jr = m.jr := rfl
@[simp] theorem modPort_own (m : Mod) (k : Fin 4) (f : Port → Port) : (modPort m k f).own = m.own := rfl
@[simp] theorem modPort_peers (m : Mod) (k : Fin 4) (f : Port → Port) : (modPort m k f).peers = m.peers := rfl
@[simp] theorem modPort_ftl (m : Mod) (k : Fin 4) (f : Port → Port) : (modPort m k f).ftl = m.ftl := rfl
@[simp] theorem modPort_entropyOk (m : Mod) (k : Fin 4) (f : Port → Port) : (modPort m k f).entropyOk = m.entropyOk := rfl
@[simp] theorem modPort_pol (m : Mod) (k : Fin 4) (f : Port → Port) : (modPort m k f).pol = m.pol := rfl
@[simp] theorem modPort_ctr (m : Mod) (k : Fin 4) (f : Port → Port) : (modPort m k f).ctr = m.ctr := rfl
@[simp] theorem modPort_refetch (m : Mod) (k : Fin 4) (f : Port → Port) : (modPort m k f).refetch = m.refetch := rfl
@[simp] theorem modPort_dirGone (m : Mod) (k : Fin 4) (f : Port → Port) : (modPort m k f).dirGone = m.dirGone := rfl
@[simp] theorem modPort_out (m : Mod) (k : Fin 4) (f : Port → Port) : (modPort m k f).out = m.out := rfl
@[simp] theorem modPort_free (m : Mod) (k : Fin 4) (f : Port → Port) : (modPort m k f).free = m.free := rfl
@[simp] theorem modPort_sys (m : Mod) (k : Fin 4) (f : Port → Port) : (modPort m k f).sys = m.sys := rfl

@[simp] theorem modWd_working (m : Mod) (f : Warden → Warden) : (modWd m f).working = m.working := rfl
@[simp] theorem modWd_hvl (m : Mod) (f : Warden → Warden) : (modWd m f).hvl = m.hvl := rfl
@[simp] theorem modWd_front (m : Mod) (f : Warden → Warden) : (modWd m f).front = m.front := rfl
@[simp] theorem modWd_fence (m : Mod) (f : Warden → Warden) : (modWd m f).fence = m.fence := rfl
@[simp] theorem modWd_dir (m : Mod) (f : Warden → Warden) : (modWd m f).dir = m.dir := rfl
@[simp] theorem modWd_sidNext (m : Mod) (f : Warden → Warden) : (modWd m f).sidNext = m.sidNext := rfl
@[simp] theorem modWd_jr (m : Mod) (f : Warden → Warden) : (modWd m f).jr = m.jr := rfl
@[simp] theorem modWd_own (m : Mod) (f : Warden → Warden) : (modWd m f).own = m.own := rfl
@[simp] theorem modWd_peers (m : Mod) (f : Warden → Warden) : (modWd m f).peers = m.peers := rfl
@[simp] theorem modWd_ftl (m : Mod) (f : Warden → Warden) : (modWd m f).ftl = m.ftl := rfl
@[simp] theorem modWd_net (m : Mod) (f : Warden → Warden) : (modWd m f).net = m.net := rfl
@[simp] theorem modWd_entropyOk (m : Mod) (f : Warden → Warden) : (modWd m f).entropyOk = m.entropyOk := rfl
@[simp] theorem modWd_pol (m : Mod) (f : Warden → Warden) : (modWd m f).pol = m.pol := rfl
@[simp] theorem modWd_ctr (m : Mod) (f : Warden → Warden) : (modWd m f).ctr = m.ctr := rfl
@[simp] theorem modWd_refetch (m : Mod) (f : Warden → Warden) : (modWd m f).refetch = m.refetch := rfl
@[simp] theorem modWd_dirGone (m : Mod) (f : Warden → Warden) : (modWd m f).dirGone = m.dirGone := rfl
@[simp] theorem modWd_out (m : Mod) (f : Warden → Warden) : (modWd m f).out = m.out := rfl
@[simp] theorem modWd_free (m : Mod) (f : Warden → Warden) : (modWd m f).free = m.free := rfl

@[simp] theorem modWd_sys_fw (m : Mod) (f : Warden → Warden) : (modWd m f).sys.fw = m.sys.fw := rfl
@[simp] theorem modWd_sys_pw (m : Mod) (f : Warden → Warden) : (modWd m f).sys.pw = m.sys.pw := rfl
@[simp] theorem modWd_sys_wd (m : Mod) (f : Warden → Warden) : (modWd m f).sys.wd = f m.sys.wd := rfl
@[simp] theorem modWd_sys_time (m : Mod) (f : Warden → Warden) : (modWd m f).sys.time = m.sys.time := rfl
@[simp] theorem modWd_sys_disc (m : Mod) (f : Warden → Warden) : (modWd m f).sys.disc = m.sys.disc := rfl
@[simp] theorem modWd_sys_pins (m : Mod) (f : Warden → Warden) : (modWd m f).sys.pins = m.sys.pins := rfl
@[simp] theorem modWd_sys_boot (m : Mod) (f : Warden → Warden) : (modWd m f).sys.boot = m.sys.boot := rfl

@[simp] theorem modFw_working (m : Mod) (f : FwState → FwState) : (modFw m f).working = m.working := rfl
@[simp] theorem modFw_hvl (m : Mod) (f : FwState → FwState) : (modFw m f).hvl = m.hvl := rfl
@[simp] theorem modFw_front (m : Mod) (f : FwState → FwState) : (modFw m f).front = m.front := rfl
@[simp] theorem modFw_fence (m : Mod) (f : FwState → FwState) : (modFw m f).fence = m.fence := rfl
@[simp] theorem modFw_dir (m : Mod) (f : FwState → FwState) : (modFw m f).dir = m.dir := rfl
@[simp] theorem modFw_sidNext (m : Mod) (f : FwState → FwState) : (modFw m f).sidNext = m.sidNext := rfl
@[simp] theorem modFw_jr (m : Mod) (f : FwState → FwState) : (modFw m f).jr = m.jr := rfl
@[simp] theorem modFw_own (m : Mod) (f : FwState → FwState) : (modFw m f).own = m.own := rfl
@[simp] theorem modFw_peers (m : Mod) (f : FwState → FwState) : (modFw m f).peers = m.peers := rfl
@[simp] theorem modFw_ftl (m : Mod) (f : FwState → FwState) : (modFw m f).ftl = m.ftl := rfl
@[simp] theorem modFw_net (m : Mod) (f : FwState → FwState) : (modFw m f).net = m.net := rfl
@[simp] theorem modFw_entropyOk (m : Mod) (f : FwState → FwState) : (modFw m f).entropyOk = m.entropyOk := rfl
@[simp] theorem modFw_pol (m : Mod) (f : FwState → FwState) : (modFw m f).pol = m.pol := rfl
@[simp] theorem modFw_ctr (m : Mod) (f : FwState → FwState) : (modFw m f).ctr = m.ctr := rfl
@[simp] theorem modFw_refetch (m : Mod) (f : FwState → FwState) : (modFw m f).refetch = m.refetch := rfl
@[simp] theorem modFw_dirGone (m : Mod) (f : FwState → FwState) : (modFw m f).dirGone = m.dirGone := rfl
@[simp] theorem modFw_out (m : Mod) (f : FwState → FwState) : (modFw m f).out = m.out := rfl
@[simp] theorem modFw_free (m : Mod) (f : FwState → FwState) : (modFw m f).free = m.free := rfl

@[simp] theorem modFw_sys_fw (m : Mod) (f : FwState → FwState) : (modFw m f).sys.fw = f m.sys.fw := rfl
@[simp] theorem modFw_sys_pw (m : Mod) (f : FwState → FwState) : (modFw m f).sys.pw = m.sys.pw := rfl
@[simp] theorem modFw_sys_wd (m : Mod) (f : FwState → FwState) : (modFw m f).sys.wd = m.sys.wd := rfl
@[simp] theorem modFw_sys_time (m : Mod) (f : FwState → FwState) : (modFw m f).sys.time = m.sys.time := rfl
@[simp] theorem modFw_sys_disc (m : Mod) (f : FwState → FwState) : (modFw m f).sys.disc = m.sys.disc := rfl
@[simp] theorem modFw_sys_pins (m : Mod) (f : FwState → FwState) : (modFw m f).sys.pins = m.sys.pins := rfl
@[simp] theorem modFw_sys_boot (m : Mod) (f : FwState → FwState) : (modFw m f).sys.boot = m.sys.boot := rfl

@[simp] theorem modPw_working (m : Mod) (f : Pwr → Pwr) : (modPw m f).working = m.working := rfl
@[simp] theorem modPw_hvl (m : Mod) (f : Pwr → Pwr) : (modPw m f).hvl = m.hvl := rfl
@[simp] theorem modPw_front (m : Mod) (f : Pwr → Pwr) : (modPw m f).front = m.front := rfl
@[simp] theorem modPw_fence (m : Mod) (f : Pwr → Pwr) : (modPw m f).fence = m.fence := rfl
@[simp] theorem modPw_dir (m : Mod) (f : Pwr → Pwr) : (modPw m f).dir = m.dir := rfl
@[simp] theorem modPw_sidNext (m : Mod) (f : Pwr → Pwr) : (modPw m f).sidNext = m.sidNext := rfl
@[simp] theorem modPw_jr (m : Mod) (f : Pwr → Pwr) : (modPw m f).jr = m.jr := rfl
@[simp] theorem modPw_own (m : Mod) (f : Pwr → Pwr) : (modPw m f).own = m.own := rfl
@[simp] theorem modPw_peers (m : Mod) (f : Pwr → Pwr) : (modPw m f).peers = m.peers := rfl
@[simp] theorem modPw_ftl (m : Mod) (f : Pwr → Pwr) : (modPw m f).ftl = m.ftl := rfl
@[simp] theorem modPw_net (m : Mod) (f : Pwr → Pwr) : (modPw m f).net = m.net := rfl
@[simp] theorem modPw_entropyOk (m : Mod) (f : Pwr → Pwr) : (modPw m f).entropyOk = m.entropyOk := rfl
@[simp] theorem modPw_pol (m : Mod) (f : Pwr → Pwr) : (modPw m f).pol = m.pol := rfl
@[simp] theorem modPw_ctr (m : Mod) (f : Pwr → Pwr) : (modPw m f).ctr = m.ctr := rfl
@[simp] theorem modPw_refetch (m : Mod) (f : Pwr → Pwr) : (modPw m f).refetch = m.refetch := rfl
@[simp] theorem modPw_dirGone (m : Mod) (f : Pwr → Pwr) : (modPw m f).dirGone = m.dirGone := rfl
@[simp] theorem modPw_out (m : Mod) (f : Pwr → Pwr) : (modPw m f).out = m.out := rfl
@[simp] theorem modPw_free (m : Mod) (f : Pwr → Pwr) : (modPw m f).free = m.free := rfl

@[simp] theorem modPw_sys_fw (m : Mod) (f : Pwr → Pwr) : (modPw m f).sys.fw = m.sys.fw := rfl
@[simp] theorem modPw_sys_pw (m : Mod) (f : Pwr → Pwr) : (modPw m f).sys.pw = f m.sys.pw := rfl
@[simp] theorem modPw_sys_wd (m : Mod) (f : Pwr → Pwr) : (modPw m f).sys.wd = m.sys.wd := rfl
@[simp] theorem modPw_sys_time (m : Mod) (f : Pwr → Pwr) : (modPw m f).sys.time = m.sys.time := rfl
@[simp] theorem modPw_sys_disc (m : Mod) (f : Pwr → Pwr) : (modPw m f).sys.disc = m.sys.disc := rfl
@[simp] theorem modPw_sys_pins (m : Mod) (f : Pwr → Pwr) : (modPw m f).sys.pins = m.sys.pins := rfl
@[simp] theorem modPw_sys_boot (m : Mod) (f : Pwr → Pwr) : (modPw m f).sys.boot = m.sys.boot := rfl

@[simp] theorem modTime_working (m : Mod) (f : TimeState → TimeState) : (modTime m f).working = m.working := rfl
@[simp] theorem modTime_hvl (m : Mod) (f : TimeState → TimeState) : (modTime m f).hvl = m.hvl := rfl
@[simp] theorem modTime_front (m : Mod) (f : TimeState → TimeState) : (modTime m f).front = m.front := rfl
@[simp] theorem modTime_fence (m : Mod) (f : TimeState → TimeState) : (modTime m f).fence = m.fence := rfl
@[simp] theorem modTime_dir (m : Mod) (f : TimeState → TimeState) : (modTime m f).dir = m.dir := rfl
@[simp] theorem modTime_sidNext (m : Mod) (f : TimeState → TimeState) : (modTime m f).sidNext = m.sidNext := rfl
@[simp] theorem modTime_jr (m : Mod) (f : TimeState → TimeState) : (modTime m f).jr = m.jr := rfl
@[simp] theorem modTime_own (m : Mod) (f : TimeState → TimeState) : (modTime m f).own = m.own := rfl
@[simp] theorem modTime_peers (m : Mod) (f : TimeState → TimeState) : (modTime m f).peers = m.peers := rfl
@[simp] theorem modTime_ftl (m : Mod) (f : TimeState → TimeState) : (modTime m f).ftl = m.ftl := rfl
@[simp] theorem modTime_net (m : Mod) (f : TimeState → TimeState) : (modTime m f).net = m.net := rfl
@[simp] theorem modTime_entropyOk (m : Mod) (f : TimeState → TimeState) : (modTime m f).entropyOk = m.entropyOk := rfl
@[simp] theorem modTime_pol (m : Mod) (f : TimeState → TimeState) : (modTime m f).pol = m.pol := rfl
@[simp] theorem modTime_ctr (m : Mod) (f : TimeState → TimeState) : (modTime m f).ctr = m.ctr := rfl
@[simp] theorem modTime_refetch (m : Mod) (f : TimeState → TimeState) : (modTime m f).refetch = m.refetch := rfl
@[simp] theorem modTime_dirGone (m : Mod) (f : TimeState → TimeState) : (modTime m f).dirGone = m.dirGone := rfl
@[simp] theorem modTime_out (m : Mod) (f : TimeState → TimeState) : (modTime m f).out = m.out := rfl
@[simp] theorem modTime_free (m : Mod) (f : TimeState → TimeState) : (modTime m f).free = m.free := rfl

@[simp] theorem modTime_sys_fw (m : Mod) (f : TimeState → TimeState) : (modTime m f).sys.fw = m.sys.fw := rfl
@[simp] theorem modTime_sys_pw (m : Mod) (f : TimeState → TimeState) : (modTime m f).sys.pw = m.sys.pw := rfl
@[simp] theorem modTime_sys_wd (m : Mod) (f : TimeState → TimeState) : (modTime m f).sys.wd = m.sys.wd := rfl
@[simp] theorem modTime_sys_time (m : Mod) (f : TimeState → TimeState) : (modTime m f).sys.time = f m.sys.time := rfl
@[simp] theorem modTime_sys_disc (m : Mod) (f : TimeState → TimeState) : (modTime m f).sys.disc = m.sys.disc := rfl
@[simp] theorem modTime_sys_pins (m : Mod) (f : TimeState → TimeState) : (modTime m f).sys.pins = m.sys.pins := rfl
@[simp] theorem modTime_sys_boot (m : Mod) (f : TimeState → TimeState) : (modTime m f).sys.boot = m.sys.boot := rfl

@[simp] theorem modDisc_working (m : Mod) (f : Disc → Disc) : (modDisc m f).working = m.working := rfl
@[simp] theorem modDisc_hvl (m : Mod) (f : Disc → Disc) : (modDisc m f).hvl = m.hvl := rfl
@[simp] theorem modDisc_front (m : Mod) (f : Disc → Disc) : (modDisc m f).front = m.front := rfl
@[simp] theorem modDisc_fence (m : Mod) (f : Disc → Disc) : (modDisc m f).fence = m.fence := rfl
@[simp] theorem modDisc_dir (m : Mod) (f : Disc → Disc) : (modDisc m f).dir = m.dir := rfl
@[simp] theorem modDisc_sidNext (m : Mod) (f : Disc → Disc) : (modDisc m f).sidNext = m.sidNext := rfl
@[simp] theorem modDisc_jr (m : Mod) (f : Disc → Disc) : (modDisc m f).jr = m.jr := rfl
@[simp] theorem modDisc_own (m : Mod) (f : Disc → Disc) : (modDisc m f).own = m.own := rfl
@[simp] theorem modDisc_peers (m : Mod) (f : Disc → Disc) : (modDisc m f).peers = m.peers := rfl
@[simp] theorem modDisc_ftl (m : Mod) (f : Disc → Disc) : (modDisc m f).ftl = m.ftl := rfl
@[simp] theorem modDisc_net (m : Mod) (f : Disc → Disc) : (modDisc m f).net = m.net := rfl
@[simp] theorem modDisc_entropyOk (m : Mod) (f : Disc → Disc) : (modDisc m f).entropyOk = m.entropyOk := rfl
@[simp] theorem modDisc_pol (m : Mod) (f : Disc → Disc) : (modDisc m f).pol = m.pol := rfl
@[simp] theorem modDisc_ctr (m : Mod) (f : Disc → Disc) : (modDisc m f).ctr = m.ctr := rfl
@[simp] theorem modDisc_refetch (m : Mod) (f : Disc → Disc) : (modDisc m f).refetch = m.refetch := rfl
@[simp] theorem modDisc_dirGone (m : Mod) (f : Disc → Disc) : (modDisc m f).dirGone = m.dirGone := rfl
@[simp] theorem modDisc_out (m : Mod) (f : Disc → Disc) : (modDisc m f).out = m.out := rfl
@[simp] theorem modDisc_free (m : Mod) (f : Disc → Disc) : (modDisc m f).free = m.free := rfl

@[simp] theorem modDisc_sys_fw (m : Mod) (f : Disc → Disc) : (modDisc m f).sys.fw = m.sys.fw := rfl
@[simp] theorem modDisc_sys_pw (m : Mod) (f : Disc → Disc) : (modDisc m f).sys.pw = m.sys.pw := rfl
@[simp] theorem modDisc_sys_wd (m : Mod) (f : Disc → Disc) : (modDisc m f).sys.wd = m.sys.wd := rfl
@[simp] theorem modDisc_sys_time (m : Mod) (f : Disc → Disc) : (modDisc m f).sys.time = m.sys.time := rfl
@[simp] theorem modDisc_sys_disc (m : Mod) (f : Disc → Disc) : (modDisc m f).sys.disc = f m.sys.disc := rfl
@[simp] theorem modDisc_sys_pins (m : Mod) (f : Disc → Disc) : (modDisc m f).sys.pins = m.sys.pins := rfl
@[simp] theorem modDisc_sys_boot (m : Mod) (f : Disc → Disc) : (modDisc m f).sys.boot = m.sys.boot := rfl

@[simp] theorem modPins_working (m : Mod) (f : Pins → Pins) : (modPins m f).working = m.working := rfl
@[simp] theorem modPins_hvl (m : Mod) (f : Pins → Pins) : (modPins m f).hvl = m.hvl := rfl
@[simp] theorem modPins_front (m : Mod) (f : Pins → Pins) : (modPins m f).front = m.front := rfl
@[simp] theorem modPins_fence (m : Mod) (f : Pins → Pins) : (modPins m f).fence = m.fence := rfl
@[simp] theorem modPins_dir (m : Mod) (f : Pins → Pins) : (modPins m f).dir = m.dir := rfl
@[simp] theorem modPins_sidNext (m : Mod) (f : Pins → Pins) : (modPins m f).sidNext = m.sidNext := rfl
@[simp] theorem modPins_jr (m : Mod) (f : Pins → Pins) : (modPins m f).jr = m.jr := rfl
@[simp] theorem modPins_own (m : Mod) (f : Pins → Pins) : (modPins m f).own = m.own := rfl
@[simp] theorem modPins_peers (m : Mod) (f : Pins → Pins) : (modPins m f).peers = m.peers := rfl
@[simp] theorem modPins_ftl (m : Mod) (f : Pins → Pins) : (modPins m f).ftl = m.ftl := rfl
@[simp] theorem modPins_net (m : Mod) (f : Pins → Pins) : (modPins m f).net = m.net := rfl
@[simp] theorem modPins_entropyOk (m : Mod) (f : Pins → Pins) : (modPins m f).entropyOk = m.entropyOk := rfl
@[simp] theorem modPins_pol (m : Mod) (f : Pins → Pins) : (modPins m f).pol = m.pol := rfl
@[simp] theorem modPins_ctr (m : Mod) (f : Pins → Pins) : (modPins m f).ctr = m.ctr := rfl
@[simp] theorem modPins_refetch (m : Mod) (f : Pins → Pins) : (modPins m f).refetch = m.refetch := rfl
@[simp] theorem modPins_dirGone (m : Mod) (f : Pins → Pins) : (modPins m f).dirGone = m.dirGone := rfl
@[simp] theorem modPins_out (m : Mod) (f : Pins → Pins) : (modPins m f).out = m.out := rfl
@[simp] theorem modPins_free (m : Mod) (f : Pins → Pins) : (modPins m f).free = m.free := rfl

@[simp] theorem modPins_sys_fw (m : Mod) (f : Pins → Pins) : (modPins m f).sys.fw = m.sys.fw := rfl
@[simp] theorem modPins_sys_pw (m : Mod) (f : Pins → Pins) : (modPins m f).sys.pw = m.sys.pw := rfl
@[simp] theorem modPins_sys_wd (m : Mod) (f : Pins → Pins) : (modPins m f).sys.wd = m.sys.wd := rfl
@[simp] theorem modPins_sys_time (m : Mod) (f : Pins → Pins) : (modPins m f).sys.time = m.sys.time := rfl
@[simp] theorem modPins_sys_disc (m : Mod) (f : Pins → Pins) : (modPins m f).sys.disc = m.sys.disc := rfl
@[simp] theorem modPins_sys_pins (m : Mod) (f : Pins → Pins) : (modPins m f).sys.pins = f m.sys.pins := rfl
@[simp] theorem modPins_sys_boot (m : Mod) (f : Pins → Pins) : (modPins m f).sys.boot = m.sys.boot := rfl

@[simp] theorem modBoot_working (m : Mod) (f : BootState → BootState) : (modBoot m f).working = m.working := rfl
@[simp] theorem modBoot_hvl (m : Mod) (f : BootState → BootState) : (modBoot m f).hvl = m.hvl := rfl
@[simp] theorem modBoot_front (m : Mod) (f : BootState → BootState) : (modBoot m f).front = m.front := rfl
@[simp] theorem modBoot_fence (m : Mod) (f : BootState → BootState) : (modBoot m f).fence = m.fence := rfl
@[simp] theorem modBoot_dir (m : Mod) (f : BootState → BootState) : (modBoot m f).dir = m.dir := rfl
@[simp] theorem modBoot_sidNext (m : Mod) (f : BootState → BootState) : (modBoot m f).sidNext = m.sidNext := rfl
@[simp] theorem modBoot_jr (m : Mod) (f : BootState → BootState) : (modBoot m f).jr = m.jr := rfl
@[simp] theorem modBoot_own (m : Mod) (f : BootState → BootState) : (modBoot m f).own = m.own := rfl
@[simp] theorem modBoot_peers (m : Mod) (f : BootState → BootState) : (modBoot m f).peers = m.peers := rfl
@[simp] theorem modBoot_ftl (m : Mod) (f : BootState → BootState) : (modBoot m f).ftl = m.ftl := rfl
@[simp] theorem modBoot_net (m : Mod) (f : BootState → BootState) : (modBoot m f).net = m.net := rfl
@[simp] theorem modBoot_entropyOk (m : Mod) (f : BootState → BootState) : (modBoot m f).entropyOk = m.entropyOk := rfl
@[simp] theorem modBoot_pol (m : Mod) (f : BootState → BootState) : (modBoot m f).pol = m.pol := rfl
@[simp] theorem modBoot_ctr (m : Mod) (f : BootState → BootState) : (modBoot m f).ctr = m.ctr := rfl
@[simp] theorem modBoot_refetch (m : Mod) (f : BootState → BootState) : (modBoot m f).refetch = m.refetch := rfl
@[simp] theorem modBoot_dirGone (m : Mod) (f : BootState → BootState) : (modBoot m f).dirGone = m.dirGone := rfl
@[simp] theorem modBoot_out (m : Mod) (f : BootState → BootState) : (modBoot m f).out = m.out := rfl
@[simp] theorem modBoot_free (m : Mod) (f : BootState → BootState) : (modBoot m f).free = m.free := rfl

@[simp] theorem modBoot_sys_fw (m : Mod) (f : BootState → BootState) : (modBoot m f).sys.fw = m.sys.fw := rfl
@[simp] theorem modBoot_sys_pw (m : Mod) (f : BootState → BootState) : (modBoot m f).sys.pw = m.sys.pw := rfl
@[simp] theorem modBoot_sys_wd (m : Mod) (f : BootState → BootState) : (modBoot m f).sys.wd = m.sys.wd := rfl
@[simp] theorem modBoot_sys_time (m : Mod) (f : BootState → BootState) : (modBoot m f).sys.time = m.sys.time := rfl
@[simp] theorem modBoot_sys_disc (m : Mod) (f : BootState → BootState) : (modBoot m f).sys.disc = m.sys.disc := rfl
@[simp] theorem modBoot_sys_pins (m : Mod) (f : BootState → BootState) : (modBoot m f).sys.pins = m.sys.pins := rfl
@[simp] theorem modBoot_sys_boot (m : Mod) (f : BootState → BootState) : (modBoot m f).sys.boot = f m.sys.boot := rfl

@[simp] theorem modMbx_working (m : Mod) (b : Box) (f : Mbx → Mbx) : (modMbx m b f).working = m.working := by cases b <;> rfl
@[simp] theorem modMbx_hvl (m : Mod) (b : Box) (f : Mbx → Mbx) : (modMbx m b f).hvl = m.hvl := by cases b <;> rfl
@[simp] theorem modMbx_fence (m : Mod) (b : Box) (f : Mbx → Mbx) : (modMbx m b f).fence = m.fence := by cases b <;> rfl
@[simp] theorem modMbx_dir (m : Mod) (b : Box) (f : Mbx → Mbx) : (modMbx m b f).dir = m.dir := by cases b <;> rfl
@[simp] theorem modMbx_sidNext (m : Mod) (b : Box) (f : Mbx → Mbx) : (modMbx m b f).sidNext = m.sidNext := by cases b <;> rfl
@[simp] theorem modMbx_jr (m : Mod) (b : Box) (f : Mbx → Mbx) : (modMbx m b f).jr = m.jr := by cases b <;> rfl
@[simp] theorem modMbx_own (m : Mod) (b : Box) (f : Mbx → Mbx) : (modMbx m b f).own = m.own := by cases b <;> rfl
@[simp] theorem modMbx_peers (m : Mod) (b : Box) (f : Mbx → Mbx) : (modMbx m b f).peers = m.peers := by cases b <;> rfl
@[simp] theorem modMbx_ftl (m : Mod) (b : Box) (f : Mbx → Mbx) : (modMbx m b f).ftl = m.ftl := by cases b <;> rfl
@[simp] theorem modMbx_net (m : Mod) (b : Box) (f : Mbx → Mbx) : (modMbx m b f).net = m.net := by cases b <;> rfl
@[simp] theorem modMbx_entropyOk (m : Mod) (b : Box) (f : Mbx → Mbx) : (modMbx m b f).entropyOk = m.entropyOk := by cases b <;> rfl
@[simp] theorem modMbx_ctr (m : Mod) (b : Box) (f : Mbx → Mbx) : (modMbx m b f).ctr = m.ctr := by cases b <;> rfl
@[simp] theorem modMbx_refetch (m : Mod) (b : Box) (f : Mbx → Mbx) : (modMbx m b f).refetch = m.refetch := by cases b <;> rfl
@[simp] theorem modMbx_dirGone (m : Mod) (b : Box) (f : Mbx → Mbx) : (modMbx m b f).dirGone = m.dirGone := by cases b <;> rfl
@[simp] theorem modMbx_out (m : Mod) (b : Box) (f : Mbx → Mbx) : (modMbx m b f).out = m.out := by cases b <;> rfl
@[simp] theorem modMbx_free (m : Mod) (b : Box) (f : Mbx → Mbx) : (modMbx m b f).free = m.free := by cases b <;> rfl
@[simp] theorem modMbx_sys (m : Mod) (b : Box) (f : Mbx → Mbx) : (modMbx m b f).sys = m.sys := by cases b <;> rfl
@[simp] theorem m2h_working (m : Mod) (p : Fin 16) (n : Nat) : (m2h m p n).working = m.working := rfl
@[simp] theorem m2h_hvl (m : Mod) (p : Fin 16) (n : Nat) : (m2h m p n).hvl = m.hvl := rfl
@[simp] theorem m2h_front (m : Mod) (p : Fin 16) (n : Nat) : (m2h m p n).front = m.front := rfl
@[simp] theorem m2h_fence (m : Mod) (p : Fin 16) (n : Nat) : (m2h m p n).fence = m.fence := rfl
@[simp] theorem m2h_dir (m : Mod) (p : Fin 16) (n : Nat) : (m2h m p n).dir = m.dir := rfl
@[simp] theorem m2h_sidNext (m : Mod) (p : Fin 16) (n : Nat) : (m2h m p n).sidNext = m.sidNext := rfl
@[simp] theorem m2h_jr (m : Mod) (p : Fin 16) (n : Nat) : (m2h m p n).jr = m.jr := rfl
@[simp] theorem m2h_own (m : Mod) (p : Fin 16) (n : Nat) : (m2h m p n).own = m.own := rfl
@[simp] theorem m2h_peers (m : Mod) (p : Fin 16) (n : Nat) : (m2h m p n).peers = m.peers := rfl
@[simp] theorem m2h_ftl (m : Mod) (p : Fin 16) (n : Nat) : (m2h m p n).ftl = m.ftl := rfl
@[simp] theorem m2h_net (m : Mod) (p : Fin 16) (n : Nat) : (m2h m p n).net = m.net := rfl
@[simp] theorem m2h_entropyOk (m : Mod) (p : Fin 16) (n : Nat) : (m2h m p n).entropyOk = m.entropyOk := rfl
@[simp] theorem m2h_ctr (m : Mod) (p : Fin 16) (n : Nat) : (m2h m p n).ctr = m.ctr := rfl
@[simp] theorem m2h_refetch (m : Mod) (p : Fin 16) (n : Nat) : (m2h m p n).refetch = m.refetch := rfl
@[simp] theorem m2h_dirGone (m : Mod) (p : Fin 16) (n : Nat) : (m2h m p n).dirGone = m.dirGone := rfl
@[simp] theorem m2h_out (m : Mod) (p : Fin 16) (n : Nat) : (m2h m p n).out = m.out := rfl
@[simp] theorem m2h_free (m : Mod) (p : Fin 16) (n : Nat) : (m2h m p n).free = m.free := rfl
@[simp] theorem m2h_sys (m : Mod) (p : Fin 16) (n : Nat) : (m2h m p n).sys = m.sys := rfl

@[simp] theorem wfqServe_working (m : Mod) (p : Fin 16) (arb len : Nat) : (wfqServe m p arb len).working = m.working := rfl
@[simp] theorem wfqServe_hvl (m : Mod) (p : Fin 16) (arb len : Nat) : (wfqServe m p arb len).hvl = m.hvl := rfl
@[simp] theorem wfqServe_front (m : Mod) (p : Fin 16) (arb len : Nat) : (wfqServe m p arb len).front = m.front := rfl
@[simp] theorem wfqServe_fence (m : Mod) (p : Fin 16) (arb len : Nat) : (wfqServe m p arb len).fence = m.fence := rfl
@[simp] theorem wfqServe_dir (m : Mod) (p : Fin 16) (arb len : Nat) : (wfqServe m p arb len).dir = m.dir := rfl
@[simp] theorem wfqServe_sidNext (m : Mod) (p : Fin 16) (arb len : Nat) : (wfqServe m p arb len).sidNext = m.sidNext := rfl
@[simp] theorem wfqServe_jr (m : Mod) (p : Fin 16) (arb len : Nat) : (wfqServe m p arb len).jr = m.jr := rfl
@[simp] theorem wfqServe_own (m : Mod) (p : Fin 16) (arb len : Nat) : (wfqServe m p arb len).own = m.own := rfl
@[simp] theorem wfqServe_peers (m : Mod) (p : Fin 16) (arb len : Nat) : (wfqServe m p arb len).peers = m.peers := rfl
@[simp] theorem wfqServe_ftl (m : Mod) (p : Fin 16) (arb len : Nat) : (wfqServe m p arb len).ftl = m.ftl := rfl
@[simp] theorem wfqServe_entropyOk (m : Mod) (p : Fin 16) (arb len : Nat) : (wfqServe m p arb len).entropyOk = m.entropyOk := rfl
@[simp] theorem wfqServe_ctr (m : Mod) (p : Fin 16) (arb len : Nat) : (wfqServe m p arb len).ctr = m.ctr := rfl
@[simp] theorem wfqServe_refetch (m : Mod) (p : Fin 16) (arb len : Nat) : (wfqServe m p arb len).refetch = m.refetch := rfl
@[simp] theorem wfqServe_dirGone (m : Mod) (p : Fin 16) (arb len : Nat) : (wfqServe m p arb len).dirGone = m.dirGone := rfl
@[simp] theorem wfqServe_out (m : Mod) (p : Fin 16) (arb len : Nat) : (wfqServe m p arb len).out = m.out := rfl
@[simp] theorem wfqServe_free (m : Mod) (p : Fin 16) (arb len : Nat) : (wfqServe m p arb len).free = m.free := rfl
@[simp] theorem wfqServe_sys (m : Mod) (p : Fin 16) (arb len : Nat) : (wfqServe m p arb len).sys = m.sys := rfl

@[simp] theorem pincIf_working (m : Mod) (p : Fin 16) (c : Bool) (k : Nat) : (pincIf m p c k).working = m.working := by cases c <;> rfl
@[simp] theorem pincIf_hvl (m : Mod) (p : Fin 16) (c : Bool) (k : Nat) : (pincIf m p c k).hvl = m.hvl := by cases c <;> rfl
@[simp] theorem pincIf_front (m : Mod) (p : Fin 16) (c : Bool) (k : Nat) : (pincIf m p c k).front = m.front := by cases c <;> rfl
@[simp] theorem pincIf_fence (m : Mod) (p : Fin 16) (c : Bool) (k : Nat) : (pincIf m p c k).fence = m.fence := by cases c <;> rfl
@[simp] theorem pincIf_dir (m : Mod) (p : Fin 16) (c : Bool) (k : Nat) : (pincIf m p c k).dir = m.dir := by cases c <;> rfl
@[simp] theorem pincIf_sidNext (m : Mod) (p : Fin 16) (c : Bool) (k : Nat) : (pincIf m p c k).sidNext = m.sidNext := by cases c <;> rfl
@[simp] theorem pincIf_jr (m : Mod) (p : Fin 16) (c : Bool) (k : Nat) : (pincIf m p c k).jr = m.jr := by cases c <;> rfl
@[simp] theorem pincIf_own (m : Mod) (p : Fin 16) (c : Bool) (k : Nat) : (pincIf m p c k).own = m.own := by cases c <;> rfl
@[simp] theorem pincIf_peers (m : Mod) (p : Fin 16) (c : Bool) (k : Nat) : (pincIf m p c k).peers = m.peers := by cases c <;> rfl
@[simp] theorem pincIf_ftl (m : Mod) (p : Fin 16) (c : Bool) (k : Nat) : (pincIf m p c k).ftl = m.ftl := by cases c <;> rfl
@[simp] theorem pincIf_net (m : Mod) (p : Fin 16) (c : Bool) (k : Nat) : (pincIf m p c k).net = m.net := by cases c <;> rfl
@[simp] theorem pincIf_entropyOk (m : Mod) (p : Fin 16) (c : Bool) (k : Nat) : (pincIf m p c k).entropyOk = m.entropyOk := by cases c <;> rfl
@[simp] theorem pincIf_ctr (m : Mod) (p : Fin 16) (c : Bool) (k : Nat) : (pincIf m p c k).ctr = m.ctr := by cases c <;> rfl
@[simp] theorem pincIf_refetch (m : Mod) (p : Fin 16) (c : Bool) (k : Nat) : (pincIf m p c k).refetch = m.refetch := by cases c <;> rfl
@[simp] theorem pincIf_dirGone (m : Mod) (p : Fin 16) (c : Bool) (k : Nat) : (pincIf m p c k).dirGone = m.dirGone := by cases c <;> rfl
@[simp] theorem pincIf_out (m : Mod) (p : Fin 16) (c : Bool) (k : Nat) : (pincIf m p c k).out = m.out := by cases c <;> rfl
@[simp] theorem pincIf_free (m : Mod) (p : Fin 16) (c : Bool) (k : Nat) : (pincIf m p c k).free = m.free := by cases c <;> rfl
@[simp] theorem pincIf_sys (m : Mod) (p : Fin 16) (c : Bool) (k : Nat) : (pincIf m p c k).sys = m.sys := by cases c <;> rfl

@[simp] theorem polIrq_working (m : Mod) (p : Fin 16) (v : Nat) : (polIrq m p v).working = m.working := by unfold polIrq; split <;> rfl
@[simp] theorem polIrq_hvl (m : Mod) (p : Fin 16) (v : Nat) : (polIrq m p v).hvl = m.hvl := by unfold polIrq; split <;> rfl
@[simp] theorem polIrq_front (m : Mod) (p : Fin 16) (v : Nat) : (polIrq m p v).front = m.front := by unfold polIrq; split <;> rfl
@[simp] theorem polIrq_fence (m : Mod) (p : Fin 16) (v : Nat) : (polIrq m p v).fence = m.fence := by unfold polIrq; split <;> rfl
@[simp] theorem polIrq_dir (m : Mod) (p : Fin 16) (v : Nat) : (polIrq m p v).dir = m.dir := by unfold polIrq; split <;> rfl
@[simp] theorem polIrq_sidNext (m : Mod) (p : Fin 16) (v : Nat) : (polIrq m p v).sidNext = m.sidNext := by unfold polIrq; split <;> rfl
@[simp] theorem polIrq_jr (m : Mod) (p : Fin 16) (v : Nat) : (polIrq m p v).jr = m.jr := by unfold polIrq; split <;> rfl
@[simp] theorem polIrq_own (m : Mod) (p : Fin 16) (v : Nat) : (polIrq m p v).own = m.own := by unfold polIrq; split <;> rfl
@[simp] theorem polIrq_peers (m : Mod) (p : Fin 16) (v : Nat) : (polIrq m p v).peers = m.peers := by unfold polIrq; split <;> rfl
@[simp] theorem polIrq_ftl (m : Mod) (p : Fin 16) (v : Nat) : (polIrq m p v).ftl = m.ftl := by unfold polIrq; split <;> rfl
@[simp] theorem polIrq_net (m : Mod) (p : Fin 16) (v : Nat) : (polIrq m p v).net = m.net := by unfold polIrq; split <;> rfl
@[simp] theorem polIrq_entropyOk (m : Mod) (p : Fin 16) (v : Nat) : (polIrq m p v).entropyOk = m.entropyOk := by unfold polIrq; split <;> rfl
@[simp] theorem polIrq_pol (m : Mod) (p : Fin 16) (v : Nat) : (polIrq m p v).pol = m.pol := by unfold polIrq; split <;> rfl
@[simp] theorem polIrq_ctr (m : Mod) (p : Fin 16) (v : Nat) : (polIrq m p v).ctr = m.ctr := by unfold polIrq; split <;> rfl
@[simp] theorem polIrq_refetch (m : Mod) (p : Fin 16) (v : Nat) : (polIrq m p v).refetch = m.refetch := by unfold polIrq; split <;> rfl
@[simp] theorem polIrq_dirGone (m : Mod) (p : Fin 16) (v : Nat) : (polIrq m p v).dirGone = m.dirGone := by unfold polIrq; split <;> rfl
@[simp] theorem polIrq_free (m : Mod) (p : Fin 16) (v : Nat) : (polIrq m p v).free = m.free := by unfold polIrq; split <;> rfl
@[simp] theorem polIrq_sys (m : Mod) (p : Fin 16) (v : Nat) : (polIrq m p v).sys = m.sys := by unfold polIrq; split <;> rfl

@[simp] theorem mgmtIrq_working (m : Mod) (n : Nat) : (mgmtIrq m n).working = m.working := by unfold mgmtIrq; split <;> rfl
@[simp] theorem mgmtIrq_hvl (m : Mod) (n : Nat) : (mgmtIrq m n).hvl = m.hvl := by unfold mgmtIrq; split <;> rfl
@[simp] theorem mgmtIrq_front (m : Mod) (n : Nat) : (mgmtIrq m n).front = m.front := by unfold mgmtIrq; split <;> rfl
@[simp] theorem mgmtIrq_fence (m : Mod) (n : Nat) : (mgmtIrq m n).fence = m.fence := by unfold mgmtIrq; split <;> rfl
@[simp] theorem mgmtIrq_dir (m : Mod) (n : Nat) : (mgmtIrq m n).dir = m.dir := by unfold mgmtIrq; split <;> rfl
@[simp] theorem mgmtIrq_sidNext (m : Mod) (n : Nat) : (mgmtIrq m n).sidNext = m.sidNext := by unfold mgmtIrq; split <;> rfl
@[simp] theorem mgmtIrq_jr (m : Mod) (n : Nat) : (mgmtIrq m n).jr = m.jr := by unfold mgmtIrq; split <;> rfl
@[simp] theorem mgmtIrq_own (m : Mod) (n : Nat) : (mgmtIrq m n).own = m.own := by unfold mgmtIrq; split <;> rfl
@[simp] theorem mgmtIrq_peers (m : Mod) (n : Nat) : (mgmtIrq m n).peers = m.peers := by unfold mgmtIrq; split <;> rfl
@[simp] theorem mgmtIrq_ftl (m : Mod) (n : Nat) : (mgmtIrq m n).ftl = m.ftl := by unfold mgmtIrq; split <;> rfl
@[simp] theorem mgmtIrq_net (m : Mod) (n : Nat) : (mgmtIrq m n).net = m.net := by unfold mgmtIrq; split <;> rfl
@[simp] theorem mgmtIrq_entropyOk (m : Mod) (n : Nat) : (mgmtIrq m n).entropyOk = m.entropyOk := by unfold mgmtIrq; split <;> rfl
@[simp] theorem mgmtIrq_pol (m : Mod) (n : Nat) : (mgmtIrq m n).pol = m.pol := by unfold mgmtIrq; split <;> rfl
@[simp] theorem mgmtIrq_ctr (m : Mod) (n : Nat) : (mgmtIrq m n).ctr = m.ctr := by unfold mgmtIrq; split <;> rfl
@[simp] theorem mgmtIrq_refetch (m : Mod) (n : Nat) : (mgmtIrq m n).refetch = m.refetch := by unfold mgmtIrq; split <;> rfl
@[simp] theorem mgmtIrq_dirGone (m : Mod) (n : Nat) : (mgmtIrq m n).dirGone = m.dirGone := by unfold mgmtIrq; split <;> rfl
@[simp] theorem mgmtIrq_free (m : Mod) (n : Nat) : (mgmtIrq m n).free = m.free := by unfold mgmtIrq; split <;> rfl
@[simp] theorem mgmtIrq_sys (m : Mod) (n : Nat) : (mgmtIrq m n).sys = m.sys := by unfold mgmtIrq; split <;> rfl

@[simp] theorem postCq_working (m : Mod) (p c : Fin 16) (mk : Nat → Cq → CqEntry) : (postCq m p c mk).working = m.working := by simp only [postCq]; split <;> simp
@[simp] theorem postCq_hvl (m : Mod) (p c : Fin 16) (mk : Nat → Cq → CqEntry) : (postCq m p c mk).hvl = m.hvl := by simp only [postCq]; split <;> simp
@[simp] theorem postCq_front (m : Mod) (p c : Fin 16) (mk : Nat → Cq → CqEntry) : (postCq m p c mk).front = m.front := by simp only [postCq]; split <;> simp
@[simp] theorem postCq_fence (m : Mod) (p c : Fin 16) (mk : Nat → Cq → CqEntry) : (postCq m p c mk).fence = m.fence := by simp only [postCq]; split <;> simp
@[simp] theorem postCq_dir (m : Mod) (p c : Fin 16) (mk : Nat → Cq → CqEntry) : (postCq m p c mk).dir = m.dir := by simp only [postCq]; split <;> simp
@[simp] theorem postCq_sidNext (m : Mod) (p c : Fin 16) (mk : Nat → Cq → CqEntry) : (postCq m p c mk).sidNext = m.sidNext := by simp only [postCq]; split <;> simp
@[simp] theorem postCq_jr (m : Mod) (p c : Fin 16) (mk : Nat → Cq → CqEntry) : (postCq m p c mk).jr = m.jr := by simp only [postCq]; split <;> simp
@[simp] theorem postCq_own (m : Mod) (p c : Fin 16) (mk : Nat → Cq → CqEntry) : (postCq m p c mk).own = m.own := by simp only [postCq]; split <;> simp
@[simp] theorem postCq_peers (m : Mod) (p c : Fin 16) (mk : Nat → Cq → CqEntry) : (postCq m p c mk).peers = m.peers := by simp only [postCq]; split <;> simp
@[simp] theorem postCq_ftl (m : Mod) (p c : Fin 16) (mk : Nat → Cq → CqEntry) : (postCq m p c mk).ftl = m.ftl := by simp only [postCq]; split <;> simp
@[simp] theorem postCq_entropyOk (m : Mod) (p c : Fin 16) (mk : Nat → Cq → CqEntry) : (postCq m p c mk).entropyOk = m.entropyOk := by simp only [postCq]; split <;> simp
@[simp] theorem postCq_ctr (m : Mod) (p c : Fin 16) (mk : Nat → Cq → CqEntry) : (postCq m p c mk).ctr = m.ctr := by simp only [postCq]; split <;> simp
@[simp] theorem postCq_refetch (m : Mod) (p c : Fin 16) (mk : Nat → Cq → CqEntry) : (postCq m p c mk).refetch = m.refetch := by simp only [postCq]; split <;> simp
@[simp] theorem postCq_dirGone (m : Mod) (p c : Fin 16) (mk : Nat → Cq → CqEntry) : (postCq m p c mk).dirGone = m.dirGone := by simp only [postCq]; split <;> simp
@[simp] theorem postCq_free (m : Mod) (p c : Fin 16) (mk : Nat → Cq → CqEntry) : (postCq m p c mk).free = m.free := by simp only [postCq]; split <;> simp
@[simp] theorem postCq_sys (m : Mod) (p c : Fin 16) (mk : Nat → Cq → CqEntry) : (postCq m p c mk).sys = m.sys := by simp only [postCq]; split <;> simp

@[simp] theorem complete_working (m : Mod) (p : Fin 16) (tag : Nat) (r : Res) : (complete m p tag r).working = m.working := by unfold complete; split <;> simp
@[simp] theorem complete_hvl (m : Mod) (p : Fin 16) (tag : Nat) (r : Res) : (complete m p tag r).hvl = m.hvl := by unfold complete; split <;> simp
@[simp] theorem complete_front (m : Mod) (p : Fin 16) (tag : Nat) (r : Res) : (complete m p tag r).front = m.front := by unfold complete; split <;> simp
@[simp] theorem complete_fence (m : Mod) (p : Fin 16) (tag : Nat) (r : Res) : (complete m p tag r).fence = m.fence := by unfold complete; split <;> simp
@[simp] theorem complete_dir (m : Mod) (p : Fin 16) (tag : Nat) (r : Res) : (complete m p tag r).dir = m.dir := by unfold complete; split <;> simp
@[simp] theorem complete_sidNext (m : Mod) (p : Fin 16) (tag : Nat) (r : Res) : (complete m p tag r).sidNext = m.sidNext := by unfold complete; split <;> simp
@[simp] theorem complete_jr (m : Mod) (p : Fin 16) (tag : Nat) (r : Res) : (complete m p tag r).jr = m.jr := by unfold complete; split <;> simp
@[simp] theorem complete_own (m : Mod) (p : Fin 16) (tag : Nat) (r : Res) : (complete m p tag r).own = m.own := by unfold complete; split <;> simp
@[simp] theorem complete_peers (m : Mod) (p : Fin 16) (tag : Nat) (r : Res) : (complete m p tag r).peers = m.peers := by unfold complete; split <;> simp
@[simp] theorem complete_ftl (m : Mod) (p : Fin 16) (tag : Nat) (r : Res) : (complete m p tag r).ftl = m.ftl := by unfold complete; split <;> simp
@[simp] theorem complete_entropyOk (m : Mod) (p : Fin 16) (tag : Nat) (r : Res) : (complete m p tag r).entropyOk = m.entropyOk := by unfold complete; split <;> simp
@[simp] theorem complete_ctr (m : Mod) (p : Fin 16) (tag : Nat) (r : Res) : (complete m p tag r).ctr = m.ctr := by unfold complete; split <;> simp
@[simp] theorem complete_refetch (m : Mod) (p : Fin 16) (tag : Nat) (r : Res) : (complete m p tag r).refetch = m.refetch := by unfold complete; split <;> simp
@[simp] theorem complete_dirGone (m : Mod) (p : Fin 16) (tag : Nat) (r : Res) : (complete m p tag r).dirGone = m.dirGone := by unfold complete; split <;> simp
@[simp] theorem complete_free (m : Mod) (p : Fin 16) (tag : Nat) (r : Res) : (complete m p tag r).free = m.free := by unfold complete; split <;> simp
@[simp] theorem complete_sys (m : Mod) (p : Fin 16) (tag : Nat) (r : Res) : (complete m p tag r).sys = m.sys := by unfold complete; split <;> simp

@[simp] theorem mbxDone_working (m : Mod) (b : Box) (st : Nat) (res : Block) : (mbxDone m b st res).working = m.working := by unfold mbxDone; cases b <;> simp only <;> split <;> simp
@[simp] theorem mbxDone_hvl (m : Mod) (b : Box) (st : Nat) (res : Block) : (mbxDone m b st res).hvl = m.hvl := by unfold mbxDone; cases b <;> simp only <;> split <;> simp
@[simp] theorem mbxDone_fence (m : Mod) (b : Box) (st : Nat) (res : Block) : (mbxDone m b st res).fence = m.fence := by unfold mbxDone; cases b <;> simp only <;> split <;> simp
@[simp] theorem mbxDone_dir (m : Mod) (b : Box) (st : Nat) (res : Block) : (mbxDone m b st res).dir = m.dir := by unfold mbxDone; cases b <;> simp only <;> split <;> simp
@[simp] theorem mbxDone_sidNext (m : Mod) (b : Box) (st : Nat) (res : Block) : (mbxDone m b st res).sidNext = m.sidNext := by unfold mbxDone; cases b <;> simp only <;> split <;> simp
@[simp] theorem mbxDone_jr (m : Mod) (b : Box) (st : Nat) (res : Block) : (mbxDone m b st res).jr = m.jr := by unfold mbxDone; cases b <;> simp only <;> split <;> simp
@[simp] theorem mbxDone_own (m : Mod) (b : Box) (st : Nat) (res : Block) : (mbxDone m b st res).own = m.own := by unfold mbxDone; cases b <;> simp only <;> split <;> simp
@[simp] theorem mbxDone_peers (m : Mod) (b : Box) (st : Nat) (res : Block) : (mbxDone m b st res).peers = m.peers := by unfold mbxDone; cases b <;> simp only <;> split <;> simp
@[simp] theorem mbxDone_ftl (m : Mod) (b : Box) (st : Nat) (res : Block) : (mbxDone m b st res).ftl = m.ftl := by unfold mbxDone; cases b <;> simp only <;> split <;> simp
@[simp] theorem mbxDone_net (m : Mod) (b : Box) (st : Nat) (res : Block) : (mbxDone m b st res).net = m.net := by unfold mbxDone; cases b <;> simp only <;> split <;> simp
@[simp] theorem mbxDone_entropyOk (m : Mod) (b : Box) (st : Nat) (res : Block) : (mbxDone m b st res).entropyOk = m.entropyOk := by unfold mbxDone; cases b <;> simp only <;> split <;> simp
@[simp] theorem mbxDone_refetch (m : Mod) (b : Box) (st : Nat) (res : Block) : (mbxDone m b st res).refetch = m.refetch := by unfold mbxDone; cases b <;> simp only <;> split <;> simp
@[simp] theorem mbxDone_dirGone (m : Mod) (b : Box) (st : Nat) (res : Block) : (mbxDone m b st res).dirGone = m.dirGone := by unfold mbxDone; cases b <;> simp only <;> split <;> simp
@[simp] theorem mbxDone_free (m : Mod) (b : Box) (st : Nat) (res : Block) : (mbxDone m b st res).free = m.free := by unfold mbxDone; cases b <;> simp only <;> split <;> simp
@[simp] theorem mbxDone_sys (m : Mod) (b : Box) (st : Nat) (res : Block) : (mbxDone m b st res).sys = m.sys := by unfold mbxDone; cases b <;> simp only <;> split <;> simp

@[simp] theorem modWmb_working (m : Mod) (f : Wmb → Wmb) : (modWmb m f).working = m.working := rfl
@[simp] theorem modWmb_hvl (m : Mod) (f : Wmb → Wmb) : (modWmb m f).hvl = m.hvl := rfl
@[simp] theorem modWmb_front (m : Mod) (f : Wmb → Wmb) : (modWmb m f).front = m.front := rfl
@[simp] theorem modWmb_fence (m : Mod) (f : Wmb → Wmb) : (modWmb m f).fence = m.fence := rfl
@[simp] theorem modWmb_dir (m : Mod) (f : Wmb → Wmb) : (modWmb m f).dir = m.dir := rfl
@[simp] theorem modWmb_sidNext (m : Mod) (f : Wmb → Wmb) : (modWmb m f).sidNext = m.sidNext := rfl
@[simp] theorem modWmb_jr (m : Mod) (f : Wmb → Wmb) : (modWmb m f).jr = m.jr := rfl
@[simp] theorem modWmb_own (m : Mod) (f : Wmb → Wmb) : (modWmb m f).own = m.own := rfl
@[simp] theorem modWmb_peers (m : Mod) (f : Wmb → Wmb) : (modWmb m f).peers = m.peers := rfl
@[simp] theorem modWmb_ftl (m : Mod) (f : Wmb → Wmb) : (modWmb m f).ftl = m.ftl := rfl
@[simp] theorem modWmb_net (m : Mod) (f : Wmb → Wmb) : (modWmb m f).net = m.net := rfl
@[simp] theorem modWmb_entropyOk (m : Mod) (f : Wmb → Wmb) : (modWmb m f).entropyOk = m.entropyOk := rfl
@[simp] theorem modWmb_pol (m : Mod) (f : Wmb → Wmb) : (modWmb m f).pol = m.pol := rfl
@[simp] theorem modWmb_ctr (m : Mod) (f : Wmb → Wmb) : (modWmb m f).ctr = m.ctr := rfl
@[simp] theorem modWmb_refetch (m : Mod) (f : Wmb → Wmb) : (modWmb m f).refetch = m.refetch := rfl
@[simp] theorem modWmb_dirGone (m : Mod) (f : Wmb → Wmb) : (modWmb m f).dirGone = m.dirGone := rfl
@[simp] theorem modWmb_out (m : Mod) (f : Wmb → Wmb) : (modWmb m f).out = m.out := rfl
@[simp] theorem modWmb_free (m : Mod) (f : Wmb → Wmb) : (modWmb m f).free = m.free := rfl

@[simp] theorem wdDone_working (m : Mod) (st : Nat) (res : Block) : (wdDone m st res).working = m.working := by simp [wdDone]
@[simp] theorem wdDone_hvl (m : Mod) (st : Nat) (res : Block) : (wdDone m st res).hvl = m.hvl := by simp [wdDone]
@[simp] theorem wdDone_front (m : Mod) (st : Nat) (res : Block) : (wdDone m st res).front = m.front := by simp [wdDone]
@[simp] theorem wdDone_fence (m : Mod) (st : Nat) (res : Block) : (wdDone m st res).fence = m.fence := by simp [wdDone]
@[simp] theorem wdDone_dir (m : Mod) (st : Nat) (res : Block) : (wdDone m st res).dir = m.dir := by simp [wdDone]
@[simp] theorem wdDone_sidNext (m : Mod) (st : Nat) (res : Block) : (wdDone m st res).sidNext = m.sidNext := by simp [wdDone]
@[simp] theorem wdDone_jr (m : Mod) (st : Nat) (res : Block) : (wdDone m st res).jr = m.jr := by simp [wdDone]
@[simp] theorem wdDone_own (m : Mod) (st : Nat) (res : Block) : (wdDone m st res).own = m.own := by simp [wdDone]
@[simp] theorem wdDone_peers (m : Mod) (st : Nat) (res : Block) : (wdDone m st res).peers = m.peers := by simp [wdDone]
@[simp] theorem wdDone_ftl (m : Mod) (st : Nat) (res : Block) : (wdDone m st res).ftl = m.ftl := by simp [wdDone]
@[simp] theorem wdDone_net (m : Mod) (st : Nat) (res : Block) : (wdDone m st res).net = m.net := by simp [wdDone]
@[simp] theorem wdDone_entropyOk (m : Mod) (st : Nat) (res : Block) : (wdDone m st res).entropyOk = m.entropyOk := by simp [wdDone]
@[simp] theorem wdDone_pol (m : Mod) (st : Nat) (res : Block) : (wdDone m st res).pol = m.pol := by simp [wdDone]
@[simp] theorem wdDone_ctr (m : Mod) (st : Nat) (res : Block) : (wdDone m st res).ctr = m.ctr := by simp [wdDone]
@[simp] theorem wdDone_refetch (m : Mod) (st : Nat) (res : Block) : (wdDone m st res).refetch = m.refetch := by simp [wdDone]
@[simp] theorem wdDone_dirGone (m : Mod) (st : Nat) (res : Block) : (wdDone m st res).dirGone = m.dirGone := by simp [wdDone]
@[simp] theorem wdDone_free (m : Mod) (st : Nat) (res : Block) : (wdDone m st res).free = m.free := by simp [wdDone]

@[simp] theorem logFault_working (m : Mod) (ty idx fault action : Nat) (env : Bool) (detail : Block) : (logFault m ty idx fault action env detail).working = m.working := by simp only [logFault]; split <;> (try split) <;> (try split) <;> simp
@[simp] theorem logFault_hvl (m : Mod) (ty idx fault action : Nat) (env : Bool) (detail : Block) : (logFault m ty idx fault action env detail).hvl = m.hvl := by simp only [logFault]; split <;> (try split) <;> (try split) <;> simp
@[simp] theorem logFault_front (m : Mod) (ty idx fault action : Nat) (env : Bool) (detail : Block) : (logFault m ty idx fault action env detail).front = m.front := by simp only [logFault]; split <;> (try split) <;> (try split) <;> simp
@[simp] theorem logFault_fence (m : Mod) (ty idx fault action : Nat) (env : Bool) (detail : Block) : (logFault m ty idx fault action env detail).fence = m.fence := by simp only [logFault]; split <;> (try split) <;> (try split) <;> simp
@[simp] theorem logFault_dir (m : Mod) (ty idx fault action : Nat) (env : Bool) (detail : Block) : (logFault m ty idx fault action env detail).dir = m.dir := by simp only [logFault]; split <;> (try split) <;> (try split) <;> simp
@[simp] theorem logFault_sidNext (m : Mod) (ty idx fault action : Nat) (env : Bool) (detail : Block) : (logFault m ty idx fault action env detail).sidNext = m.sidNext := by simp only [logFault]; split <;> (try split) <;> (try split) <;> simp
@[simp] theorem logFault_jr (m : Mod) (ty idx fault action : Nat) (env : Bool) (detail : Block) : (logFault m ty idx fault action env detail).jr = m.jr := by simp only [logFault]; split <;> (try split) <;> (try split) <;> simp
@[simp] theorem logFault_own (m : Mod) (ty idx fault action : Nat) (env : Bool) (detail : Block) : (logFault m ty idx fault action env detail).own = m.own := by simp only [logFault]; split <;> (try split) <;> (try split) <;> simp
@[simp] theorem logFault_peers (m : Mod) (ty idx fault action : Nat) (env : Bool) (detail : Block) : (logFault m ty idx fault action env detail).peers = m.peers := by simp only [logFault]; split <;> (try split) <;> (try split) <;> simp
@[simp] theorem logFault_ftl (m : Mod) (ty idx fault action : Nat) (env : Bool) (detail : Block) : (logFault m ty idx fault action env detail).ftl = m.ftl := by simp only [logFault]; split <;> (try split) <;> (try split) <;> simp
@[simp] theorem logFault_net (m : Mod) (ty idx fault action : Nat) (env : Bool) (detail : Block) : (logFault m ty idx fault action env detail).net = m.net := by simp only [logFault]; split <;> (try split) <;> (try split) <;> simp
@[simp] theorem logFault_entropyOk (m : Mod) (ty idx fault action : Nat) (env : Bool) (detail : Block) : (logFault m ty idx fault action env detail).entropyOk = m.entropyOk := by simp only [logFault]; split <;> (try split) <;> (try split) <;> simp
@[simp] theorem logFault_pol (m : Mod) (ty idx fault action : Nat) (env : Bool) (detail : Block) : (logFault m ty idx fault action env detail).pol = m.pol := by simp only [logFault]; split <;> (try split) <;> (try split) <;> simp
@[simp] theorem logFault_refetch (m : Mod) (ty idx fault action : Nat) (env : Bool) (detail : Block) : (logFault m ty idx fault action env detail).refetch = m.refetch := by simp only [logFault]; split <;> (try split) <;> (try split) <;> simp
@[simp] theorem logFault_dirGone (m : Mod) (ty idx fault action : Nat) (env : Bool) (detail : Block) : (logFault m ty idx fault action env detail).dirGone = m.dirGone := by simp only [logFault]; split <;> (try split) <;> (try split) <;> simp

@[simp] theorem stopWork_hvl (m : Mod) : (stopWork m).hvl = m.hvl := rfl
@[simp] theorem stopWork_front (m : Mod) : (stopWork m).front = m.front := rfl
@[simp] theorem stopWork_fence (m : Mod) : (stopWork m).fence = m.fence := rfl
@[simp] theorem stopWork_dir (m : Mod) : (stopWork m).dir = m.dir := rfl
@[simp] theorem stopWork_sidNext (m : Mod) : (stopWork m).sidNext = m.sidNext := rfl
@[simp] theorem stopWork_jr (m : Mod) : (stopWork m).jr = m.jr := rfl
@[simp] theorem stopWork_own (m : Mod) : (stopWork m).own = m.own := rfl
@[simp] theorem stopWork_peers (m : Mod) : (stopWork m).peers = m.peers := rfl
@[simp] theorem stopWork_ftl (m : Mod) : (stopWork m).ftl = m.ftl := rfl
@[simp] theorem stopWork_entropyOk (m : Mod) : (stopWork m).entropyOk = m.entropyOk := rfl
@[simp] theorem stopWork_pol (m : Mod) : (stopWork m).pol = m.pol := rfl
@[simp] theorem stopWork_ctr (m : Mod) : (stopWork m).ctr = m.ctr := rfl
@[simp] theorem stopWork_refetch (m : Mod) : (stopWork m).refetch = m.refetch := rfl
@[simp] theorem stopWork_dirGone (m : Mod) : (stopWork m).dirGone = m.dirGone := rfl
@[simp] theorem stopWork_out (m : Mod) : (stopWork m).out = m.out := rfl
@[simp] theorem stopWork_free (m : Mod) : (stopWork m).free = m.free := rfl
@[simp] theorem stopWork_sys (m : Mod) : (stopWork m).sys = m.sys := rfl

@[simp] theorem stopWork_working (m : Mod) : (stopWork m).working = false := rfl


/-- The polder changed is the one named. -/
@[simp] theorem modPol_pol_same (m : Mod) (p : Fin 16) (f : Polder → Polder) : (modPol m p f).pol[p.val] = f m.pol[p.val] := by
  simp [modPol]

/-- Every other polder stays. -/
theorem modPol_pol_other (m : Mod) (p q : Fin 16) (f : Polder → Polder) (h : q ≠ p) : (modPol m p f).pol[q.val] = m.pol[q.val] := by
  have h1 : p.val ≠ q.val := fun e => h (Fin.ext e.symm)
  simp [modPol, Vector.getElem_set_ne, h1]

/-- Both at once. -/
theorem modPol_pol (m : Mod) (p q : Fin 16) (f : Polder → Polder) : (modPol m p f).pol[q] = if q = p then f m.pol[p] else m.pol[q] := by
  by_cases h : q = p
  · subst h; simp
  · simp [h, modPol_pol_other m p q f h]

/-- A mailbox read back after a change of it. -/
@[simp] theorem getMbx_modMbx (m : Mod) (b : Box) (f : Mbx → Mbx) : getMbx (modMbx m b f) b = f (getMbx m b) := by
  cases b with
  | mgmt => rfl
  | pol p => simp [getMbx, modMbx]

/-- A mailbox keeps its contents when another is changed. -/
theorem getMbx_modMbx_other (m : Mod) (b c : Box) (f : Mbx → Mbx) (h : c ≠ b) : getMbx (modMbx m b f) c = getMbx m c := by
  cases b with
  | mgmt => cases c with
    | mgmt => exact absurd rfl h
    | pol q => rfl
  | pol p => cases c with
    | mgmt => rfl
    | pol q =>
      have hq : q ≠ p := fun e => h (by rw [e])
      simp [getMbx, modMbx, modPol_pol_other m p q _ hq]

/-- Of the polder named, a counter raised changes the counters alone. -/
@[simp] theorem pinc_pol_same (m : Mod) (p : Fin 16) (k n : Nat) :
    (pinc m p k n).pol[p.val] = { m.pol[p.val] with ctr := m.pol[p.val].ctr.inc k n } := by
  simp [pinc]

end Sys2Proof.Machine
end

