-- ==== Sys2Proof/Laws/Store.lean ====
section
/-! SUPPORT. Sparse tables: what reading, writing and deleting do, and that each keeps the canonical form. -/

namespace Sys2Proof.Machine

theorem SMap.above_mono {α : Type} {m : SMap α} {a b : Nat} (h : m.above b = true) (hab : a ≤ b) : m.above a = true := by
  cases m with
  | nil => rfl
  | cons e t =>
    obtain ⟨k, v⟩ := e
    simp only [SMap.above, Bool.and_eq_true, decide_eq_true_eq] at h ⊢
    exact ⟨Nat.le_trans hab h.1, h.2⟩

/-- A key below every key of a table is not in it. -/
theorem SMap.get_of_lt {α : Type} {m : SMap α} {x lo : Nat} (h : m.above lo = true) (hx : x < lo) : m.get x = none := by
  cases m with
  | nil => rfl
  | cons e t =>
    obtain ⟨k, v⟩ := e
    simp only [SMap.above, Bool.and_eq_true, decide_eq_true_eq] at h
    have h1 : (x == k) = false := by simp; omega
    have h2 : x < k := by omega
    simp [SMap.get, h1, h2]

theorem SMap.above_put {α : Type} {m : SMap α} {lo x : Nat} {v : α} (h : m.above lo = true) (hx : lo ≤ x) : (m.put x v).above lo = true := by
  induction m generalizing lo with
  | nil => simp [SMap.put, SMap.above, hx]
  | cons e t ih =>
    obtain ⟨k, w⟩ := e
    simp only [SMap.above, Bool.and_eq_true, decide_eq_true_eq] at h
    unfold SMap.put
    split
    · simp [SMap.above, h]
    · split
      · rename_i h1 h2
        simp only [SMap.above, Bool.and_eq_true, decide_eq_true_eq]
        exact ⟨hx, by omega, h.2⟩
      · rename_i h1 h2
        simp only [SMap.above, Bool.and_eq_true, decide_eq_true_eq]
        simp only [beq_iff_eq] at h1
        exact ⟨h.1, ih h.2 (by omega)⟩

theorem SMap.above_del {α : Type} {m : SMap α} {lo x : Nat} (h : m.above lo = true) : (m.del x).above lo = true := by
  induction m generalizing lo with
  | nil => rfl
  | cons e t ih =>
    obtain ⟨k, w⟩ := e
    simp only [SMap.above, Bool.and_eq_true, decide_eq_true_eq] at h
    unfold SMap.del
    split
    · exact SMap.above_mono h.2 (by omega)
    · split
      · simp [SMap.above, h]
      · simp only [SMap.above, Bool.and_eq_true, decide_eq_true_eq]
        exact ⟨h.1, ih h.2⟩

theorem SMap.above_map {α β : Type} {m : SMap α} {lo : Nat} (f : Nat × α → Nat × β) (hf : ∀ e, (f e).1 = e.1) (h : m.above lo = true) :
    SMap.above lo (m.map f) = true := by
  induction m generalizing lo with
  | nil => rfl
  | cons e t ih =>
    obtain ⟨k, w⟩ := e
    simp only [SMap.above, Bool.and_eq_true, decide_eq_true_eq] at h
    have := hf (k, w)
    cases hfe : f (k, w) with
    | mk k' v' =>
      rw [hfe] at this
      simp only at this
      subst this
      simp only [List.map, hfe, SMap.above, Bool.and_eq_true, decide_eq_true_eq]
      exact ⟨h.1, ih h.2⟩

theorem SMap.above_filter {α : Type} {m : SMap α} {lo : Nat} (f : Nat × α → Bool) (h : m.above lo = true) : SMap.above lo (m.filter f) = true := by
  induction m generalizing lo with
  | nil => rfl
  | cons e t ih =>
    obtain ⟨k, w⟩ := e
    simp only [SMap.above, Bool.and_eq_true, decide_eq_true_eq] at h
    simp only [List.filter]
    split
    · simp only [SMap.above, Bool.and_eq_true, decide_eq_true_eq]
      exact ⟨h.1, ih h.2⟩
    · exact SMap.above_mono (ih h.2) (by omega)

/-- Every table operation keeps the canonical form. -/
theorem SMap.wf_put {α : Type} {m : SMap α} {x : Nat} {v : α} (h : m.wf = true) : (m.put x v).wf = true := SMap.above_put h (Nat.zero_le _)
theorem SMap.wf_del {α : Type} {m : SMap α} {x : Nat} (h : m.wf = true) : (m.del x).wf = true := SMap.above_del h
theorem SMap.wf_upd {α : Type} {m : SMap α} {x : Nat} {f : α → α} (h : m.wf = true) : (m.upd x f).wf = true :=
  SMap.above_map _ (fun e => by by_cases hx : (e.1 == x) = true <;> simp [hx]) h
theorem SMap.wf_mapKV {α : Type} {m : SMap α} {f : Nat → α → α} (h : m.wf = true) : (m.mapKV f).wf = true :=
  SMap.above_map _ (fun _ => rfl) h
theorem SMap.wf_sel {α : Type} {m : SMap α} {f : Nat → α → Bool} (h : m.wf = true) : (m.sel f).wf = true := SMap.above_filter _ h

/-- A value written is the value read. -/
@[simp] theorem SMap.get_put_same {α : Type} (m : SMap α) (x : Nat) (v : α) : (m.put x v).get x = some v := by
  induction m with
  | nil => simp [SMap.put, SMap.get]
  | cons e t ih =>
    obtain ⟨k, w⟩ := e
    unfold SMap.put
    split
    · rename_i h
      simp only [beq_iff_eq] at h
      simp [SMap.get, h]
    · split
      · simp [SMap.get]
      · rename_i h1 h2
        simp [SMap.get, h1, h2, ih]

/-- A table with its keys moved up: every key is at least a bound. -/
theorem SMap.above_tail {α : Type} {k lo : Nat} {v : α} {t : SMap α} (h : SMap.above lo ((k, v) :: t) = true) : t.above (k + 1) = true := by
  simp only [SMap.above, Bool.and_eq_true] at h
  exact h.2

/-- Other keys read as before. -/
theorem SMap.get_put_other {α : Type} (m : SMap α) {x y : Nat} (v : α) (hxy : y ≠ x) : (m.put x v).get y = m.get y := by
  induction m with
  | nil => by_cases h1 : y < x <;> simp [SMap.put, SMap.get, hxy]
  | cons e t ih =>
    obtain ⟨k, w⟩ := e
    unfold SMap.put
    split
    · rename_i hk
      simp only [beq_iff_eq] at hk
      subst hk
      simp [SMap.get, hxy]
    · split
      · rename_i h1 h2
        by_cases h3 : y < x
        · have h4 : y ≠ k := by omega
          have h5 : y < k := by omega
          simp [SMap.get, hxy, h3, h4, h5]
        · have h6 : SMap.get ((x, v) :: (k, w) :: t) y = SMap.get ((k, w) :: t) y := by
            rw [SMap.get]
            simp [hxy, h3]
          exact h6
      · rw [SMap.get, SMap.get]
        split
        · rfl
        · split
          · rfl
          · exact ih

theorem SMap.upd_cons {α : Type} (k : Nat) (w : α) (t : SMap α) (x : Nat) (f : α → α) :
    SMap.upd ((k, w) :: t) x f = (k, if k == x then f w else w) :: SMap.upd t x f := by
  simp only [SMap.upd, List.map_cons]
  split <;> rfl

/-- A value changed in place: its key reads the new value, every other key reads as before. -/
theorem SMap.get_upd {α : Type} (m : SMap α) (x y : Nat) (f : α → α) : (m.upd x f).get y = if y = x then (m.get y).map f else m.get y := by
  induction m with
  | nil => simp [SMap.upd, SMap.get]
  | cons e t ih =>
    obtain ⟨k, w⟩ := e
    rw [SMap.upd_cons, SMap.get, SMap.get, ih]
    by_cases hy : y = k
    · subst hy
      by_cases hk : y = x <;> simp [hk]
    · by_cases h2 : y < k <;> simp [hy, h2]

/-- A deleted key is not read again. -/
theorem SMap.get_del_same {α : Type} {m : SMap α} {x : Nat} (h : m.wf = true) : (m.del x).get x = none := by
  have key : ∀ (m : SMap α) (lo : Nat), m.above lo = true → (m.del x).get x = none := by
    intro m
    induction m with
    | nil => intro lo _; rfl
    | cons e t ih =>
      obtain ⟨k, w⟩ := e
      intro lo h
      have ht := SMap.above_tail h
      unfold SMap.del
      split
      · rename_i hk
        simp only [beq_iff_eq] at hk
        exact SMap.get_of_lt ht (by omega)
      · split
        · rename_i h1 h2
          simp [SMap.get, h1, h2]
        · rename_i h1 h2
          rw [SMap.get]
          simp only [h1, h2]
          exact ih (k + 1) ht
  exact key m 0 h

/-- A counter table: what writing leaves in the one counter. -/
theorem Ctrs.rd_wr_same {c : Ctrs} {k v : Nat} (h : SMap.wf c = true) : (c.wr k v).rd k = v % 2 ^ 64 := by
  unfold Ctrs.wr Ctrs.rd
  split
  · rename_i hz
    simp only [beq_iff_eq] at hz
    rw [SMap.get_del_same h, hz]
    rfl
  · simp

end Sys2Proof.Machine
end

