-- ==== Sys2Proof/Laws/Ops.lean ====
section
/-! SUPPORT. What each shared operation can do, said once: how a command becomes a step, how rows start their command, completions and mailboxes. -/

namespace Sys2Proof.Machine

-- How a command becomes a step.

theorem work_on {s : State} {f : Fuses → Mod → Mod} (h : s.m.working = true) : work s f = after s (f s.fuses s.m) := by
  simp [work, after, h]

theorem work_off {s : State} {f : Fuses → Mod → Mod} (h : s.m.working = false) : work s f = .next s := by
  simp [work, h]

theorem workF_off {s : State} {f : Fuses → Mod → Fuses × Mod} (h : s.m.working = false) : workF s f = .next s := by
  simp [workF, h]

theorem always_eq {s : State} {f : Fuses → Mod → Mod} : always s f = withMod s (f s.fuses s.m) := rfl

/-- A command that can blow no fuse leaves queue and fuses. -/
theorem work_next (s : State) (f : Fuses → Mod → Mod) : ∃ m, work s f = .next { s with m := m } := ⟨_, rfl⟩

theorem always_next (s : State) (f : Fuses → Mod → Mod) : ∃ m, always s f = .next { s with m := m } := ⟨_, rfl⟩

-- What starts a row's command.

theorem ringRow_takes {m : Mod} {p : Fin 16} {tag op : Nat} {f : Taken → Mod → Mod} {t : Taken} (h : startable m.pol[p] tag op = some t) :
    ringRow m p tag op f = f t (begun m p tag) := by
  unfold ringRow
  rw [h]
  rfl

theorem ringRow_waits {m : Mod} {p : Fin 16} {tag op : Nat} {f : Taken → Mod → Mod} (h : startable m.pol[p] tag op = none) :
    ringRow m p tag op f = m := by
  unfold ringRow
  rw [h]

/-- A command that may start has been taken with its TAG and opcode, and has not started. -/
theorem startable_spec {q : Polder} {tag op : Nat} {t : Taken} (h : startable q tag op = some t) :
    findTaken q tag = some t ∧ t.opcode = op ∧ t.started = false ∧ afterHeld q t = false := by
  unfold startable at h
  split at h
  · cases h
  · rename_i t' ht
    simp only [Option.ite_none_right_eq_some, Option.some.injEq, Bool.and_eq_true, beq_iff_eq, Bool.not_eq_true'] at h
    obtain ⟨hc, rfl⟩ := h
    exact ⟨ht, hc.1.1.1, hc.1.1.2, hc.1.2⟩

theorem startable_tag {q : Polder} {tag op : Nat} {t : Taken} (h : startable q tag op = some t) : t.tag = tag := by
  have h1 := (startable_spec h).1
  have h2 := List.find?_some h1
  simpa using h2

theorem mbxRow_accepts {m : Mod} {b : Box} {op : Nat} {f : Block → Mod → Mod} (h1 : (getMbx m b).busy = true) (h2 : (getMbx m b).started = false)
    (h3 : (getMbx m b).runCmd % 256 = op) (h4 : m.sys.wd.coresWedged = false) (h5 : m.sys.wd.sealed = false) (h6 : b = .mgmt ∨ m.sys.fw.act = none) :
    mbxRow m b op f = f (getMbx m b).runArg (mbxBegun m b) := by
  have h7 : (b == Box.mgmt || m.sys.fw.act.isNone || op == 0x86) = true := by
    rcases h6 with h | h <;> simp [h]
  simp only [mbxRow, h1, h2, h3, h4, h5, h7]
  simp [mbxBegun]

theorem wdRow_accepts {m : Mod} {op : Nat} {f : Block → Mod → Mod} (h1 : m.sys.wd.mbx.busy = true) (h2 : m.sys.wd.mbx.started = false)
    (h3 : m.sys.wd.mbx.runCmd % 256 = op) : wdRow m op f = f m.sys.wd.mbx.runArg (wdBegun m) := by
  simp only [wdRow, h1, h2, h3]
  simp [wdBegun]

-- Mailboxes.

/-- The end of a mailbox command leaves its mailbox idle and DONE with the status and the result. -/
theorem mbxDone_mbx (m : Mod) (b : Box) (st : Nat) (res : Block) :
    getMbx (mbxDone m b st res) b = { getMbx m b with res := res, status := st, busy := false, done := true, started := false } := by
  cases b with
  | mgmt =>
    simp only [mbxDone]
    split
    · unfold mgmtIrq
      split <;> simp [getMbx, modMbx]
    · simp [getMbx, modMbx]
  | pol p =>
    simp only [mbxDone]
    split
    · unfold polIrq
      split <;> simp [getMbx, modMbx]
    · simp [getMbx, modMbx]

-- Interrupts and completions leave the module's other parts.

theorem mgmtIrq_eq (m : Mod) (n : Nat) : mgmtIrq m n = { m with out := (mgmtIrq m n).out } := by
  unfold mgmtIrq
  split <;> rfl

theorem polIrq_eq (m : Mod) (p : Fin 16) (v : Nat) : polIrq m p v = { m with out := (polIrq m p v).out } := by
  unfold polIrq
  split <;> rfl

theorem complete_missing {m : Mod} {p : Fin 16} {tag : Nat} {r : Res} (h : findTaken m.pol[p] tag = none) : complete m p tag r = m := by
  unfold complete
  rw [h]

theorem m2h_pol_other (m : Mod) (p q : Fin 16) (n : Nat) (h : q ≠ p) : (m2h m p n).pol[q.val] = m.pol[q.val] := modPol_pol_other _ _ _ _ h

/-- A posted entry leaves the directory, the journal, the fences, the flash and the units that serve the whole module. -/
theorem postCq_frame (m : Mod) (p c : Fin 16) (mk : Nat → Cq → CqEntry) :
    (postCq m p c mk).dir = m.dir ∧ (postCq m p c mk).jr = m.jr ∧ (postCq m p c mk).fence = m.fence ∧ (postCq m p c mk).ftl = m.ftl ∧
    (postCq m p c mk).sys = m.sys ∧ (postCq m p c mk).front = m.front ∧ (postCq m p c mk).peers = m.peers ∧ (postCq m p c mk).hvl = m.hvl := by
  simp

/-- A message at the front of its lane goes to its consumer, once. -/
theorem deliver_arrived {m : Mod} {src srcPol dstPol lane ty : Nat} {f : Mod → Mod} (h : Arrived m src srcPol dstPol lane ty) :
    deliver m src srcPol dstPol lane ty f = f (unlaned m src lane) := by
  obtain ⟨z, rest, h1, h2, h3, h4, h5, h6, h7⟩ := h
  have h8 : (decide (4096 ≤ src) && ty != 0x0B) = false := by
    rcases h6 with h | h
    · simp; omega
    · simp [h]
  have h9 : (!moduleLevel ty && m.pol[pn dstPol].fenced) = false := by
    rcases h7 with h | h
    · rw [h]; rfl
    · rw [h]; simp
  have h10 : (putLane m (laneKey src lane) { laneOf m (laneKey src lane) with inbox := rest }).pol = m.pol := rfl
  simp only [deliver, h1, h2, h3, h4, h5, h8, unlaned, List.tail]
  simp only [h10, h9]
  simp

-- What ends a stop on the way to a result: nothing else happens to a dissolving polder.

theorem dissolveGo_none {m : Mod} {p : Fin 16} (h : m.pol[p].diss = none) : dissolveGo m p = m := by
  unfold dissolveGo
  rw [h]

-- What a statement's premise about a command says of its row.

theorem accepts_runs {s : State} {b : Box} {op : Nat} (h : Accepts s b op) (f : Block → Mod → Mod) : mbxRow s.m b op f = f (argOf s b) (mbxBegun s.m b) :=
  mbxRow_accepts h.2.1 h.2.2.1 h.2.2.2.1 h.2.2.2.2.1 h.2.2.2.2.2.1 h.2.2.2.2.2.2

theorem wdAccepts_runs {s : State} {op : Nat} (h : WdAccepts s op) (f : Block → Mod → Mod) : wdRow s.m op f = f s.m.sys.wd.mbx.runArg (wdBegun s.m) :=
  wdRow_accepts h.2.1 h.2.2.1 h.2.2.2

theorem takes_runs {s : State} {p : Fin 16} {tag op : Nat} {t : Taken} (h : Takes s p tag op t) (f : Taken → Mod → Mod) :
    ringRow s.m p tag op f = f t (begun s.m p tag) := ringRow_takes h.2

theorem takesForm_runs {s : State} {p : Fin 16} {tag op : Nat} {t : Taken} {form : Block → Bool} (h : TakesForm s p tag op form t) (f : Taken → Mod → Mod) :
    ringRowIf s.m p tag op form f = f t (begun s.m p tag) := by
  have h1 := startable_spec h.2.1
  unfold ringRowIf
  rw [h1.1, ringRow_takes h.2.1]
  simp [h.2.2, begun]

theorem takes_tag {s : State} {p : Fin 16} {tag op : Nat} {t : Taken} (h : Takes s p tag op t) : t.tag = tag := startable_tag h.2

theorem takesForm_tag {s : State} {p : Fin 16} {tag op : Nat} {t : Taken} {form : Block → Bool} (h : TakesForm s p tag op form t) : t.tag = tag :=
  startable_tag h.2.1

-- The descriptor cache and the pages a command needs.

/-- A descriptor read through its cache changes nothing of its polder but the cache and the counters (R91, R117). -/
theorem cacheUse_keeps {α : Type} (f : Polder → α) (hf : ∀ q c k, f { q with cache := c, ctr := k } = f q) (m : Mod) (p : Fin 16) (idx : Nat) :
    f (cacheUse m p idx).pol[p] = f m.pol[p] := by
  have h1 : ∀ (m : Mod) a n, f (pinc m p a n).pol[p] = f m.pol[p] := by
    intro m a n
    unfold pinc
    rw [modPol_pol, if_pos rfl]
    exact hf _ m.pol[p].cache _
  have h2 : ∀ (m : Mod) (c : Polder → List (Nat × Bool)), f (modPol m p (fun q => { q with cache := c q })).pol[p] = f m.pol[p] := by
    intro m c
    rw [modPol_pol, if_pos rfl]
    exact hf _ _ m.pol[p].ctr
  have h3 : f (wfqServe m p 7 1).pol[p] = f m.pol[p] := h1 _ _ _
  unfold cacheUse
  simp only
  split
  · rw [h2, h1, h3]
  · unfold cacheInstall
    simp only
    split
    · rw [h1, h3]
    · rw [h2, h1, h3]

/-- A descriptor read through its cache leaves the directory. -/
theorem cacheUse_dir (m : Mod) (p : Fin 16) (idx : Nat) : (cacheUse m p idx).dir = m.dir := by
  unfold cacheUse
  simp only
  split
  · rfl
  · unfold cacheInstall
    simp only
    split <;> rfl

/-- Pages that are there, none of them LOST. -/
theorem pages_there {m : Mod} {p : Fin 16} {ns : List Nat} (h : ∀ n ∈ ns, ∀ g, getPage m p n = some g → present g = true ∧ g.st ≠ .lost) :
    (ns.filterMap (getPage m p)).any (fun g => g.st == .lost) = false ∧ (ns.filterMap (getPage m p)).all present = true := by
  refine ⟨?_, ?_⟩
  · simp only [List.any_eq_false, List.mem_filterMap]
    rintro g ⟨n, hn, hg⟩
    simp [(h n hn g hg).2]
  · simp only [List.all_eq_true, List.mem_filterMap]
    rintro g ⟨n, hn, hg⟩
    exact (h n hn g hg).1

/-- A command whose pages are there does its work at once (R46). -/
theorem withPages_there {m : Mod} {p : Fin 16} {tag : Nat} {ns : List Nat} {f : Mod → Mod}
    (h : ∀ n ∈ ns, ∀ g, getPage m p n = some g → present g = true ∧ g.st ≠ .lost) : withPages m p tag ns f = f m := by
  have h1 := pages_there h
  simp only [withPages, h1]
  simp

/-- A command that needs a LOST page ends with TIER_LOST (R67). -/
theorem withPages_lost {m : Mod} {p : Fin 16} {tag : Nat} {ns : List Nat} {f : Mod → Mod} {n : Nat} {g : Page} (h : n ∈ ns)
    (h1 : getPage m p n = some g) (h2 : g.st = .lost) : withPages m p tag ns f = complete m p tag (rSt stTierLost) := by
  have h3 : (ns.filterMap (getPage m p)).any (fun g => g.st == .lost) = true := by
    simp only [List.any_eq_true, List.mem_filterMap]
    exact ⟨g, ⟨n, h, h1⟩, by simp [h2]⟩
  simp only [withPages, h3]
  simp

/-- A page acknowledged in a block is acknowledged there, and holds no old contents (R72). -/
theorem ackUnit_unit {m : Mod} {u blk : Nat} {x : ToeUnit} (h : m.ftl.units.get u = some x) :
    (ackUnit m u blk).ftl.units.get u = some { x with acked := true, blk := blk, old := none } := by
  unfold ackUnit
  rw [h]
  simp only [programRow, modChan]
  split <;> simp

-- Ports.

theorem modPort_same (m : Mod) (k : Fin 4) (f : Port → Port) : (modPort m k f).net.ports[k] = f m.net.ports[k] := by simp [modPort]

theorem modPort_other (m : Mod) (k j : Fin 4) (f : Port → Port) (h : j ≠ k) : (modPort m k f).net.ports[j] = m.net.ports[j] := by
  have : k.val ≠ j.val := fun e => h (Fin.ext e.symm)
  simp [modPort, Vector.getElem_set, this]

-- Culvert frames, with the module and the lane named.

/-- A new DATA frame is kept once, acknowledged as the sixteenth, and its lane's whole messages delivered (R466). -/
theorem culvertData_new {m0 : Mod} {t port : Nat} {w : Wire} {m : Mod} {l : Lane} {n : Nat} (h : takeRx (tickHvl m0 t) 0 = some ((port, w), m))
    (h1 : w.check = true) (h2 : w.ty ≠ 0x08) (h3 : laneOf (heard m w.src) (laneKey w.src (w.lane % 2)) = l) (h4 : unwrap l.rxNext w.psn = some n)
    (h5 : l.rxSeen.contains n = false) :
    culvertData m0 t = (
      let l1 := slide { l with
        sinceAck := l.sinceAck + 1, oldest := some (l.oldest.getD (heard m w.src).hvl), ece := l.ece || w.ce, rxSeen := l.rxSeen ++ [n]
        rxFrames := l.rxFrames ++
          [RxFrame.mk n ((unwrap l.rxMsg w.msg).getD w.msg) w.seg w.last w.ty w.srcPol w.dstPol port w.sealed w.keygen w.auth] } (l.rxSeen.length + 1)
      let m2 := putLane (heard m w.src) (laneKey w.src (w.lane % 2)) l1
      deliverN (if 16 ≤ l1.sinceAck then sendAck m2 (laneKey w.src (w.lane % 2)) else m2) w.src (laneKey w.src (w.lane % 2)) (l1.rxFrames.length + 1)) := by
  have hty : (w.ty == 8) = false := by simpa using h2
  unfold culvertData
  rw [h]
  simp only [h1, hty, h3, h4, h5]
  simp

/-- A DATA frame received before is not kept again (R466). -/
theorem culvertData_taken {m0 : Mod} {t port : Nat} {w : Wire} {m : Mod} {l : Lane} {n : Nat} (h : takeRx (tickHvl m0 t) 0 = some ((port, w), m))
    (h1 : w.check = true) (h2 : w.ty ≠ 0x08) (h3 : laneOf (heard m w.src) (laneKey w.src (w.lane % 2)) = l) (h4 : unwrap l.rxNext w.psn = some n)
    (h5 : l.rxSeen.contains n = true) (h6 : l.sinceAck < 15) :
    culvertData m0 t = deliverN (putLane (heard m w.src) (laneKey w.src (w.lane % 2)) { l with
      sinceAck := l.sinceAck + 1, oldest := some (l.oldest.getD (heard m w.src).hvl), ece := l.ece || w.ce }) w.src (laneKey w.src (w.lane % 2))
      (l.rxFrames.length + 1) := by
  have hty : (w.ty == 8) = false := by simpa using h2
  unfold culvertData
  rw [h]
  simp only [h1, hty, h3, h4, h5]
  have : ¬ 16 ≤ l.sinceAck + 1 := by omega
  simp [this]

/-- An ACK that names every frame not yet acknowledged empties the lane's window (R466). -/
theorem culvertAck_all {m0 : Mod} {t port : Nat} {w : Wire} {m : Mod} {l : Lane} {ap : Nat} (h : takeRx (tickHvl m0 t) 1 = some ((port, w), m))
    (h1 : w.check = true) (h2 : w.ece = false) (h3 : laneOf (heard m w.src) (laneKey w.src (w.lane % 2)) = l) (h6 : l.unacked ≠ [])
    (h4 : unwrap (((l.unacked.head?).map CulFrame.psn).getD l.nextPsn) w.ackPsn = some ap) (h5 : ap ≤ l.nextPsn) (h9 : ∀ f ∈ l.unacked, f.psn < ap) :
    culvertAck m0 t = pumpAll (replAcked (putLane (heard m w.src) (laneKey w.src (w.lane % 2)) { l with
      unacked := [], win := if l.grow < ap then min (laneWin (laneKey w.src (w.lane % 2))) (l.win + 1) else l.win
      grow := if l.grow < ap then l.nextPsn else l.grow }) w.src) (laneKey w.src (w.lane % 2)) := by
  have hg : l.unacked.filter (fun f => !(decide (f.psn < ap) || (decide (ap < f.psn) && decide (f.psn - ap - 1 < 64) && bit w.bitmap (f.psn - ap - 1)))) = [] := by
    rw [List.filter_eq_nil_iff]; intro f hf; simp [h9 f hf]
  have : 0 < l.unacked.length := by
    cases hh : l.unacked
    · exact absurd hh h6
    · simp
  unfold culvertAck
  rw [h]
  simp only [h1, h3, h4, Nat.not_lt.mpr h5, if_false, hg]
  simp [resend, h2, this]

end Sys2Proof.Machine
end

