-- ==== Sys2Proof/WellFormed.lean ====
section
/-! DEFINITION. Which commands are well formed: each operand within the width or range the spec gives its field. The meanings take every command; a field
wider than its register is cut where it is used. -/

namespace Sys2Proof

def okTag (x : Nat) : Bool := decide (x < 2 ^ 16)
def okByte (x : Nat) : Bool := decide (x < 2 ^ 8)
def ok32 (x : Nat) : Bool := decide (x < 2 ^ 32)
def ok64 (x : Nat) : Bool := decide (x < 2 ^ 64)
def ok256 (x : Nat) : Bool := decide (x < 2 ^ 256)
/-- Start-up stages are 3 to 14 (Table 17-2). -/
def okStage (x : Nat) : Bool := decide (3 ≤ x) && decide (x ≤ 14)
/-- VIN fits PWR_VIN_MV (Table 15-6). -/
def okMv (x : Nat) : Bool := decide (x < 2 ^ 17)
/-- Steps of Tables 13-4, 17-10 and 17-11. -/
def okStep (x : Nat) : Bool := decide (1 ≤ x) && decide (x ≤ 6)
/-- A directory INDEX (Table 03-1). -/
def okIndex (x : Nat) : Bool := decide (x < 2 ^ 24)
/-- A page number of a session space (Table 02-1). -/
def okPage (x : Nat) : Bool := decide (x < 2 ^ 30)
/-- Registers are 32 bits wide and accessed aligned (R17), in apertures of at most 64 KiB (Table 15-1). -/
def okOffset (x : Nat) : Bool := decide (x < 2 ^ 16) && x % 4 == 0
def okArray (x : Nat) : Bool := decide (x < 256)
def okChannel (x : Nat) : Bool := decide (x < 32)
def okDevice (x : Nat) : Bool := decide (x < 16)
def okDomain (x : Nat) : Bool := decide (x < 16)
def okPhase (x : Nat) : Bool := decide (x < 24)
def okSensor (x : Nat) : Bool := decide (x < 36)
def okDie (x : Nat) : Bool := decide (x < 4)
def okPair (x : Nat) : Bool := decide (x < 4)
def okHalf (x : Nat) : Bool := decide (x < 2)
def okLane (x : Nat) : Bool := decide (x < 2)
/-- A discovery identifier (R438). -/
def okModule (x : Nat) : Bool := decide (x < 2 ^ 12)
def okPolder (x : Nat) : Bool := decide (x < 16)
/-- The HVL counter, a port's or a polder's. -/
def okCounter (x : Nat) : Bool := decide (x ≤ 20)
def okMask16 (x : Nat) : Bool := decide (x < 2 ^ 16)
/-- A sideband block is 1 to 8 words (Table 16-7). -/
def okCount (x : Nat) : Bool := decide (1 ≤ x) && decide (x ≤ 8)
/-- The sixteen polder counters. -/
def okClocks (l : List Nat) : Bool := l.length == 16 && l.all ok64
def okWords (l : List Nat) : Bool := okCount l.length && l.all ok32

/-- A command is well formed. -/
def Instr.wf : Instr → Bool
  | .coldStart _ upTo => okStage upTo
  | .powerFailure => true
  | .powerFailProgramsDone => true
  | .vinRange mv => okMv mv
  | .moduleReset => true
  | .hvlRst => true
  | .portRetry _ _ t => ok64 t
  | .sessOpen _ tag => okTag tag
  | .sessPark _ tag => okTag tag
  | .sessRevive _ tag _ => okTag tag
  | .sessMove _ tag => okTag tag
  | .sessFork _ tag => okTag tag
  | .sessRetire _ tag => okTag tag
  | .sessHandoffOut _ tag => okTag tag
  | .sessHandoffIn _ tag _ => okTag tag
  | .sessQuery _ tag => okTag tag
  | .genStep _ tag _ => okTag tag
  | .genPrefillAccept _ tag _ _ => okTag tag
  | .genStop _ tag => okTag tag
  | .genStopJob _ tag => okTag tag
  | .genSpecConf _ tag => okTag tag
  | .samplerConf _ tag _ => okTag tag
  | .krnSubmit _ tag => okTag tag
  | .modelLoad _ tag _ _ => okTag tag
  | .modelEvict _ tag => okTag tag
  | .modelEvictCrest _ tag => okTag tag
  | .modelPin _ tag => okTag tag
  | .modelUnpin _ tag => okTag tag
  | .vecQuery _ tag _ => okTag tag
  | .vecInsert _ tag _ => okTag tag
  | .vecDelete _ tag => okTag tag
  | .vecDefine _ tag _ _ => okTag tag
  | .vecBuild _ tag _ => okTag tag
  | .vecDropList _ tag => okTag tag
  | .vecDropIndex _ tag => okTag tag
  | .vecCompact _ tag => okTag tag
  | .sealRetry _ => true
  | .memMap _ tag => okTag tag
  | .memMapRelease _ tag => okTag tag
  | .memMapRemap _ tag => okTag tag
  | .memPrefetch _ tag => okTag tag
  | .memPin _ tag => okTag tag
  | .memUnpin _ tag => okTag tag
  | .ckptBegin _ tag => okTag tag
  | .ckptExport _ tag => okTag tag
  | .ckptCommit _ tag => okTag tag
  | .ckptRestore _ tag _ => okTag tag
  | .ckptDrop _ tag => okTag tag
  | .ckptCopyDone _ sid => ok64 sid
  | .replicaReclaim _ t => ok64 t
  | .restoreLoadDone _ idx => okIndex idx
  | .profileSelect _ => true
  | .polderCompose _ tenant => ok256 tenant
  | .polderDissolve _ => true
  | .polderReset _ step _ => okStep step
  | .fwUpdateStage _ _ => true
  | .fwUpdateDiscard _ => true
  | .fwUpdateActivate _ step _ => okStep step
  | .attestQuote _ => true
  | .keyRotateAtRest _ => true
  | .keyRotateBounce _ _ => true
  | .powerBudget _ => true
  | .powerBudgetPolder _ => true
  | .clampRelease _ => true
  | .quotaSet _ => true
  | .sluiceLoad _ _ => true
  | .sluiceRemove _ => true
  | .policerSet _ => true
  | .policerDisable _ => true
  | .wfqSet _ => true
  | .fenceUnit _ => true
  | .unfenceUnit _ _ => true
  | .timeSyncConf _ => true
  | .energyReport _ => true
  | .peerConf _ => true
  | .ckptSchedule _ => true
  | .cntSnap _ t ts => ok64 t && okClocks ts
  | .cntSnapPolder _ t pt => ok64 t && ok64 pt
  | .faultLogRead => true
  | .polderFence => true
  | .powerClamp => true
  | .moduleSeal step => okStep step
  | .identityQuote => true
  | .warmReset _ upTo => okStage upTo
  | .ringIntake _ t _ _ => ok64 t
  | .eventPost _ => true
  | .sqTailWrite _ _ v _ => ok32 v
  | .cqHeadWrite _ _ v _ => ok32 v
  | .sqCtrlWrite _ _ v _ => ok32 v
  | .cqCtrlWrite _ _ v _ => ok32 v
  | .secPrivMapWrite v _ => ok32 v
  | .tstResInject v _ => ok32 v
  | .tstEccInject v _ => ok32 v
  | .tstStallInject v _ => ok32 v
  | .tstLockstepInject v _ => ok32 v
  | .tstTrInject v _ => ok32 v
  | .tstSensorOffset v _ => ok32 v
  | .registerWrite _ off v _ => okOffset off && ok32 v
  | .cmpLoRead _ _ => true
  | .cmpHiRead _ _ => true
  | .xdStallRead _ a _ => okOffset a.off
  | .xdTimeout _ off => okOffset off
  | .mirrorRefresh => true
  | .statusWord => true
  | .readVin => true
  | .readIin => true
  | .readTemperature1 => true
  | .readPout => true
  | .wmbOffset off _ => okOffset off
  | .wmbWrite ws _ => okWords ws
  | .wmbRead n => okCount n
  | .alertResponse => true
  | .bypass => true
  | .idcode => true
  | .samplePreload => true
  | .extest => true
  | .extestPulse => true
  | .extestTrain => true
  | .clamp => true
  | .highz => true
  | .stripComplete _ a t _ _ => okArray a && ok64 t
  | .forcedPass _ idx _ _ _ => okIndex idx
  | .residueMismatch a _ => okArray a
  | .handshakeStall _ a _ => okArray a
  | .paceUpdate _ _ t => ok64 t
  | .recallDeadline _ _ t _ => ok64 t
  | .heatEpoch _ t => ok64 t
  | .migrationCommit _ n _ => okPage n
  | .revivalResume _ idx => okIndex idx
  | .tierReadFail _ n _ _ _ => okPage n
  | .stripeRowClose _ t => ok64 t
  | .toeWriteAck _ _ => true
  | .programFailure _ _ => true
  | .eraseFailure ch _ => okChannel ch
  | .retentionRelocate ch _ _ t => okChannel ch && ok64 t
  | .garbageCollection ch _ _ _ _ => okChannel ch
  | .rebuildComplete _ ch => okChannel ch
  | .batchTimer _ t => ok64 t
  | .visitEnd _ _ t _ => ok64 t
  | .queryDeadline _ tag t => okTag tag && ok64 t
  | .leaseExpiry _ idx t => okIndex idx && ok64 t
  | .commitWindowClose _ sid t => ok64 sid && ok64 t
  | .relinquishedExpiry _ idx t => okIndex idx && ok64 t
  | .restoreLeaseExpiry _ idx t => okIndex idx && ok64 t
  | .handoffInWaitExpiry _ tag t => okTag tag && ok64 t
  | .offer src srcPol _ _ => okModule src && okPolder srcPol
  | .page src srcPol _ _ _ => okModule src && okPolder srcPol
  | .pageAck src srcPol _ sid h pseq => okModule src && okPolder srcPol && ok64 sid && ok32 h && ok32 pseq
  | .claim src srcPol _ _ => okModule src && okPolder srcPol
  | .claimAck src srcPol _ _ => okModule src && okPolder srcPol
  | .abort src srcPol _ _ => okModule src && okPolder srcPol
  | .assert src srcPol _ _ => okModule src && okPolder srcPol
  | .assertReply src srcPol _ _ => okModule src && okPolder srcPol
  | .journal src srcPol _ _ => okModule src && okPolder srcPol
  | .journalAck src jseq _ => okModule src && ok64 jseq
  | .journalFlush t => ok64 t
  | .buddyDegrade t => ok64 t
  | .peerFailureDeclared src t => okModule src && ok64 t
  | .notice => true
  | .dirRefetch idx _ => okIndex idx
  | .culvertData t => ok64 t
  | .culvertAck t => ok64 t
  | .culvertAckTimer src lane t => okModule src && okLane lane && ok64 t
  | .culvertResendTimer dst lane psn t => okModule dst && okLane lane && ok32 psn && ok64 t
  | .keepaliveTimer dst lane t => okModule dst && okLane lane && ok64 t
  | .keepalive src => okModule src
  | .tkHello src srcPol _ _ _ _ => okModule src && okPolder srcPol
  | .tkRenew _ mod pol t => okModule mod && okPolder pol && ok64 t
  | .tkExpire _ mod pol t => okModule mod && okPolder pol && ok64 t
  | .tkPreviousDiscard _ mod pol t => okModule mod && okPolder pol && ok64 t
  | .replDigests src srcPol _ sid epoch seq _ => okModule src && okPolder srcPol && ok64 sid && ok32 epoch && ok32 seq
  | .replLacks src srcPol _ _ => okModule src && okPolder srcPol
  | .replChunk src srcPol _ digest _ _ => okModule src && okPolder srcPol && ok256 digest
  | .replRecords src srcPol _ sid epoch seq _ => okModule src && okPolder srcPol && ok64 sid && ok32 epoch && ok32 seq
  | .replCommit src srcPol _ _ => okModule src && okPolder srcPol
  | .replAck src srcPol _ sid epoch seq _ => okModule src && okPolder srcPol && ok64 sid && ok32 epoch && ok32 seq
  | .announce _ _ _ t => ok64 t
  | .discoveryBackoff _ t => ok64 t
  | .anchorAckTimeout _ t => ok64 t
  | .anchorTick t => ok64 t
  | .relayForward t => ok64 t
  | .relayAckTimeout t => ok64 t
  | .ingressFrame _ _ _ _ => true
  | .mkaFrame _ _ => true
  | .neighbourFrame _ _ => true
  | .ptpFrame _ dom _ _ _ _ t => okByte dom && ok64 t
  | .timeMessage _ _ _ t => ok64 t
  | .lockLoss k t => okCounter k && ok64 t
  | .policerRefill _ t => ok64 t
  | .sluiceEntry _ t => ok64 t
  | .sluiceChange _ t => ok64 t
  | .frameTxDone _ t => ok64 t
  | .hvlReadTimeout half _ _ t => okHalf half && ok64 t
  | .controlInterval _ t => ok64 t
  | .thermalSample _ t => ok64 t.hvl && ok64 t.wd
  | .thermVhiStep t => ok64 t
  | .wardenThermClamp t => ok64 t.hvl && ok64 t.wd
  | .thermTrip => true
  | .powerRequest src t _ => okModule src && ok64 t
  | .powerOffer src t _ => okModule src && ok64 t
  | .offerDeadline t => ok64 t
  | .offerReturn t => ok64 t
  | .accountingClose _ t => ok64 t
  | .tokenRingModTimer _ tag t => okTag tag && ok64 t
  | .cqModTimer _ _ t => ok64 t
  | .drbgReseed _ => true
  | .keySweep _ n => okPage n
  | .fabricPortError a t => okArray a && ok64 t
  | .fabricWedge t => ok64 t.hvl && ok64 t.wd
  | .actStoreEcc a t _ detail => okArray a && ok64 t && ok256 detail
  | .crestEcc die _ _ detail => okDie die && ok256 detail
  | .crestScrub t => ok64 t.hvl && ok64 t.wd
  | .crestDieFault die => okDie die
  | .bermEcc d t _ _ _ detail => okDevice d && ok64 t && ok256 detail
  | .bermDeviceFault d _ t => okDevice d && ok64 t
  | .bermTrainingCheck t bad => ok64 t.hvl && ok64 t.wd && okMask16 bad
  | .toeChannelFault ch _ => okChannel ch
  | .lockstepMismatch k => okPair k
  | .heartbeatLoss k t => okPair k && ok64 t.hvl && ok64 t.wd
  | .autoSeal t => ok64 t.hvl && ok64 t.wd
  | .dupMismatch ty n t => okByte ty && okPolder n && ok64 t
  | .trSweep t => ok64 t
  | .phaseFault n => okPhase n
  | .vcoreDomainFault g => okDomain g
  | .hvlLaneCrc half => okHalf half
  | .hvlLaneLoss half => okHalf half
  | .ethPortFault k => okPair k
  | .sensorImplausible n detail => okSensor n && ok256 detail
  | .oscCheck t _ => ok64 t
  | .faultLogCopy t => ok64 t
  | .mrstLRelease _ upTo => okStage upTo
  | .hvlRstLRelease _ => true
  | .entropyHealthFail => true

end Sys2Proof
end

