-- ==== Sys2Proof/Tests/Slice0.lean ====
section
/-! SUPPORT. Tests: what WellFormed refuses, single steps with values from the spec, and for each statement states that meet its hypotheses. -/

namespace Sys2Proof.Tests

open Sys2Proof Sys2Proof.Machine

set_option Elab.async false

-- Small states: a module at work, and changes of one part of it.

/-- A module at stage 14 with nothing composed. -/
def up : State :=
  { State.reset with m := { modReset with working := true, front := { modReset.front with stage := 14, ready := true, mbxReady := true } } }

def upM (f : Mod → Mod) : State := { up with m := f up.m }

/-- Polder 0 composed, with submission and completion ring 0 of 16 entries enabled and its interrupts on. -/
def polUp : Polder :=
  { polderBlank with
    composed := true
    pintEn := 2 ^ 32 - 1
    sqs := polderBlank.sqs.set 0 { Sq.blank with order := 4, en := true }
    cqs := polderBlank.cqs.set 0 { Cq.blank with order := 4, en := true } }

def upP (f : Polder → Polder) : State := upM (fun m => modPol m 0 (fun _ => f polUp))

/-- A module whose management mailbox has accepted a command. -/
def mboxM (cmd arg : Nat) (m : Mod) : Mod := modMbx m .mgmt (fun x => { x with busy := true, runCmd := cmd, runArg := arg, runPriv := .privileged })

def mbox (cmd arg : Nat) : State := upM (mboxM cmd arg)
def mboxP (cmd arg : Nat) (f : Polder → Polder) : State := { up with m := mboxM cmd arg (upP f).m }

/-- The state a command leads to. -/
def nextOf (c : Instr) (s : State) : State :=
  match exec c s with
  | .next t => t
  | _ => s

/-- A board record with nothing in it, and a start that finds nothing. -/
def boardZero : Board := { domain := 7, culvertPorts := 15, endurance := 0, rdLimit := 0, retentionDays := 0, ports := List.replicate 4 PortBoard.blank }

def bootZero : BootIn :=
  { straps := 0, smbAddr := 0, eeprom := 0, crestBad := [], bermRate := [], chans := [], hvlGen := 0, portsUp := 0, locked := false
    fails := [] }

/-- A command entry taken from ring 0 of polder 0 and not yet started, TAG 7. -/
def takenFor (e : Block) : Taken :=
  { tag := 7, job := 1, sq := 0, cq := 0, opcode := fld e 0 0 8, entry := e, engine := false, after := false, started := false, sess := none }

def ring (e : Block) (f : Polder → Polder) : State :=
  upP (fun q => f { q with taken := [takenFor e], cqs := q.cqs.set 0 { q.cqs[0] with inflight := 1 } })

/-- A culvert frame with every field zero. -/
def wireZero : Wire :=
  { culvert := true, pcp := 0, dei := false, ce := false, len := 64, ftype := 0, lane := 0, sealed := false, keygen := 0, last := true, ece := false, src := 0
    srcPol := 0, dst := 0, dstPol := 0, ty := 0, seg := 0, psn := 0, msg := 0, ackPsn := 0, bitmap := 0, check := true, auth := true, kind := 0
    serial := 0 }

/-- A received frame of a message type, between two polders. -/
def rxOf (srcPol dstPol ty : Nat) : RxFrame :=
  { psn := 0, msg := 0, seg := 0, last := true, ty := ty, srcPol := srcPol, dstPol := dstPol, port := 0, sealed := false, keygen := 0, ok := true }

/-- A state with a delivered message at the front of a lane. -/
def inbox (src lane : Nat) (z : RxFrame) (s : State) : State :=
  { s with m := putLane s.m (laneKey src lane) { laneOf s.m (laneKey src lane) with inbox := [z] } }

/-- The message at the front of a lane has arrived for the polder it names. -/
theorem arrived_head {m : Mod} {src srcPol dstPol lane ty : Nat}
    (h : (match (laneOf m (laneKey src lane)).inbox with
      | z :: _ => decide (z.ty = ty ∧ z.srcPol = srcPol ∧ z.dstPol = dstPol ∧ m.sys.wd.sealed = false ∧ (src < 4096 ∨ ty = 0x0B) ∧
          (moduleLevel ty = true ∨ m.pol[pn dstPol].fenced = false))
      | [] => false) = true) : Arrived m src srcPol dstPol lane ty := by
  split at h
  · exact ⟨_, _, ‹_›, of_decide_eq_true h⟩
  · simp at h

def okOf {ε α : Type} (x : Except ε α) (d : α) : α :=
  match x with
  | .ok a => a
  | .error _ => d

theorem ok_okOf {ε α : Type} {x : Except ε α} {d : α} (h : x.isOk = true) : x = .ok (okOf x d) := by
  cases x with
  | ok a => rfl
  | error e => simp [Except.isOk, Except.toBool] at h

theorem ok_pair {ε α β : Type} {x : Except ε (α × β)} {d : α × β} (h : x.isOk = true) : x = .ok ((okOf x d).1, (okOf x d).2) := ok_okOf h

theorem ok_eq {ε α : Type} [DecidableEq α] {x : Except ε α} {v : α}
    (h : (match x with
      | .ok a => decide (a = v)
      | .error _ => false) = true) : x = .ok v := by
  split at h
  · rw [of_decide_eq_true h]
  · simp at h

/-- An ACTIVE session 9 of polder 0 at INDEX 5. -/
def live : Desc :=
  { Desc.blank 1 with life := .active, own := .owned, sid := 9, epoch := 1, tokens := 1, ctxMax := 100, famRefs := 1, fam := 5 }

/-- A command entry taken from ring 0 beside a descriptor at INDEX 5. -/
def held (d : Desc) (e : Block) (f : Polder → Polder) : State := { ring e f with m := { (ring e f).m with dir := [(5, d)] } }

def geoZero : Geo := { layers := 0, groups := 0, fmt := 0, w := 0, bpp := 1, bodyBytes := 0 }

/-- A program of one layer kernel and one epilogue kernel that copies a row. -/
def kernelOk : Kernel :=
  { op := 7, fmtS := 0, fmtT := 0, fmtO := 0, outSat := false, func := 0, k := 0, n := 0, inA := 0, inB := 0xFFFF, out := 1, res := 0xFFFF, tscale := 0#32
    wOff := 0, csOff := 0, biasOff := 0, attr := 0 }

def progOk : Prog :=
  { version := 1, layers := 1, tensors := [⟨32, 0⟩, ⟨32, 0⟩], pro := [], layer := [kernelOk], epi := [kernelOk], kvGroups := 0, kvFmt := 0
    layerStride := 0, imageBytes := 0, vocab := 5, actRowBytes := 0, draftOff := 0, manifestBytes := 0, digest := 0 }

/-- The bytes of a manifest like `progOk`, with the SHA3-256 of its 272 bytes (DIGEST zeroed; no image bytes) from another implementation. -/
def manKernel : Block := 7 + at8 14 0xFFFF + at8 16 1 + at8 18 0xFFFF

def manOk : Block :=
  1 + at8 4 1 + at8 6 2 + at8 10 1 + at8 12 1 + at8 32 5 + at8 44 272 + at8 64 0x1c1b3a343e185a18b508b92b71f14d176b5f5f8c254f55bdd0fd35ade6b61036 +
    at8 128 32 + at8 136 32 + at8 144 manKernel + at8 208 manKernel

def slotOk : Slot := { man := ⟨progOk, none⟩, img := 0, ahead := 16, crest := false, pinned := false, lastPass := 0, evictCrest := none, dropAtBoundary := false, closing := false }

def importZero : Import :=
  { sid := 0, h := 0, srcMod := 0, srcPol := 0, arrived := 0, leaseMs := 2000, guardMs := 100, expected := 2, slot := 0, cls := .lc, sparse := false
    ctxMax := 1, bound := none, prefill := none, preTok := 0, preSeq := 0, preHist := [], hadPrior := false, prior := Desc.blank 1, idx := 5, pages := []
    rootSeen := false, expectedCmd := 0, last := none, committing := false }

def reqZero : Req :=
  { tag := 7, idx := 5, maxTok := 1, ring := 0, order := 4, maskStep := false, noSpec := false, modCount := 0, modUs := 0, vector := 0, maskHost := 0
    running := true, inPass := false, heldLayer := none, heldImport := false, emitted := 0, accepted := 0, toks := [], prod := 0, unsig := 0, oldest := 0
    short := false, ending := none }

def jobZero : Job :=
  { tag := 3, slot := 0, lc := false, draft := false, items := 1, itemTokens := 1, done := 0, outSsa := 0, rowBytes := 0, stopping := false, stopTags := []
    out := [] }

def passZero : Pass :=
  { id := 1, slot := 0, start := 0, lc := true, jobId := 0, job := none, first := 0, items := 0, seqs := [], level := 0, levels := 1, done := [], placed := []
    since := [], region := 0, claim := 0, fromCrest := false, acts := [], deadlineDone := false, vec := none }

/-- A page of Berm without a copy elsewhere, mapped by MEM_MAP. -/
def pageZero : Page :=
  { tier := .berm, frame := 0, st := .resident, pin := false, pinTier := .none, home := false, keyEpoch := 0, oEpoch := 0, heat := 0, cls := .lc, dirty := false
    oTier := .none, other := 0, cool := 0, wgen := 0, owner := .mapped, body := 0, sample := 0, copied := 0, pre := [], forPage := none }

/-- A DATA frame with every field zero. -/
def frameZero : CulFrame :=
  { psn := 0, msg := 0, seg := 0, last := true, port := 0, pol := 0, cls := .lc, head := ⟨0, 0, none, 0, 0, 0, 0, 0⟩, body := 0, bytes := 0, sentAt := 0, timer := 0, missed := 0 }

theorem error_eq {ε α : Type} [DecidableEq ε] {x : Except ε α} {v : ε}
    (h : (match x with
      | .ok _ => false
      | .error a => decide (a = v)) = true) : x = .error v := by
  split at h
  · simp at h
  · rw [of_decide_eq_true h]

def someOf {α : Type} (x : Option α) (d : α) : α := x.getD d

theorem some_someOf {α : Type} {x : Option α} {d : α} (h : x.isSome = true) : x = some (someOf x d) := by
  cases x with
  | some a => rfl
  | none => simp at h

/-- A Toe with a table changed, beside polder 0; channel 2 is inside a cofferdam. -/
def upF (f : Ftl → Ftl) (g : Polder → Polder) : State :=
  { upP g with m := { (upP g).m with ftl := f (upP g).m.ftl, fence := { fencesNone with toe := Tri.mk1 4 } } }

def chanOk : Chan :=
  { exported := 10, good := 4, spare := 1, thresh := 1, endurance := 1000, blks := [], crossed := 0, readOnly := false, waiting := [], rebuilt := true }

/-- A polder with room in Berm and Toe: channels 3 to 5 work, and one holds unit 4. -/
def upRoom (f : Polder → Polder) : State :=
  upF (fun x => { x with chans := [(3, chanOk), (4, chanOk), (5, chanOk)], units := [(4, ⟨3, 6, 0, 0, true, none⟩)] }) (fun q => f { q with
    masks := Tri.mk1 ⟨1, 0xF, 1, 0xF⟩, dBerm := { q.dBerm with ceil := 100 }, dToe := { q.dToe with ceil := 100 } })

/-- An index of one list whose tombstone page is page 0. -/
def defOk : VDef :=
  { version := 1, codeBits := 128, afBytes := 0, tags := false, lists := 1, rvFmt := 0, nfields := 0, rvDim := 0, rrSlots := 0, batchUs := 0, fields := [] }

def idxOk : VIndex :=
  { d := defOk, cents := [], lists := [(0, { VList.empty with tombPage := some 0 })], rr := [], centPg := 1, listPg := 1, rrPg := 1, log := [], old := []
    alls := [], dropping := none, rebuilt := true }

def vblkZero : VBlock := { code := 0, filter := ⟨0, false, false, false, [], 0, 0, 0⟩, vec := [] }

def vqZero : VQuery :=
  { tag := 7, index := 0, lc := true, filter := none, rerank := false, topK := 1, nprobe := 1, maxProbe := 1, maxDist := 0xFFFF, rerankN := 0, t0 := 0
    deadline := none, rbuf := 0, blk := vblkZero, phase := .visiting, rank := [], probed := 0, queued := [], inVisit := [], started := false, heap := []
    found := 0, exhausted := false, late := false, unvisited := false, skip := false, scores := [] }

/-- Checkpoint 1 of session 9, its job, and a restore of it. -/
def ckZero : Ck :=
  { sid := 9, epoch := 1, seq := 1, base := true, hosted := false, parentSeq := 0, parentEpoch := 0, step := 0, tokens := 0, ownerMod := 0, ownerPol := 0
    cls := .lc, sparse := false, sealed := false, fmt := 0, layers := 1, groups := 0, headDim := 0, w := 0, ctxMax := 1, modelDigest := 0, recsDigest := 0
    recs := [] }

def ckJobZero : CkJob :=
  { idx := 5, ck := ckZero, begin := none, auto := false, engine := false, commit := none, host := none, beginAcked := false, written := false
    copied := false, localDone := false, newBytes := 0, readBytes := 0, repl := [], copying := [], units := [], refused := none, lost := false }

def restoreZero : Restore :=
  { tag := 7, idx := 5, created := false, prior := live, ck := ckZero, recs := [], parked := true, slot := 0, asked := [], owned := false, loaded := false
    left := [], adopted := none, replay := [] }

def replInZero : ReplIn :=
  { src := 50, sid := 9, epoch := 1, seq := 1, digests := [], held := [], recs := [], last := 0, retries := [], failed := false, commit := none }

def pageMsgZero : PageMsg :=
  { sid := 0, h := 0, pseq := 0, kind := 1, fmt := 0, fill := 0, lg := 0, ix := 0, len := 0, rows := [], root := none, samp := none, featFmt := 0, feat := [] }

def jrecOf (n : Nat) : JRec := { jseq := n, src := 0, pol := 0, kind := 1, desc := live, sid := 9, epoch := 1, step := 0, toks := [] }

def quoteZero : Quote :=
  { kind := 2, pending := false, debugOpen := false, sealed := false, kem := false, polder := 0, profile := 0, nonce := 0, deviceId := 0, moduleId := 0
    idValid := false, fwSvn := 0, time := 0, romDigest := 0, fwDigest := 0, pendingDigest := 0, configDigest := 0, polderDigest := 0, modelDigest := 0
    kemDigest := 0, keyEpoch := 0, bbEpoch := 0, tenant := 0, signature := 0, kemKey := 0, endorsedKey := 0, endorsement := 0 }

theorem quote_matches {m : Mod} {p : Fin 16} {q : Quote} (h1 : q.kind = 2) (h2 : q.sealed = true) (h3 : q.debugOpen = false) (h4 : m.pol[p].sealed = true)
    (h5 : q.modelDigest = modelDigest m.pol[p]) (h6 : q.tenant = m.pol[p].tenant) : quoteOk m p q true = true := by
  simp only [quoteOk, h1, h2, h3, h4, h5, h6]
  simp

/-- A directory with one freed descriptor, at the INDEX the next choice takes. -/
def dirAt (i : Nat) : Mod := { up.m with dir := [(i, { live with own := .none, life := .free, gen := 2 })] }

theorem freeFrom_first {h n : Nat} {ok : Nat → Bool} (hok : ok (h % (n + 1)) = true) : freeFrom h (n + 1) ok = some (h % (n + 1)) := by
  simp [freeFrom, freeFromN, hok]

theorem freeFrom_dir {h : Nat} {ok : Nat → Bool} (hok : ok (h % 16777216) = true) : freeFrom h 16777216 ok = some (h % 16777216) :=
  freeFrom_first (n := 16777215) hok

theorem takeEntry_at : takeEntry (dirAt (Config.hint 0 % 16777216)) (fun _ => live) = some (Config.hint 0 % 16777216,
    { dirAt (Config.hint 0 % 16777216) with free := 1, dir := [(Config.hint 0 % 16777216, { live with gen := 2 })] }) := by
  unfold takeEntry takeHint
  have h : (dirAt (Config.hint 0 % 16777216)).free = 0 := rfl
  simp only [h]
  rw [freeFrom_dir (by simp [dirAt, SMap.get])]
  simp [dirAt, SMap.get, SMap.put]

theorem desc_at : desc? (dirAt (Config.hint 0 % 16777216)) (Config.hint 0 % 16777216) = some { live with own := .none, life := .free, gen := 2 } := by
  simp [desc?, dirAt, SMap.get]

theorem takeEntry_none : takeEntry up.m (fun _ => live) = some (Config.hint 0 % 16777216,
    { up.m with free := 1, dir := [(Config.hint 0 % 16777216, { live with gen := Config.firstGen (Config.hint 0 % 16777216) 0 })] }) := by
  unfold takeEntry takeHint
  have h : up.m.free = 0 := rfl
  have hd : up.m.dir = [] := rfl
  have hb : up.m.jr.block = 0 := rfl
  simp only [h, hd, hb]
  rw [freeFrom_dir (by simp [SMap.get])]
  simp [SMap.get, SMap.put]

theorem pages_present {m : Mod} {p : Fin 16} {l : List Nat}
    (h : l.all (fun n => (getPage m p n).all (fun g => present g && decide (g.st ≠ .lost))) = true) :
    ∀ n ∈ l, ∀ g, getPage m p n = some g → present g = true ∧ g.st ≠ .lost := by
  intro n hn g hg
  have h1 := List.all_eq_true.mp h n hn
  simp only [hg, Option.all_some, Bool.and_eq_true, decide_eq_true_eq] at h1
  exact h1

-- What WellFormed refuses: one ill-formed command for each check.

theorem test_wf_stage : (Instr.coldStart bootZero 2).wf = false := by decide
theorem test_wf_mv : (Instr.vinRange 131072).wf = false := by decide
theorem test_wf_tag : (Instr.sessOpen 0 65536).wf = false := by decide
theorem test_wf_64 : (Instr.heatEpoch 0 (2 ^ 64)).wf = false := by decide +kernel
theorem test_wf_32 : (Instr.sqTailWrite 0 0 (2 ^ 32) .user).wf = false := by decide +kernel
theorem test_wf_256 : (Instr.polderCompose .mgmt (2 ^ 256)).wf = false := by decide +kernel
theorem test_wf_step : (Instr.moduleSeal 7).wf = false := by decide
theorem test_wf_index : (Instr.restoreLoadDone 0 (2 ^ 24)).wf = false := by decide +kernel
theorem test_wf_page : (Instr.keySweep 0 (2 ^ 30)).wf = false := by decide +kernel
theorem test_wf_offset : (Instr.registerWrite .mgmt 2 0 .user).wf = false := by decide
theorem test_wf_array : (Instr.residueMismatch 256 false).wf = false := by decide
theorem test_wf_channel : (Instr.toeChannelFault 32 0).wf = false := by decide
theorem test_wf_device : (Instr.bermDeviceFault 16 0 0).wf = false := by decide
theorem test_wf_domain : (Instr.vcoreDomainFault 16).wf = false := by decide
theorem test_wf_phase : (Instr.phaseFault 24).wf = false := by decide
theorem test_wf_sensor : (Instr.sensorImplausible 36 0).wf = false := by decide
theorem test_wf_die : (Instr.crestDieFault 4).wf = false := by decide
theorem test_wf_pair : (Instr.lockstepMismatch 4).wf = false := by decide
theorem test_wf_half : (Instr.hvlLaneLoss 2).wf = false := by decide
theorem test_wf_lane : (Instr.culvertAckTimer 0 2 0).wf = false := by decide
theorem test_wf_module : (Instr.keepalive 4096).wf = false := by decide
theorem test_wf_polder : (Instr.tkRenew 0 0 16 0).wf = false := by decide
theorem test_wf_counter : (Instr.lockLoss 21 0).wf = false := by decide
theorem test_wf_mask16 : (Instr.bermTrainingCheck ⟨0, 0⟩ 65536).wf = false := by decide
theorem test_wf_byte : (Instr.ptpFrame 0 256 0 0 0 [] 0).wf = false := by decide
theorem test_wf_count : (Instr.wmbRead 9).wf = false := by decide
theorem test_wf_words : (Instr.wmbWrite [] false).wf = false := by decide
theorem test_wf_clocks : (Instr.cntSnap .mgmt 0 []).wf = false := by decide

-- No word of the table spells a command, so no word changes the queue.

theorem test_decode_none : decodeTableWord 8 0x18 = none := rfl
theorem test_withFetchWord_same : (up.withFetchWord 8 0x18).pending = up.pending := rfl

-- Values the spec writes out.

/-- A step takes the command at the front and leaves the rest of the queue. -/
theorem test_step_pops : (match step { up with pending := [.idcode, .bypass] } with
    | .next t => t.pending
    | _ => []) = [.bypass] := rfl

/-- IDCODE reads 0x116005CF (R479). -/
theorem test_idcode_value : (nextOf .idcode up).m.out = [.reg 0x116005CF] := by decide +kernel

/-- VIN leaves its range below 51,000 mV. -/
theorem test_vin_low : (nextOf (.vinRange 50999) up).m.sys.wd.vinGood = false := by decide +kernel
theorem test_vin_edge : (nextOf (.vinRange 51000) up).m.sys.wd.vinGood = true := by decide +kernel

/-- A tail write that claims more entries than the ring holds is ignored; one that fills the ring is taken. -/
theorem test_tail_over : ((nextOf (.sqTailWrite 0 0 17 .user) (upP id)).m.pol[(0 : Fin 16)].sqs[(0 : Fin 16)]).tail = 0 := by decide +kernel
theorem test_tail_full : ((nextOf (.sqTailWrite 0 0 16 .user) (upP id)).m.pol[(0 : Fin 16)].sqs[(0 : Fin 16)]).tail = 16 := by decide +kernel

/-- Chapter 02, a Serve-16 Crest dike: four granules leave 1,984 session-space frames. -/
theorem test_crest_frames : sliceFrames up.m { polUp with masks := Tri.mk1 ⟨1, 0xF, 1, 0⟩ } .crest = 1984 := by decide +kernel

/-- Chapter 02, Toe capacity: a channel exports 1,708.5625 GiB, 27,993,088 map units. -/
theorem test_toe_exported :
    exportedOf (List.replicate 32 ⟨true, 0, 63, 1, 1, 33030144, 0⟩) 0 ⟨true, 0, 63, 1, 1, 33030144, 0⟩ = 27993088 := by decide +kernel

/-- Chapter 04, one block into MXFP4: scale 0x81 and elements 0x7, 0xD, 0x0, 0x2. -/
theorem test_mxfp4_block : mxBlock (some fmtE2m1) 2 ([0x41A80000#32, 0xC1266666#32, 0x3F800000#32, 0x40400000#32] ++ List.replicate 28 0#32) =
    ⟨0x81, [0x7, 0xD, 0x0, 0x2] ++ List.replicate 28 0, 0, 0⟩ := by decide +kernel

/-- Chapter 07, a tree step: depths 1, 1, 2, 2, 3, and the path 0, 1, 4 with F as the bonus. -/
theorem test_tree_depths : (List.range' 1 5).map (nodeDepth [0, 0, 1, 1, 3]) = [1, 1, 2, 2, 3] := by decide +kernel
theorem test_tree_path : (acceptTree up.m 0 (fun v => some ⟨[], [(if v == 0 then 10 else if v == 1 then 13 else 15, f32One)], true⟩) [0, 0, 1, 1, 3]
    [some 99, some 10, some 11, some 12, some 13, some 14] 6 0 []).1 = ⟨[1, 4], some 15⟩ := by decide +kernel

/-- Chapter 07, one row through the sampler: bias and penalties give 0.5, 1, 0.5, 2, -1, 1; top-p keeps two; the word draws token 1; 0xC0A2. -/
theorem test_sampler_adjust : ([0x40000000#32, 0x3F800000#32, 0x3F000000#32, 0x40400000#32, 0xBF800000#32, 0x3F800000#32].zipIdx.map (fun e =>
    adjust { sampPageNew with pr := { sampPageNew.pr with repPen := 0x40000000#32, presPen := 0x3F000000#32, freqPen := 0#32 }, bias := [(3, 0xBF800000#32)] } none [0]
      e.2 e.1)) = [0x3F000000#32, 0x3F800000#32, 0x3F000000#32, 0x40000000#32, 0xBF800000#32, 0x3F800000#32] := by decide +kernel
theorem test_sampler_nucleus : (nucleus 0x3F59999A#32 0#32 [(3, 0x3F4978D5#32), (1, 0x3DDA1CAC#32), (5, 0x3DDA1CAC#32)]).map (·.1) = [3, 1] := by decide +kernel
theorem test_sampler_pick : pick (wordNum 0xE6666666#32) 0#32 [(3, 0x3F617C1C#32), (1, 0x3DF41F21#32)] = some 1 := by decide +kernel
theorem test_sampler_logprob : f32ToF16 0xC0144674#32 = 0xC0A2 := by decide +kernel

/-- Chapter 10, a command burst: four green, four yellow, one red and held; after 500 refills a yellow one passes. -/
def burst (n : Nat) (pl : Policer) : List Nat × Policer :=
  (List.range n).foldl (fun a _ => (a.1 ++ [(police a.2 1000000 false).1], (police a.2 1000000 false).2.2)) ([], pl)

def cmdPolicer : Policer := ⟨⟨true, false, 0, 2, 1000, 2000, 4, 8⟩, 4000000, 8000000, none⟩

theorem test_policer_burst : (burst 9 cmdPolicer).1 = [0, 0, 0, 0, 1, 1, 1, 1, 2] := by decide +kernel
theorem test_policer_refilled : (police (refillK 1 500 (burst 9 cmdPolicer).2) 1000000 false).1 = 1 := by decide +kernel

/-- Chapter 10, the guard: 738, 121 and 6 ns for frames of L 9,216, 1,500 and 64 at 100 Gb/s, and a gap of 1 ns. -/
theorem test_frame_times : (frameNs 100 9216, frameNs 100 1500, frameNs 100 64, gapNs 100) = (738, 121, 6, 1) := by decide


/-- An argument that sets one weight, of polder 0, names no other polder. -/
theorem wfq_rest (i : Nat) (h1 : 1 ≤ i) (h2 : i < 16) : fld (argOf (mboxP 0x8C (8 + at8 4 1) id) .mgmt) (4 + i) 0 8 = 0 := by
  have h : ∀ j : Fin 16, 1 ≤ j.val → fld (argOf (mboxP 0x8C (8 + at8 4 1) id) .mgmt) (4 + j.val) 0 8 = 0 := by decide +kernel
  exact h ⟨i, h2⟩ h1

/-- SHA3-256 of the empty string (FIPS 202 example values). -/
theorem test_sha3_empty : sha3Bytes [] = 0x4a43f8804b0ad882fa493be44dff80f562d661a05647c15166d71ebff8c6ffa7 := by decide +kernel

/-- The first 16 bytes of SHAKE128 of the empty string (FIPS 202 example values). -/
theorem test_shake_empty : shake128 [] 16 = 0x3e850576504560617d828fe8a42b9c7f := by decide +kernel

/-- The CRC-32C check value of "123456789". -/
theorem test_crc_check : crc32c (ascii "123456789") = 0xE3069283 := by decide +kernel

/-- AES-256 of the example block under the example key (FIPS 197, appendix C.3). -/
theorem test_aes_example : aesBlock (roundKeys (ofBytes (List.range 32))) ((List.range 16).map (fun i => 17 * i)) =
    [0x8e, 0xa2, 0xb7, 0xca, 0x51, 0x67, 0x45, 0xbf, 0xea, 0xfc, 0x49, 0x90, 0x4b, 0x49, 0x60, 0x89] := by decide +kernel

theorem delivered_valid : stageOk (mbox 0x84 (at8 16 3860)).fuses (fld (argOf (mbox 0x84 (at8 16 3860)) .mgmt) 16 0 32) imageDelivered = true := by
  have hi : imageDelivered = { header := 1 + at8 32 0x4a43f8804b0ad882fa493be44dff80f562d661a05647c15166d71ebff8c6ffa7, body := 0, key := 0, sigOk := true } := by
    simp only [imageDelivered, test_sha3_empty]
  have hk : (mbox 0x84 (at8 16 3860)).fuses.keyHash[(0 : Nat)] = sha3Of [(1312, 0)] := by
    simp only [sha3Of, List.flatMap_cons, List.flatMap_nil, List.append_nil]; simp [mbox, upM, mboxM, up, State.reset, fusesDelivered]
  have h1 : imageDelivered.keySlot = 0 := by rw [hi]; decide +kernel
  have h2 : imageDelivered.bytes = 0 := by rw [hi]; decide +kernel
  have h3 : imageDelivered.digest = sha3Bytes [] := by rw [hi, test_sha3_empty]; decide +kernel
  have h4 : sha3Of [(0, imageDelivered.body)] = sha3Bytes [] := rfl
  have h5 : (mbox 0x84 (at8 16 3860)).fuses.minSvn ≤ imageDelivered.svn := by rw [hi]; decide +kernel
  have h6 : bit (mbox 0x84 (at8 16 3860)).fuses.revoke 0 = false := by decide +kernel
  have h7 : fld (argOf (mbox 0x84 (at8 16 3860)) .mgmt) 16 0 32 = 3860 := by decide +kernel
  have h8 : imageDelivered.key = 0 := rfl
  have h9 : imageDelivered.sigOk = true := rfl
  simp only [stageOk, imageValid, h1, h2, h3, h4, h6, h7, h8, h9, hk]
  simp [maxBody, h5]

-- States and operands that meet the hypotheses of each statement.

/-- States and operands that meet the hypotheses of StepRunsTheFrontCommand. -/
theorem test_meets_stepRunsTheFrontCommand :
    ∃ (s : State), s.pending = [] :=
  ⟨State.reset, by decide +kernel⟩

/-- States and operands that meet the hypotheses of OnlyStartsAndActivationChangeFuses. -/
theorem test_meets_onlyStartsAndActivationChangeFuses :
    ∃ (c : Instr) (s t : State), exec c s = .next t ∧ (∀ b u, c ≠ .coldStart b u) ∧ (∀ b u, c ≠ .mrstLRelease b u) ∧ (∀ b u, c ≠ .warmReset b u) ∧ (∀ b n g, c ≠ .fwUpdateActivate b n g) :=
  ⟨.idcode, up, nextOf .idcode up, rfl, by simp, by simp, by simp, by simp⟩

/-- States and operands that meet the hypotheses of BlownFusesStayBlown. -/
theorem test_meets_blownFusesStayBlown :
    ∃ (f : Fuses) (s t : State), FusesKeep f s.fuses ∧ step s = .next t :=
  ⟨up.fuses, up, up, ⟨rfl, rfl, rfl, rfl, fun _ h => h, fun _ h => h⟩, rfl⟩

/-- States and operands that meet the hypotheses of AftermathOnlySendsInterrupts. -/
theorem test_meets_aftermathOnlySendsInterrupts :
    ∃ (m : Mod), NoDissolve m :=
  ⟨up.m, by unfold NoDissolve; decide +kernel⟩

/-- States and operands that meet the hypotheses of IdleModuleKeepsItsState. -/
theorem test_meets_idleModuleKeepsItsState :
    ∃ (c : Instr) (s : State), s.m.working = false ∧ (∀ b u, c ≠ .coldStart b u) ∧ (∀ b u, c ≠ .mrstLRelease b u) ∧ c ≠ .powerFailure ∧ c ≠ .powerFailProgramsDone ∧ c ≠ .moduleReset ∧ c ≠ .hvlRst ∧ (∀ g, c ≠ .hvlRstLRelease g) ∧ c ≠ .bypass ∧ c ≠ .idcode ∧ c ≠ .samplePreload ∧ c ≠ .extest ∧ c ≠ .extestPulse ∧ c ≠ .extestTrain ∧ c ≠ .clamp ∧ c ≠ .highz :=
  ⟨.autoSeal ⟨0, 0⟩, State.reset, rfl, by simp⟩

/-- States and operands that meet the hypotheses of PowerAndPinCommands. -/
theorem test_meets_powerAndPinCommands :
    (∃ (s : State), s.m.sys.pins.failing = false ∧ s.m.sys.pins.off = false) ∧
    (∃ (s : State), s.m.sys.pins.failing = true) ∧
    (∃ (s : State), s.m.sys.pins.failing = false ∧ s.m.sys.pins.off = false ∧ s.m.sys.pins.mrst = false) ∧
    (∃ (s : State), s.m.sys.pins.hvlRst = true) ∧
    (∃ (s : State), ∃ mv, s.m.working = true ∧ (51000 ≤ mv ∧ mv ≤ 59000) ∧ s.m.sys.wd.vinGood = true) ∧
    (∃ (s : State), ∃ mv, s.m.working = true ∧ (mv < 51000 ∨ 59000 < mv) ∧ s.m.sys.wd.vinGood = true) ∧
    (∃ (s : State) (k : Fin 4) (t : Nat), s.m.working = true ∧ s.m.front.ready = true ∧ s.m.net.ports[k].up = false ∧ s.m.net.board.isSome = true ∧ fencedBit s.m.fence.link k.val = false ∧ s.m.net.ports[k].retryAt ≤ max s.m.hvl t) :=
  ⟨⟨up, by decide +kernel⟩,
    ⟨upM (fun m => modPins m (fun p => { p with failing := true })), by decide +kernel⟩,
    ⟨up, by decide +kernel⟩,
    ⟨upM (fun m => modPins m (fun p => { p with hvlRst := true })), by decide +kernel⟩,
    ⟨up, 51000, by decide +kernel⟩,
    ⟨up, 59001, by decide +kernel⟩,
    ⟨upM (fun m => { m with net := { m.net with board := some boardZero } }), 3, 0, by decide +kernel⟩⟩

/-- States and operands that meet the hypotheses of ColdStartRunsTheStages. -/
theorem test_meets_coldStartRunsTheStages :
    (∃ (s : State) (b : BootIn), s.m.working = false ∧ s.m.sys.pins.failing = false ∧ s.m.sys.pins.mrst = false ∧ b.fails = []) ∧
    (∃ (s : State) (n : Nat), starting s.m = true ∧ s.m.front.stage = 13 ∧ s.m.sys.pins.failing = false ∧ s.m.sys.pins.mrst = false ∧ 14 ≤ n) ∧
    (∃ (s : State), s.m.sys.pins.mrst = true ∧ s.m.sys.pins.off = false ∧ s.m.sys.pins.failing = false) :=
  ⟨⟨State.reset, bootZero, by decide +kernel⟩,
    ⟨upM (fun m => { m with front := { m.front with stage := 13 } }), 14, by decide +kernel⟩,
    ⟨upM (fun m => modPins m (fun p => { p with mrst := true })), by decide +kernel⟩⟩

/-- States and operands that meet the hypotheses of SidebandAndTestPort. -/
theorem test_meets_sidebandAndTestPort :
    (∃ (s : State), s.m.sys.pins.off = false ∧ (s.m.working = true ∨ s.m.sys.pins.test ≠ 0)) ∧
    (∃ (s : State), s.m.working = true) ∧
    (∃ (s : State), s.m.working = true ∧ alert s.m = true) ∧
    (∃ (s : State), s.m.working = true ∧ alert s.m = false) ∧
    (∃ (s : State) (off : Nat), s.m.working = true ∧ off % 4 = 0 ∧ off ≤ 0xFFC) ∧
    (∃ (s : State), s.m.working = true ∧ s.m.sys.pins.smbOff + 4 ≤ 0x1000) ∧
    (∃ (s : State) (ws : List Nat), s.m.working = true ∧ 0x1000 < s.m.sys.pins.smbOff + 4 * ws.length) ∧
    (∃ (n d : Nat), 0 < d ∧ n < 1024 * d) :=
  ⟨⟨up, by decide +kernel⟩,
    ⟨up, by decide +kernel⟩,
    ⟨upM (fun m => modWd m (fun w => { w with bootFail := true })), by decide +kernel⟩,
    ⟨up, by decide +kernel⟩,
    ⟨up, 0xFFC, by decide +kernel⟩,
    ⟨upM (fun m => modPins m (fun p => { p with smbOff := 0xFFC })), by decide +kernel⟩,
    ⟨upM (fun m => modPins m (fun p => { p with smbOff := 0xFFC })), [1, 2], by decide +kernel⟩,
    ⟨1, 1, by decide +kernel⟩⟩

/-- States and operands that meet the hypotheses of RegisterWrites. -/
theorem test_meets_registerWrites :
    (∃ (s : State) (pr : Priv), s.m.working = true ∧ pr ≠ .user) ∧
    (∃ (s : State) (pr : Priv), s.m.working = true ∧ pr = .user) ∧
    (∃ (s : State), s.m.working = true) ∧
    (∃ (s : State), s.m.working = true ∧ s.m.front.mbx.busy = false) ∧
    (∃ (s : State), s.m.working = true ∧ s.m.front.mbx.busy = true) ∧
    (∃ (s : State) (p : Fin 16) (pr : Priv), s.m.working = true ∧ polWriteOk s.m p pr = true) ∧
    (∃ (s : State) (p : Fin 16) (off : Nat), s.m.working = true ∧ polWriteOk s.m p .user = false ∧ off % 4 = 0) ∧
    (∃ (s : State) (off : Nat), s.m.working = true ∧ off % 4 ≠ 0) :=
  ⟨⟨up, .secure, by decide +kernel⟩,
    ⟨up, .user, by decide +kernel⟩,
    ⟨up, by decide +kernel⟩,
    ⟨up, by decide +kernel⟩,
    ⟨mbox 0 0, by decide +kernel⟩,
    ⟨up, 15, .user, by decide +kernel⟩,
    ⟨upM (fun m => { m with front := { m.front with privMap := Tri.mk1 1 } }), 0, 0, by decide +kernel⟩,
    ⟨up, 3, by decide +kernel⟩⟩

/-- States and operands that meet the hypotheses of UserWritesOfPrivilegedApertures. -/
theorem test_meets_userWritesOfPrivilegedApertures :
    ∃ (r : Region), (∀ p, r ≠ .pol p) :=
  ⟨.mgmt, by simp⟩

/-- States and operands that meet the hypotheses of PolderApertureIsolation. -/
theorem test_meets_polderApertureIsolation :
    ∃ (p q : Fin 16), q ≠ p :=
  ⟨0, 15, by decide +kernel⟩

/-- States and operands that meet the hypotheses of TestPerturbations. -/
theorem test_meets_testPerturbations :
    (∃ (s : State) (v : Nat), s.m.working = true ∧ s.fuses.debugLock = false ∧ bit v 8 = true ∧ arrayFenced s.m (v % 256) = false) ∧
    (∃ (s : State) (v : Nat), s.m.working = true ∧ s.fuses.debugLock = false ∧ bit v 16 = true ∧ v % 4 = 0) ∧
    (∃ (s : State) (v : Nat), s.m.working = true ∧ s.fuses.debugLock = false ∧ bit v 2 = true ∧ unitFenced s.m 0x06 (v % 4) = false) ∧
    (∃ (s : State) (v : Nat), s.m.working = true ∧ s.fuses.debugLock = false ∧ bit v 5 = true ∧ v % 8 ≠ 7 ∧ v / 8 % 4 ≠ 3) ∧
    (∃ (s : State) (v : Nat), s.m.working = true ∧ s.fuses.debugLock = false ∧ v % 64 < 36 ∧ fencedBit s.m.fence.sensor (v % 64) = false ∧ bit v 31 = false) ∧
    (∃ (s : State) (v : Nat) (pr : Priv) (c : Instr), s.m.working = true ∧ s.fuses.debugLock = true ∧ c ∈ [.tstResInject v pr, .tstEccInject v pr, .tstStallInject v pr, .tstLockstepInject v pr, .tstTrInject v pr, .tstSensorOffset v pr]) :=
  ⟨⟨{ up with fuses := { fusesDelivered with debugLock := false } }, 0x1FF, by decide +kernel⟩,
    ⟨{ up with fuses := { fusesDelivered with debugLock := false } }, 0x10000, by decide +kernel⟩,
    ⟨{ up with fuses := { fusesDelivered with debugLock := false } }, 7, by decide +kernel⟩,
    ⟨{ up with fuses := { fusesDelivered with debugLock := false } }, 0x20, by decide +kernel⟩,
    ⟨{ up with fuses := { fusesDelivered with debugLock := false } }, 35, by decide +kernel⟩,
    ⟨up, 0, .user, .tstSensorOffset 0 .user, rfl, rfl, by simp⟩⟩

/-- States and operands that meet the hypotheses of ComparisonWindowLatches. -/
theorem test_meets_comparisonWindowLatches :
    (∃ (s : State) (pr : Priv), s.m.working = true ∧ cmpSeen s.m pr = true) ∧
    (∃ (s : State) (i j : Fin 16) (pr : Priv) (t u : State), s.m.working = true ∧ cmpSeen s.m pr = true ∧ NoDissolve s.m ∧ exec (.cmpLoRead i pr) s = .next t ∧ exec (.cmpHiRead j pr) t = .next u) :=
  ⟨⟨up, .secure, by decide +kernel⟩,
    ⟨up, 0, 15, .secure, nextOf (.cmpLoRead 0 .secure) up, nextOf (.cmpHiRead 15 .secure) (nextOf (.cmpLoRead 0 .secure) up), rfl, rfl, by unfold NoDissolve; decide +kernel, rfl, rfl⟩⟩

/-- States and operands that meet the hypotheses of CrossDomainReads. -/
theorem test_meets_crossDomainReads :
    (∃ (s : State) (r : Region) (off : Nat), s.m.working = true ∧ isXd r off = true ∧ off % 4 = 0 ∧ mirrorMode s.m = false ∧ ownerDown s.m r off = false) ∧
    (∃ (s : State) (r : Region) (off : Nat), s.m.working = true ∧ isXd r off = true ∧ off % 4 = 0 ∧ mirrorMode s.m = false ∧ ownerDown s.m r off = true) ∧
    (∃ (s : State) (r : Region) (off : Nat), s.m.working = true ∧ isXd r off = true ∧ off % 4 = 0 ∧ mirrorMode s.m = false) ∧
    (∃ (s : State) (r : Region) (off : Nat), s.m.working = true ∧ isXd r off = true ∧ off % 4 = 0 ∧ mirrorMode s.m = true) ∧
    (∃ (s : State), s.m.working = true ∧ s.m.sys.wd.coresWedged = false ∧ s.m.sys.wd.fabWedged = false ∧ mirrorMode s.m = true) ∧
    (∃ (s : State), s.m.working = true ∧ s.m.sys.wd.coresWedged = false ∧ s.m.sys.wd.fabWedged = false ∧ mirrorMode s.m = false) :=
  ⟨⟨upM (fun m => { m with front := { m.front with profile := Tri.mk1 1 } }), .mgmt, 0x10, by decide +kernel⟩,
    ⟨{ upM (fun m => { m with front := { m.front with profile := Tri.mk1 1 } }) with m := modWd (upM (fun m => { m with front := { m.front with profile := Tri.mk1 1 } })).m (fun w => { w with coresWedged := true }) }, .mgmt, 0x10, by decide +kernel⟩,
    ⟨upM (fun m => { m with front := { m.front with profile := Tri.mk1 1 } }), .mgmt, 0x10, by decide +kernel⟩,
    ⟨up, .mgmt, 0x10, by decide +kernel⟩,
    ⟨up, by decide +kernel⟩,
    ⟨upM (fun m => { m with front := { m.front with profile := Tri.mk1 1 } }), by decide +kernel⟩⟩

/-- States and operands that meet the hypotheses of SweepRepairsEveryField. -/
theorem test_meets_sweepRepairsEveryField :
    (∃ (s : State) (u : Nat), s.m.working = true ∧ NoDissolve s.m ∧ s.m.sys.wd.trAt + 1000000 ≤ max s.m.hvl u ∧ EveryFieldVotes s.m) ∧
    (∃ (s : State) (u : Nat), s.m.working = true ∧ max s.m.hvl u < s.m.sys.wd.trAt + 1000000) :=
  ⟨⟨up, 1000000, rfl, by unfold NoDissolve; decide +kernel, by decide +kernel, by unfold EveryFieldVotes; decide +kernel⟩,
    ⟨up, 999999, by decide +kernel⟩⟩

/-- States and operands that meet the hypotheses of DoorbellWrites. -/
theorem test_meets_doorbellWrites :
    (∃ (s : State) (p r : Fin 16) (v : Nat) (pr : Priv), s.m.working = true ∧ polWriteOk s.m p pr = true ∧ advance16 s.m.pol[p].sqs[r].tail v - s.m.pol[p].sqs[r].head ≤ s.m.pol[p].sqs[r].depth) ∧
    (∃ (s : State) (p r : Fin 16) (v : Nat) (pr : Priv), s.m.working = true ∧ polWriteOk s.m p pr = true ∧ s.m.pol[p].sqs[r].depth < advance16 s.m.pol[p].sqs[r].tail v - s.m.pol[p].sqs[r].head) ∧
    (∃ (s : State) (p r : Fin 16) (v : Nat) (pr : Priv), s.m.working = true ∧ polWriteOk s.m p pr = true ∧ advance16 s.m.pol[p].cqs[r].head v ≤ s.m.pol[p].cqs[r].posted) ∧
    (∃ (s : State) (p r : Fin 16) (v : Nat) (pr : Priv), s.m.working = true ∧ polWriteOk s.m p pr = true ∧ s.m.pol[p].cqs[r].posted < advance16 s.m.pol[p].cqs[r].head v) :=
  ⟨⟨upP id, 0, 0, 16, .user, by decide +kernel⟩,
    ⟨upP id, 0, 0, 17, .user, by decide +kernel⟩,
    ⟨upP id, 0, 0, 0, .user, by decide +kernel⟩,
    ⟨upP id, 0, 0, 1, .user, by decide +kernel⟩⟩

/-- States and operands that meet the hypotheses of RingConfiguration. -/
theorem test_meets_ringConfiguration :
    (∃ (s : State) (p r : Fin 16) (v : Nat) (pr : Priv), s.m.working = true ∧ polWriteOk s.m p pr = true ∧ s.m.pol[p].sqs[r].en = false ∧ s.m.pol[p].sqs[r].cq = v / 16 % 16 ∧ 4 ≤ v % 16 ∧ v % 16 ≤ 12 ∧ s.m.pol[p].sqs[r].base % 4096 = 0 ∧ s.m.pol[p].cqs[pn (v / 16 % 16)].en = true) ∧
    (∃ (s : State) (p r : Fin 16) (v : Nat) (pr : Priv), s.m.working = true ∧ polWriteOk s.m p pr = true ∧ s.m.pol[p].sqs[r].en = true ∧ v % 16 ≠ s.m.pol[p].sqs[r].order) ∧
    (∃ (s : State) (p r : Fin 16) (v : Nat) (pr : Priv), s.m.working = true ∧ polWriteOk s.m p pr = true ∧ s.m.pol[p].cqs[r].en = false ∧ 4 ≤ v % 16 ∧ v % 16 ≤ 14 ∧ s.m.pol[p].cqs[r].base % 4096 = 0) ∧
    (∃ (s : State) (p r : Fin 16) (v : Nat) (pr : Priv), s.m.working = true ∧ polWriteOk s.m p pr = true ∧ s.m.pol[p].cqs[r].en = true ∧ v % 16 = s.m.pol[p].cqs[r].order ∧ bit v 9 = false ∧ 0 < s.m.pol[p].cqs[r].inflight) :=
  ⟨⟨upP id, 0, 1, 12, .user, by decide +kernel⟩,
    ⟨upP id, 0, 0, 5, .user, by decide +kernel⟩,
    ⟨upP id, 0, 15, 14, .user, by decide +kernel⟩,
    ⟨upP (fun q => { q with cqs := q.cqs.set 0 { q.cqs[0] with inflight := 1 } }), 0, 0, 4, .user, by decide +kernel⟩⟩

/-- States and operands that meet the hypotheses of EventsAndModerationTimers. -/
theorem test_meets_eventsAndModerationTimers :
    (∃ (s : State) (p : Fin 16) (e : Event), s.m.working = true ∧ s.m.pol[p].events = [e] ∧ s.m.pol[p].cqs[(0 : Fin 16)].en = true ∧ s.m.pol[p].cqs[(0 : Fin 16)].used < s.m.pol[p].cqs[(0 : Fin 16)].depth) ∧
    (∃ (s : State) (p c : Fin 16) (t : Nat), s.m.working = true ∧ s.m.pol[p].cqs[c].unsig ≠ 0 ∧ s.m.pol[p].cqs[c].modUs ≠ 0 ∧ s.m.pol[p].cqs[c].oldest + s.m.pol[p].cqs[c].modUs * 1000 ≤ max s.m.pol[p].clk t ∧ polIrqOn s.m p s.m.pol[p].cqs[c].vector = true) ∧
    (∃ (s : State) (p c : Fin 16) (t : Nat), s.m.working = true ∧ max s.m.pol[p].clk t < s.m.pol[p].cqs[c].oldest + s.m.pol[p].cqs[c].modUs * 1000) :=
  ⟨⟨upP (fun q => { q with events := [⟨1, 0, 0, 0, 0, 0⟩] }), 0, ⟨1, 0, 0, 0, 0, 0⟩, by decide +kernel⟩,
    ⟨upP (fun q => { q with cqs := q.cqs.set 0 { q.cqs[0] with unsig := 1, modUs := 5 } }), 0, 0, 5000, by decide +kernel⟩,
    ⟨upP (fun q => { q with cqs := q.cqs.set 0 { q.cqs[0] with unsig := 1, modUs := 5 } }), 0, 0, 4999, by decide +kernel⟩⟩

/-- States and operands that meet the hypotheses of IntakeTakesTheHeadEntry. -/
theorem test_meets_intakeTakesTheHeadEntry :
    (∃ (m : Mod) (p r : Fin 16) (heads : List HeadEntry) (h : HeadEntry) (e : Block), heads.find? (fun x => x.sq == r) = some h ∧ m.pol[p].sealed = false ∧ m.pol[p].sqs[r].en = true ∧ m.pol[p].sqs[r].tail ≠ m.pol[p].sqs[r].head ∧ m.pol[p].cqs[pn m.pol[p].sqs[r].cq].en = true ∧ m.pol[p].cqs[pn m.pol[p].sqs[r].cq].used < m.pol[p].cqs[pn m.pol[p].sqs[r].cq].depth ∧ m.pol[p].sqs[r].cqSince = none ∧ m.pol[p].sqs[r].shareSince = none ∧ m.pol[p].sqs[r].held = none ∧ m.pol[p].ops < opsShare m ∧ (∀ i : Fin 6, m.pol[p].polic[i].set.en = false) ∧ headEntry m p r h = some e ∧ entryBad m p e = none) ∧
    (∃ (s : State) (p : Fin 16) (t : Nat) (heads : List HeadEntry) (m1 : Mod), s.m.working = true ∧ s.m.pol[p].composed = true ∧ s.m.pol[p].fenced = false ∧ s.m.pol[p].resetting = false ∧ s.m.front.ready = true ∧ s.m.sys.fw.act = none ∧ s.m.sys.wd.sealed = false ∧ s.m.pol[p].sealed = false ∧ (∀ r : Fin 16, s.m.pol[p].sqs[r].held = none) ∧ tryRing (tickPol s.m p t) p (pn s.m.pol[p].rrNext) heads = (true, m1)) :=
  ⟨⟨(upP (fun q => { q with sqs := q.sqs.set 0 { q.sqs[0] with tail := 1 } })).m, 0, 0, [⟨0, 0x18⟩], ⟨0, 0x18⟩, 0x18, by decide +kernel⟩,
    ⟨upP (fun q => { q with sqs := q.sqs.set 0 { q.sqs[0] with tail := 1 } }), 0, 0, [⟨0, 0x18⟩], (tryRing (tickPol (upP (fun q => { q with sqs := q.sqs.set 0 { q.sqs[0] with tail := 1 } })).m 0 0) 0 0 [⟨0, 0x18⟩]).2, by (repeat' apply And.intro) <;> first | decide +kernel | exact Prod.ext (by decide +kernel) rfl⟩⟩

/-- States and operands that meet the hypotheses of IntakeKeepsCompletionSlots: a ring with a waiting entry and a free slot, and a full one. -/
theorem test_meets_intakeKeepsCompletionSlots :
    (∃ (m : Mod) (p r : Fin 16), (∀ c : Fin 16, (m.pol[p].cqs[c]).ok) ∧ m.pol[p].cqs[pn m.pol[p].sqs[r].cq].used < m.pol[p].cqs[pn m.pol[p].sqs[r].cq].depth) ∧
    (∃ (m : Mod) (p r : Fin 16), (∀ c : Fin 16, (m.pol[p].cqs[c]).ok) ∧ m.pol[p].cqs[pn m.pol[p].sqs[r].cq].depth ≤ m.pol[p].cqs[pn m.pol[p].sqs[r].cq].used) :=
  ⟨⟨(ring 0x18 id).m, 0, 0, by simp only [Cq.ok]; decide +kernel⟩,
    ⟨(upP (fun q => { q with cqs := q.cqs.set 0 { q.cqs[0] with order := 2, posted := 4, inflight := 0, head := 0 } })).m, 0, 0, by simp only [Cq.ok]; decide +kernel⟩⟩

/-- States and operands that meet the hypotheses of CompletionUsesItsReservedSlot. -/
theorem test_meets_completionUsesItsReservedSlot :
    (∃ (m : Mod) (p : Fin 16) (t : Taken), findTaken m.pol[p] t.tag = some t ∧ 0 < m.pol[p].cqs[pn t.cq].inflight ∧ (m.pol[p].cqs[pn t.cq]).head ≤ (m.pol[p].cqs[pn t.cq]).posted) ∧
    (∃ (m : Mod) (p : Fin 16) (t : Taken) (q : Fin 16), findTaken m.pol[p] t.tag = some t ∧ 0 < m.pol[p].cqs[pn t.cq].inflight ∧ (m.pol[p].cqs[pn t.cq]).head ≤ (m.pol[p].cqs[pn t.cq]).posted ∧ q ≠ p) :=
  ⟨⟨(ring 0x18 id).m, 0, takenFor 0x18, by decide +kernel⟩,
    ⟨(ring 0x18 id).m, 0, takenFor 0x18, 1, by decide +kernel⟩⟩

/-- States and operands that meet the hypotheses of MailboxAcceptsAtGo. -/
theorem test_meets_mailboxAcceptsAtGo :
    ∃ (m : Mod) (b : Box) (off : Nat), (getMbx m b).busy = true ∧ (off = 0 ∨ off = 4 ∨ (0x40 ≤ off ∧ off < 0x80)) :=
  ⟨(mbox 0x90 0).m, .mgmt, 0x7C, by decide +kernel⟩

/-- States and operands that meet the hypotheses of ProfileAndPolderCommands. -/
theorem test_meets_profileAndPolderCommands :
    (∃ (s : State) (b : Box), let m := mbxBegun s.m b; Accepts s b 0x80 ∧ (∀ p : Fin 16, m.pol[p].composed = false ∧ m.pol[p].diss = none) ∧ s.m.sys.boot.saved = none) ∧
    (∃ (s : State) (b : Box), let m := mbxBegun s.m b; let a := argOf s b; Accepts s b 0x81 ∧ composeBad s.fuses m (pn (fld a 0 0 4)) a = false) ∧
    (∃ (s : State) (b : Box), let m := mbxBegun s.m b; let a := argOf s b; Accepts s b 0x82 ∧ polderBusy m (pn (fld a 0 0 4)) = false ∧ m.pol[pn (fld a 0 0 4)].composed = true ∧ leasesLeft (settleSessions (stopPolder m (pn (fld a 0 0 4)) stAborted) (pn (fld a 0 0 4))) (pn (fld a 0 0 4)) = false) ∧
    (∃ (s : State) (b : Box), let m := mbxBegun s.m b; let a := argOf s b; Accepts s b 0x82 ∧ polderBusy m (pn (fld a 0 0 4)) = false ∧ m.pol[pn (fld a 0 0 4)].composed = true ∧ leasesLeft (settleSessions (stopPolder m (pn (fld a 0 0 4)) stAborted) (pn (fld a 0 0 4))) (pn (fld a 0 0 4)) = true) ∧
    (∃ (s : State) (b : Box), let p := pn (fld (argOf s b) 0 0 4); Accepts s b 0x83 ∧ polderBusy s.m p = false ∧ s.m.pol[p].composed = true) ∧
    (∃ (s : State) (b : Box), let p := pn (fld (argOf s b) 0 0 4); ∃ (r : RstRun), s.m.working = true ∧ s.m.pol[p].rst = some r ∧ r.box = b ∧ r.step = 5 ∧ (getMbx s.m b).busy = true ∧ (getMbx s.m b).started = true ∧ (getMbx s.m b).runCmd % 256 = 0x83) :=
  ⟨⟨mbox 0x80 0, .mgmt, by unfold Accepts; decide +kernel⟩,
    ⟨mbox 0x81 (at8 2 1 + at8 4 1 + at8 8 1), .mgmt, by unfold Accepts; decide +kernel⟩,
    ⟨mboxP 0x82 0 id, .mgmt, by unfold Accepts; decide +kernel⟩,
    ⟨{ mboxP 0x82 0 id with m := { (mboxP 0x82 0 id).m with dir := [(5, { Desc.blank 1 with life := .parked, own := .pendingOut })] } }, .mgmt, by unfold Accepts; decide +kernel⟩,
    ⟨mboxP 0x83 0 id, .mgmt, by unfold Accepts; decide +kernel⟩,
    ⟨{ mboxP 0x83 0 (fun q => { q with rst := some ⟨.mgmt, 5, 0⟩ }) with m := modMbx (mboxP 0x83 0 (fun q => { q with rst := some ⟨.mgmt, 5, 0⟩ })).m .mgmt (fun x => { x with started := true }) }, .mgmt, ⟨.mgmt, 5, 0⟩, by decide +kernel⟩⟩

/-- States and operands that meet the hypotheses of ComposedPolderContents. -/
theorem test_meets_composedPolderContents :
    (∃ k, k < 9) ∧
    (∃ (a : Nat), flg a 0 6 = false) ∧
    (∃ (p q : Fin 16), q ≠ p) :=
  ⟨⟨8, by decide +kernel⟩,
    ⟨0, by decide +kernel⟩,
    ⟨0, 15, by decide +kernel⟩⟩

/-- States and operands that meet the hypotheses of FirmwareCommands. -/
theorem test_meets_firmwareCommands :
    (∃ (s : State) (b : Box), let a := argOf s b; ∃ (img : FwImage), Accepts s b 0x84 ∧ fld a 16 0 32 ≠ 0 ∧ fld a 8 0 64 % 64 = 0 ∧ stageOk s.fuses (fld a 16 0 32) img = true) ∧
    (∃ (s : State) (b : Box), let a := argOf s b; Accepts s b 0x84 ∧ fld a 16 0 32 = 0) ∧
    (∃ (s : State) (b : Box), let m := mbxBegun s.m b; let a := argOf s b; ∃ (i : FwImage), Accepts s b 0x85 ∧ s.m.sys.fw.act = none ∧ s.m.sys.fw.staged = some i ∧ activateBad s.fuses m a = false ∧ (∀ p : Fin 16, polderBusy m p = false)) ∧
    (∃ (s : State) (b : Box), let a := argOf s b; Accepts s b 0x85 ∧ s.m.sys.fw.act = none ∧ (s.m.sys.fw.staged = none ∨ ∃ i, s.m.sys.fw.staged = some i ∧ ((flg a 0 1 = true ∧ bit (fld a 1 0 4) i.keySlot = true) ∨ (s.fuses.revoke ||| if flg a 0 1 then fld a 1 0 4 else 0) % 16 = 15))) ∧
    (∃ (s : State) (b : Box) (i : FwImage) (x : Activation), s.m.working = true ∧ s.m.sys.fw.act = some x ∧ x.step = 3 ∧ s.m.sys.fw.staged = some i ∧ (getMbx s.m b).busy = true ∧ (getMbx s.m b).started = true ∧ (getMbx s.m b).runCmd % 256 = 0x85 ∧ s.m.sys.wd.sealed = false) ∧
    (∃ (s : State) (b : Box) (x : Activation), s.m.working = true ∧ s.m.sys.fw.act = some x ∧ x.step = 4 ∧ (getMbx s.m b).busy = true ∧ (getMbx s.m b).started = true ∧ (getMbx s.m b).runCmd % 256 = 0x85 ∧ s.m.sys.wd.sealed = false) :=
  ⟨⟨mbox 0x84 (at8 16 3860), .mgmt, imageDelivered, by unfold Accepts; decide +kernel, by decide +kernel, by decide +kernel, delivered_valid⟩,
    ⟨mbox 0x84 0, .mgmt, by unfold Accepts; decide +kernel⟩,
    ⟨{ mbox 0x85 (0) with m := modMbx (modFw (mbox 0x85 (0)).m (fun w => { w with staged := some imageDelivered })) .mgmt id }, .mgmt, imageDelivered, by unfold Accepts; decide +kernel⟩,
    ⟨mbox 0x85 0, .mgmt, by unfold Accepts; decide +kernel, by decide +kernel, Or.inl (by decide +kernel)⟩,
    ⟨{ mbox 0x85 (0) with m := modMbx (modFw (mbox 0x85 (0)).m (fun w => { w with staged := some imageDelivered, act := some ⟨⟨0, none, 0⟩, 3⟩ })) .mgmt (fun x => { x with started := true }) }, .mgmt, imageDelivered, ⟨⟨0, none, 0⟩, 3⟩, by decide +kernel⟩,
    ⟨{ mbox 0x85 (0) with m := modMbx (modFw (mbox 0x85 (0)).m (fun w => { w with act := some ⟨⟨0, none, 0⟩, 4⟩ })) .mgmt (fun x => { x with started := true }) }, .mgmt, ⟨⟨0, none, 0⟩, 4⟩, by decide +kernel⟩⟩

/-- States and operands that meet the hypotheses of KeyAndQuoteCommands. -/
theorem test_meets_keyAndQuoteCommands :
    (∃ (s : State) (b : Box), let a := argOf s b; b = .mgmt ∧ Accepts s b 0x86 ∧ fld a 0 0 8 = 0xFF ∧ fld a 8 0 64 % 64 = 0 ∧ 7688 ≤ fld a 16 0 32 ∧ s.m.sys.fw.act = none) ∧
    (∃ (s : State) (b : Box), let m := mbxBegun s.m b; let a := argOf s b; ∃ (p : Fin 16), Accepts s b 0x87 ∧ flg a 1 0 = false ∧ argPolder m a = some p ∧ bit (keyselOf m.pol[p]) 1 = false ∧ s.m.entropyOk = true) ∧
    (∃ (s : State) (b : Box), let m := mbxBegun s.m b; let a := argOf s b; ∃ (p : Fin 16) (x : Block), Accepts s b 0x87 ∧ flg a 1 0 = true ∧ argPolder m a = some p ∧ fld a 16 0 64 % 4096 = 0 ∧ fld a 24 0 64 % 4096 = 0 ∧ 65536 ≤ fld a 24 0 64 ∧ fld a 24 0 64 ≤ 2 ^ 34 ∧ s.m.entropyOk = true ∧ m.pol[p].sealed = true ∧ sha3Of [(1312, setupKey x)] = m.pol[p].tenant) :=
  ⟨⟨mbox 0x86 (0xFF + at8 16 7688), .mgmt, by unfold Accepts; decide +kernel⟩,
    ⟨mboxP 0x87 0 id, .mgmt, 0, by unfold Accepts; decide +kernel⟩,
    ⟨mboxP 0x87 (at8 1 1 + at8 24 65536) (fun q => { q with sealed := true, tenant := sha3Of [(1312, setupKey 0)] }), .mgmt, 0, 0, by (repeat' apply And.intro) <;> first | decide +kernel | rfl⟩⟩

/-- States and operands that meet the hypotheses of SettingAndAccountCommands. -/
theorem test_meets_settingAndAccountCommands :
    (∃ (s : State) (b : Box), let m := mbxBegun s.m b; let a := argOf s b; ∃ (p : Fin 16), Accepts s b 0x89 ∧ argPolder m a = some p ∧ flg a 1 0 = true ∧ flg a 1 1 = true ∧ flg a 1 2 = true ∧ fld a 2 0 16 ≠ 0 ∧ fld a 2 0 16 ≤ 1000 ∧ dikeBad m m.pol[p] .crest (dikeOf a 16 true) = false ∧ dikeBad m m.pol[p] .berm (dikeOf a 32 false) = false ∧ dikeBad m m.pol[p] .toe (dikeOf a 48 false) = false ∧ m.pol[p].fenced = false ∧ dikeLow m.pol[p] .crest (dikeOf a 16 true) = false ∧ dikeLow m.pol[p] .berm (dikeOf a 32 false) = false ∧ dikeLow m.pol[p] .toe (dikeOf a 48 false) = false) ∧
    (∃ (s : State) (b : Box), let a := argOf s b; Accepts s b 0x8F ∧ fld a 0 0 2 = 0 ∧ s.m.sys.time.conf % 4 = 0) ∧
    (∃ (s : State) (b : Box), let a := argOf s b; Accepts s b 0x93 ∧ flg a 0 0 = true ∧ flg a 0 1 = false ∧ flg a 0 2 = false ∧ 100 ≤ fld a 2 0 16 ∧ fld a 2 0 16 ≤ 60000 ∧ 10 ≤ fld a 4 0 16 ∧ 2 * fld a 4 0 16 ≤ fld a 2 0 16 ∧ 20 ≤ fld a 6 0 16 ∧ fld a 6 0 16 ≤ 5000 ∧ 1 ≤ fld a 8 0 16 ∧ fld a 8 0 16 ≤ 1000) ∧
    (∃ (s : State) (b : Box), let m := mbxBegun s.m b; let a := argOf s b; ∃ (p : Fin 16), Accepts s b 0x94 ∧ argPolder m a = some p ∧ fld a 2 0 16 ≠ 0 ∧ fld a 4 0 8 ≠ 0 ∧ fld a 5 0 8 ≠ 0 ∧ fld a 5 0 8 ≤ 16 ∧ fld a 6 0 8 ≠ 0 ∧ fld a 6 0 8 ≤ 50 ∧ fld a 7 0 8 ≠ 0 ∧ fld a 8 0 3 = 0) ∧
    (∃ (s : State) (b : Box), let m := mbxBegun s.m b; let a := argOf s b; ∃ (p : Fin 16), Accepts s b 0x90 ∧ argPolder m a = some p ∧ fld a 1 0 2 ≠ 3 ∧ fld a 8 0 64 % 64 = 0 ∧ m.pol[p].sealed = false ∧ flg a 1 2 = false) ∧
    (∃ (s : State) (b : Box), let m := mbxBegun s.m b; let a := argOf s b; Accepts s b 0x95 ∧ flg a 0 0 = true ∧ m.pol[pn (fld a 1 0 4)].composed = true) ∧
    (∃ (s : State) (b : Box), let m := mbxBegun s.m b; let a := argOf s b; b = .mgmt ∧ Accepts s b 0x95 ∧ flg a 0 0 = false ∧ (∀ p : Fin 16, m.pol[p].composed = false)) :=
  ⟨⟨mboxP 0x89 (at8 1 7 + at8 2 1000 + at8 30 1 + at8 46 1) id, .mgmt, 0, by unfold Accepts; decide +kernel⟩,
    ⟨mbox 0x8F 0, .mgmt, by unfold Accepts; decide +kernel⟩,
    ⟨mbox 0x93 (1 + at8 2 100 + at8 4 10 + at8 6 20 + at8 8 1), .mgmt, by unfold Accepts; decide +kernel⟩,
    ⟨mboxP 0x94 (at8 2 1 + at8 4 1 + at8 5 16 + at8 6 50 + at8 7 1) id, .mgmt, 0, by unfold Accepts; decide +kernel⟩,
    ⟨mboxP 0x90 0 id, .mgmt, 0, by unfold Accepts; decide +kernel⟩,
    ⟨mboxP 0x95 1 id, .mgmt, by unfold Accepts; decide +kernel⟩,
    ⟨mbox 0x95 0, .mgmt, by unfold Accepts; decide +kernel⟩⟩

/-- States and operands that meet the hypotheses of TrafficSettingCommands. -/
theorem test_meets_trafficSettingCommands :
    (∃ (s : State) (b : Box), let m := mbxBegun s.m b; let a := argOf s b; Accepts s b 0x8B ∧ flg a 1 3 = true ∧ polBad m a = false) ∧
    (∃ (s : State) (b : Box), let m := mbxBegun s.m b; let a := argOf s b; Accepts s b 0x8B ∧ flg a 1 3 = false ∧ polBadTarget m a = false) ∧
    (∃ (s : State) (b : Box), let m := mbxBegun s.m b; let a := argOf s b; Accepts s b 0x8C ∧ fld a 0 0 4 ≤ 8 ∧ fld a 4 0 8 ≠ 0 ∧ (∀ i, 1 ≤ i → i < 16 → fld a (4 + i) 0 8 = 0) ∧ m.pol[(0 : Fin 16)].composed = true) ∧
    (∃ (s : State) (b : Box), let m := mbxBegun s.m b; let a := argOf s b; ∃ list, Accepts s b 0x8A ∧ flg a 1 0 = true ∧ sluiceBad m a (sluiceEntries list (min 256 (fld a 2 0 16))) = false) ∧
    (∃ (s : State) (b : Box), let m := mbxBegun s.m b; let a := argOf s b; ∃ (x : Sluice), Accepts s b 0x8A ∧ flg a 1 0 = false ∧ fencedBit m.fence.link (portArg a).val = false ∧ (sluiceDue m (portArg a)).net.ports[portArg a].sluice = some x) ∧
    (∃ (cycle : Nat), 0 < cycle) ∧
    (∃ (base cycle t : Nat), 0 < cycle ∧ base < t) :=
  ⟨⟨mboxP 0x8B (at8 1 8 + at8 2 8 + at8 4 1 + at8 8 1 + at8 12 1 + at8 16 1) id, .mgmt, by unfold Accepts; decide +kernel⟩,
    ⟨mboxP 0x8B 0 id, .mgmt, by unfold Accepts; decide +kernel⟩,
    ⟨mboxP 0x8C (8 + at8 4 1) id, .mgmt, by unfold Accepts; decide +kernel, by decide +kernel, by decide +kernel, wfq_rest, by decide +kernel⟩,
    ⟨mbox 0x8A (at8 1 1 + at8 2 1 + at8 4 1000), .mgmt, (32 + at8 4 255), by unfold Accepts; decide +kernel⟩,
    ⟨{ mbox 0x8A 0 with m := modPort (mbox 0x8A 0).m 0 (fun po => { po with sluice := some ⟨0, 1000, 0, []⟩ }) }, .mgmt, ⟨0, 1000, 0, []⟩, by unfold Accepts; decide +kernel⟩,
    ⟨1, by decide +kernel⟩,
    ⟨0, 1, 1, by decide +kernel⟩⟩

/-- States and operands that meet the hypotheses of PowerBudgetCommands. -/
theorem test_meets_powerBudgetCommands :
    (∃ (s : State) (b : Box), let m := mbxBegun s.m b; let a := argOf s b; Accepts s b 0x88 ∧ releaseHot m a = false ∧ budgetBad m b a = false ∧ flg a 0 0 = false ∧ flg a 0 1 = false) ∧
    (∃ (s : State) (b : Box), let m := mbxBegun s.m b; let a := argOf s b; Accepts s b 0x88 ∧ releaseHot m a = false ∧ budgetBad m b a = false ∧ flg a 0 0 = true ∧ flg a 0 1 = false) ∧
    (∃ (s : State) (b : Box), let m := mbxBegun s.m b; let a := argOf s b; Accepts s b 0x88 ∧ releaseHot m a = false ∧ budgetBad m b a = false ∧ flg a 0 1 = true) :=
  ⟨⟨mbox 0x88 (at8 2 420 + at8 4 120), .mgmt, by unfold Accepts; decide +kernel⟩,
    ⟨mboxP 0x88 1 id, .mgmt, by unfold Accepts; decide +kernel⟩,
    ⟨mbox 0x88 2, .mgmt, by unfold Accepts; decide +kernel⟩⟩

/-- States and operands that meet the hypotheses of FenceCommands. -/
theorem test_meets_fenceCommands :
    (∃ (s : State) (b : Box), let m := mbxBegun s.m b; let a := argOf s b; let ty := fld a 0 0 8; let i := fld a 2 0 16; Accepts s b 0x8D ∧ i < unitCount ty ∧ (ty ≠ 0x06 ∨ 1 < (livePairs m).length) ∧ unitFenced m ty i = false) ∧
    (∃ (s : State) (b : Box), let m := mbxBegun s.m b; let a := argOf s b; let ty := fld a 0 0 8; let i := fld a 2 0 16; Accepts s b 0x8D ∧ i < unitCount ty ∧ unitFenced m ty i = true) ∧
    (∃ (s : State) (b : Box), let m := mbxBegun s.m b; let a := argOf s b; let ty := fld a 0 0 8; let i := fld a 2 0 16; Accepts s b 0x8E ∧ i < unitCount ty ∧ ty ≠ 0x0A ∧ ((ownerPol m ty i).map (fun p => m.pol[p].fenced)).getD false = false ∧ unitFenced m ty i = true ∧ (ty ≠ 0x01 ∨ fencedBit m.fence.vdom (i / 16) = false)) :=
  ⟨⟨mbox 0x8D (1 + at8 2 255), .mgmt, by unfold Accepts; decide +kernel⟩,
    ⟨{ mbox 0x8D (1 + at8 2 255) with m := putFence (mbox 0x8D (1 + at8 2 255)).m 1 255 true }, .mgmt, by unfold Accepts; decide +kernel⟩,
    ⟨{ mbox 0x8E (1 + at8 2 255) with m := putFence (mbox 0x8E (1 + at8 2 255)).m 1 255 true }, .mgmt, by unfold Accepts; decide +kernel⟩⟩

/-- States and operands that meet the hypotheses of WardenCommands. -/
theorem test_meets_wardenCommands :
    (∃ (s : State), let a := s.m.sys.wd.mbx.runArg; WdAccepts s 0xC0 ∧ fld a 16 0 32 ≤ 256 ∧ fld a 8 0 64 = 0) ∧
    (∃ (s : State), WdAccepts s 0xC1) ∧
    (∃ (s : State), WdAccepts s 0xC2) ∧
    (∃ (s : State), WdAccepts s 0xC3 ∧ s.m.sys.wd.sealed = false ∧ s.m.sys.wd.sealing = some 4) ∧
    (∃ (s : State), let a := s.m.sys.wd.mbx.runArg; WdAccepts s 0xC4 ∧ fld a 8 0 64 = 0 ∧ 7688 ≤ fld a 16 0 32) ∧
    (∃ (s : State), WdAccepts s 0xC5 ∧ s.m.sys.wd.thermTrip = false) ∧
    (∃ (m : Mod), m.sys.wd.sealed = true) ∧
    (∃ (m : Mod), m.sys.wd.sealed = false ∧ (m.sys.wd.sealing.getD 0) < 5) :=
  ⟨⟨upM (fun m => modWd m (fun w => { w with mbx := { w.mbx with busy := true, runCmd := 0xC0, runArg := at8 16 256 } })), by unfold WdAccepts; decide +kernel⟩,
    ⟨upM (fun m => modWd m (fun w => { w with mbx := { w.mbx with busy := true, runCmd := 0xC1, runArg := 0 } })), by unfold WdAccepts; decide +kernel⟩,
    ⟨upM (fun m => modWd m (fun w => { w with mbx := { w.mbx with busy := true, runCmd := 0xC2, runArg := 0 } })), by unfold WdAccepts; decide +kernel⟩,
    ⟨upM (fun m => modWd m (fun w => { w with mbx := { w.mbx with busy := true, runCmd := 0xC3, runArg := 0 }, sealing := some 4 })), by unfold WdAccepts; decide +kernel⟩,
    ⟨upM (fun m => modWd m (fun w => { w with mbx := { w.mbx with busy := true, runCmd := 0xC4, runArg := at8 16 7688 } })), by unfold WdAccepts; decide +kernel⟩,
    ⟨upM (fun m => modWd m (fun w => { w with mbx := { w.mbx with busy := true, runCmd := 0xC5, runArg := 0 } })), by unfold WdAccepts; decide +kernel⟩,
    ⟨(upM (fun m => modWd m (fun w => { w with sealed := true }))).m, by decide +kernel⟩,
    ⟨(upM (fun m => modWd m (fun w => { w with sealing := some 4 }))).m, by decide +kernel⟩⟩

/-- States and operands that meet the hypotheses of FramesGatesAndRefills. -/
theorem test_meets_framesGatesAndRefills :
    (∃ (s : State) (k : Fin 4) (w : Wire), s.m.working = true ∧ s.m.net.ports[k].up = true ∧ fencedBit s.m.fence.link k.val = false ∧ w.culvert = true ∧ w.dst = selfId s.m ∧ w.len ≤ maxL s.m k ∧ w.ftype = 0 ∧ moduleLevel w.ty = true) ∧
    (∃ (s : State) (k : Fin 4) (w : Wire) (used size : Nat), s.m.working = true ∧ s.m.net.ports[k].up = true ∧ fencedBit s.m.fence.link k.val = false ∧ w.culvert = true ∧ w.dst = selfId s.m ∧ w.len ≤ maxL s.m k ∧ w.ftype = 0 ∧ moduleLevel w.ty = false ∧ s.m.pol[pn w.dstPol].composed = true ∧ s.m.pol[pn w.dstPol].fenced = false ∧ bit s.m.pol[pn w.dstPol].ethPorts k.val = true ∧ (∀ i : Fin 6, s.m.pol[pn w.dstPol].polic[i].set.en = false) ∧ used < size) ∧
    (∃ (s : State) (k : Fin 4), s.m.working = true ∧ s.m.net.ports[k].up = true ∧ (portBoard s.m k).macsec = true) ∧
    (∃ (s : State) (k : Fin 4), ∃ addr, s.m.working = true ∧ s.m.net.ports[k].up = true ∧ fencedBit s.m.fence.link k.val = false ∧ s.m.net.board.isSome = true ∧ addr ≠ 0 ∧ addr = (portBoard s.m k).ipv4) ∧
    (∃ (s : State) (p : Fin 16) (t : Nat), s.m.working = true ∧ s.m.pol[p].composed = true ∧ s.m.pol[p].refill < max s.m.pol[p].clk t / 1000 ∧ (getMbx s.m .mgmt).busy = false) ∧
    (∃ (s : State) (k : Fin 4), s.m.working = true ∧ s.m.net.ports[k].change = none) ∧
    (∃ (s : State) (k : Fin 4) (t c : Nat) (l : Option Sluice), s.m.working = true ∧ s.m.net.ports[k].change = some (c, l) ∧ c ≤ max s.m.net.ports[k].clk t) ∧
    (∃ (s : State) (k : Fin 4) (t : Nat) (x : EgrFrame × Nat), s.m.working = true ∧ s.m.net.ports[k].flight = some x ∧ x.2 ≤ max s.m.net.ports[k].clk t) :=
  ⟨⟨upM (fun m => modPort { m with net := { m.net with board := some boardZero } } 0 (fun po => { po with up := true })), 0, { wireZero with ty := 8 }, by decide +kernel⟩,
    ⟨{ upP (fun q => { q with ethPorts := 15 }) with m := modPort (upP (fun q => { q with ethPorts := 15 })).m 0 (fun po => { po with up := true }) }, 0, wireZero, 0, 1, by decide +kernel⟩,
    ⟨upM (fun m => modPort { m with net := { m.net with board := some { boardZero with ports := [{ PortBoard.blank with macsec := true }] } } } 0 (fun po => { po with up := true })), 0, by decide +kernel⟩,
    ⟨upM (fun m => modPort { m with net := { m.net with board := some { boardZero with ports := [{ PortBoard.blank with ipv4 := 9 }] } } } 0 (fun po => { po with up := true })), 0, 9, by decide +kernel⟩,
    ⟨upP id, 0, 1000, by decide +kernel⟩,
    ⟨up, 0, by decide +kernel⟩,
    ⟨upM (fun m => modPort { m with net := { m.net with board := some boardZero } } 0 (fun po => { po with up := true, change := some (5, none) })), 0, 5, 5, none, by decide +kernel⟩,
    ⟨upM (fun m => modPort { m with net := { m.net with board := some boardZero } } 0 (fun po => { po with up := true, flight := some (⟨16, .lc, 7, 64, 0, 0, 0, 0, false, true, false, none⟩, 6) })), 0, 6, (⟨16, .lc, 7, 64, 0, 0, 0, 0, false, true, false, none⟩, 6), by decide +kernel⟩⟩

/-- States and operands that meet the hypotheses of PolicerColoursAndBounds. -/
theorem test_meets_policerColoursAndBounds :
    (∃ (i : Nat) (pl : Policer), pl.bounded i) ∧
    (∃ (pl : Policer) (need : Nat), pl.set.en = true ∧ pl.tp < need) ∧
    (∃ (pl : Policer) (need : Nat) (pre : Bool), pl.set.en = true ∧ need ≤ pl.tp ∧ (pl.tc < need ∨ (pre = true ∧ pl.set.aware = true))) ∧
    (∃ (pl : Policer) (need : Nat) (pre : Bool), pl.set.en = true ∧ need ≤ pl.tp ∧ (pl.tc < need ∨ (pre = true ∧ pl.set.aware = true)) ∧ pl.set.yAct ≠ 2) ∧
    (∃ (pl : Policer) (need : Nat) (pre : Bool), pl.set.en = true ∧ need ≤ pl.tp ∧ (pl.tc < need ∨ (pre = true ∧ pl.set.aware = true)) ∧ pl.set.yAct = 2) ∧
    (∃ (pl : Policer) (need : Nat) (pre : Bool), pl.set.en = true ∧ need ≤ pl.tp ∧ need ≤ pl.tc ∧ (pre = false ∨ pl.set.aware = false)) :=
  ⟨⟨0, ⟨⟨true, true, 0, 3, 1, 2, 10, 20⟩, 10, 20, none⟩, by unfold Policer.bounded; decide +kernel⟩,
    ⟨⟨⟨true, true, 0, 3, 1, 2, 10, 20⟩, 10, 20, none⟩, 21, by decide +kernel⟩,
    ⟨⟨⟨true, true, 0, 3, 1, 2, 10, 20⟩, 10, 20, none⟩, 20, false, by decide +kernel⟩,
    ⟨⟨⟨true, true, 1, 3, 1, 2, 10, 20⟩, 10, 20, none⟩, 11, false, by decide +kernel⟩,
    ⟨⟨⟨true, true, 2, 3, 1, 2, 10, 20⟩, 10, 20, none⟩, 5, true, by decide +kernel⟩,
    ⟨⟨⟨true, true, 1, 3, 1, 2, 10, 20⟩, 10, 20, none⟩, 10, false, by decide +kernel⟩⟩

/-- States and operands that meet the hypotheses of CommittedRateIsKept. -/
theorem test_meets_committedRateIsKept :
    ∃ (i : Nat) (pl : Policer), pl.set.en = true ∧ pl.bounded i :=
  ⟨5, ⟨⟨true, true, 0, 3, 1, 2, 10, 20⟩, 10, 20, none⟩, by unfold Policer.bounded; decide +kernel⟩

/-- States and operands that meet the hypotheses of MaskedFaultsAreLogged. -/
theorem test_meets_maskedFaultsAreLogged :
    (∃ (s : State), ∃ a, s.m.working = true ∧ a < 256 ∧ arrayFenced s.m a = false) ∧
    (∃ (s : State) (p : Fin 16) (a : Nat) (sl : ArrSlots) (key : StripKey), s.m.working = true ∧ s.m.pol[p].arrays.get a = some sl ∧ sl.run = some key ∧ sl.stalled = none ∧ arrayFenced s.m a = false ∧ s.m.pol[p].fenced = false) ∧
    (∃ (s : State), ∃ a t, s.m.working = true ∧ a < 256 ∧ arrayFenced s.m a = false ∧ (noteError (tickHvl s.m t) (errKey 1 0x01 a) 1000000).1 < 2) ∧
    (∃ (s : State), s.m.working = true ∧ s.m.sys.wd.fabWedged = false) ∧
    (∃ (s : State), ∃ die, s.m.working = true ∧ die < 4) ∧
    (∃ (s : State), ∃ t wt, s.m.working = true ∧ wdPassed (tickWd (tickHvl s.m t) wt) s.m.sys.wd.scrubAt 4000000000 = true) ∧
    (∃ (s : State), ∃ i, s.m.working = true ∧ i < 16 ∧ unitFenced s.m 0x02 i = false) ∧
    (∃ (s : State), ∃ ty i t, s.m.working = true ∧ (ty = 0x07 ∨ ty = 0x08) ∧ i < 16 ∧ unitFenced s.m ty i = false ∧ (noteError (minc (tickHvl s.m t) (Ctr.dupMismatch ty) 1) (errKey 4 ty i) 1000000).1 < 2) ∧
    (∃ (s : State), ∃ half, s.m.working = true ∧ half < 2 ∧ unitFenced s.m 0x05 half = false) ∧
    (∃ (s : State) (b : Box), s.m.working = true ∧ (getMbx s.m b).busy = true ∧ (getMbx s.m b).started = false) :=
  ⟨⟨up, 255, by decide +kernel⟩,
    ⟨upP (fun q => { q with arrays := [(255, ⟨some ⟨1, 0, 0, 0, false⟩, none, none, [], 0, [], []⟩)] }), 0, 255, ⟨some ⟨1, 0, 0, 0, false⟩, none, none, [], 0, [], []⟩, ⟨1, 0, 0, 0, false⟩, by decide +kernel⟩,
    ⟨up, 255, 0, by decide +kernel⟩,
    ⟨up, by decide +kernel⟩,
    ⟨up, 3, by decide +kernel⟩,
    ⟨up, 0, 4096001, by decide +kernel⟩,
    ⟨up, 15, by decide +kernel⟩,
    ⟨up, 8, 15, 0, by decide +kernel⟩,
    ⟨up, 1, by decide +kernel⟩,
    ⟨mbox 0 0, .mgmt, by decide +kernel⟩⟩

/-- States and operands that meet the hypotheses of FencingFaultsCloseTheCofferdam. -/
theorem test_meets_fencingFaultsCloseTheCofferdam :
    (∃ (m : Mod) (ty i : Nat), i < unitCount ty ∧ unitFenced m ty i = false) ∧
    (∃ (m : Mod) (ty i : Nat), unitFenced m ty i = true) ∧
    (∃ (s : State), s.m.working = true) ∧
    (∃ (s : State), ∃ t wt, s.m.working = true ∧ wdPassed (tickWd (tickHvl s.m t) wt) s.m.sys.wd.trainAt 100000000 = true) ∧
    (∃ (s : State), ∃ k, s.m.working = true ∧ k < 4 ∧ unitFenced s.m 0x06 k = false) :=
  ⟨⟨up.m, 0x0A, 23, by decide +kernel⟩,
    ⟨(putFence up.m 4 3 true), 4, 3, by decide +kernel⟩,
    ⟨up, by decide +kernel⟩,
    ⟨up, 0, 102401, by decide +kernel⟩,
    ⟨up, 3, by decide +kernel⟩⟩

/-- States and operands that meet the hypotheses of ModuleFaultsAndWardenActions. -/
theorem test_meets_moduleFaultsAndWardenActions :
    (∃ (s : State), ∃ die, s.m.working = true ∧ die < 4 ∧ s.m.sys.wd.coresWedged = false) ∧
    (∃ (s : State), ∃ t wt, s.m.working = true ∧ bit (s.m.sys.wd.conf.read (fun _ _ _ => 1)) 0 = true ∧ (s.m.sys.wd.coresWedged = true ∨ s.m.sys.wd.fabWedged = true) ∧ wdPassed (tickWd (tickHvl s.m t) wt) s.m.sys.wd.wedgedAt 100000000 = true ∧ s.m.sys.wd.sealing = none) ∧
    (∃ (s : State), ∃ t wt t0, s.m.working = true ∧ s.m.sys.wd.hotSince = some t0 ∧ wdPassed (tickWd (tickHvl s.m t) wt) t0 1000000 = true ∧ s.m.sys.wd.thermHigh = false) ∧
    (∃ (s : State), s.m.working = true ∧ s.m.sys.wd.thermTrip = false ∧ 1150 ≤ s.m.sys.pw.tj) ∧
    (∃ (s : State), ∃ t ps, s.m.working = true ∧ s.m.sys.wd.oscAt + 10000000 ≤ max s.m.hvl t ∧ 19 * 1953125 ≤ 40 * ps ∧ 40 * ps ≤ 21 * 1953125) ∧
    (∃ (s : State), ∃ t, s.m.working = true ∧ s.m.sys.wd.coresWedged = false ∧ s.m.sys.wd.sealed = false ∧ s.m.sys.wd.copyAt + 1000000000 ≤ max s.m.hvl t) :=
  ⟨⟨up, 3, by decide +kernel⟩,
    ⟨upM (fun m => modWd m (fun w => { w with fabWedged := true })), 0, 102401, by decide +kernel⟩,
    ⟨upM (fun m => modWd m (fun w => { w with hotSince := some 1 })), 0, 1026, 1, by decide +kernel⟩,
    ⟨upM (fun m => modPw m (fun w => { w with tj := 1150 })), by decide +kernel⟩,
    ⟨up, 10000000, 1000000, by decide +kernel⟩,
    ⟨up, 1000000000, by decide +kernel⟩⟩

/-- States and operands that meet the hypotheses of FaultLogRule. -/
theorem test_meets_faultLogRule :
    (∃ (m : Mod), logBounded m) ∧
    (∃ (m : Mod) (ty i f act : Nat), ∃ r rest, logBounded m ∧ m.sys.wd.log = r :: rest ∧ r.unit = ty ∧ r.index = i ∧ r.fault = f ∧ r.action = act ∧ logTime m < r.time + 1000000000) ∧
    (∃ (m : Mod), logBounded m ∧ m.sys.wd.log = []) :=
  ⟨⟨up.m, by unfold logBounded; decide +kernel⟩,
    ⟨(upM (fun m => modWd m (fun w => { w with log := [⟨1, 5, 1, 2, 16, 3, 4, false, false, 1, 0⟩] }))).m, 1, 2, 3, 4, ⟨1, 5, 1, 2, 16, 3, 4, false, false, 1, 0⟩, [], by unfold logBounded; decide +kernel⟩,
    ⟨up.m, by unfold logBounded; decide +kernel⟩⟩

/-- States and operands that meet the hypotheses of PowerEvents. -/
theorem test_meets_powerEvents :
    (∃ (s : State), s.m.working = true ∧ s.m.sys.wd.coresWedged = false ∧ (∀ p : Fin 16, s.m.pol[p].composed = false)) ∧
    (∃ (s : State), ∃ temps t wt v, s.m.working = true ∧ junction (tickWd (tickHvl s.m t) wt) temps = some v ∧ 0 ≤ v ∧ v < 1050) ∧
    (∃ (s : State), ∃ temps t wt v, s.m.working = true ∧ junction (tickWd (tickHvl s.m t) wt) temps = some v ∧ 1050 ≤ v ∧ v < 1100 ∧ s.m.sys.pw.mode ≠ 2 ∧ s.m.sys.wd.coresWedged = false ∧ 1050 < s.m.sys.pw.tj) ∧
    (∃ (s : State), ∃ t, s.m.working = true ∧ 10 * (s.m.sys.pw.conf.tjSoft : Int) ≤ s.m.sys.pw.tj ∧ s.m.sys.pw.cutAt + 10000000 ≤ max s.m.hvl t) ∧
    (∃ (s : State), s.m.working = true ∧ s.m.sys.pw.borrowed = []) ∧
    (∃ (s : State), ∃ t l, s.m.working = true ∧ l ∈ s.m.sys.pw.lent ∧ l.at_ ≤ max s.m.hvl t) ∧
    (∃ (s : State) (p : Fin 16), ∃ t, s.m.working = true ∧ s.m.pol[p].composed = true ∧ s.m.pol[p].pw.conf.acctMs ≠ 0 ∧ s.m.pol[p].pw.closeAt + s.m.pol[p].pw.conf.acctMs * 1000000 ≤ max s.m.pol[p].clk t) ∧
    (∃ (s : State) (p : Fin 16), s.m.working = true ∧ s.m.pol[p].composed = true ∧ s.m.pol[p].arrayList = []) ∧
    (∃ (s : State), ∃ src t, s.m.working = true ∧ Arrived (tickHvl s.m t) src 0 0 0 0x0A) :=
  ⟨⟨up, by decide +kernel⟩,
    ⟨up, List.replicate 36 1049, 0, 0, 1049, by decide +kernel⟩,
    ⟨upM (fun m => modPw m (fun w => { w with tj := 1051 })), List.replicate 36 1099, 0, 0, 1099, by decide +kernel⟩,
    ⟨upM (fun m => modPw m (fun w => { w with tj := 1000 })), 10000000, by decide +kernel⟩,
    ⟨up, by decide +kernel⟩,
    ⟨upM (fun m => modPw m (fun w => { w with lent := [⟨5, 9⟩] })), 9, ⟨5, 9⟩, by decide +kernel⟩,
    ⟨upP id, 0, 100000000, by decide +kernel⟩,
    ⟨upP id, 0, by decide +kernel⟩,
    ⟨inbox 3 0 (rxOf 0 0 0x0A) up, 3, 0, rfl, arrived_head (by decide +kernel)⟩⟩

/-- States and operands that meet the hypotheses of EffectiveCapStaysInRange. -/
theorem test_meets_effectiveCapStaysInRange :
    ∃ (m : Mod), floorW m ≤ capHigh m :=
  ⟨up.m, by decide +kernel⟩

/-- States and operands that meet the hypotheses of TimeEvents. -/
theorem test_meets_timeEvents :
    (∃ (s : State) (k : Fin 4) (dom prof : Nat), s.m.working = true ∧ s.m.sys.time.conf % 4 = 1 ∧ s.m.sys.time.conf / 4 % 4 = k.val ∧ s.m.sys.time.conf / 16 % 2 = prof % 2 ∧ s.m.sys.time.conf / 256 % 256 = dom % 256 ∧ s.m.net.ports[k].up = true ∧ fencedBit s.m.fence.link k.val = false) ∧
    (∃ (s : State) (msg : Block), s.m.working = true ∧ flg msg 12 0 = true ∧ s.m.sys.time.lastSeq = none ∧ s.m.sys.time.conf % 4 = 2) ∧
    (∃ (s : State) (k t : Nat), s.m.working = true ∧ (syncOf s.m k).locked = true ∧ (syncOf s.m k).at_ + 1000000000 ≤ max s.m.hvl t) ∧
    (∃ (m : Mod) (k : Nat), (syncOf m k).locked = true) ∧
    (∃ (k : Nat) (off : Int), 5 ≤ k ∧ 200 < off.natAbs) ∧
    (∃ (m : Mod) (k : Nat) (off : Int), 5 ≤ k ∧ off.natAbs ≤ 50 ∧ (syncOf m k).good = 15) ∧
    (∃ (k : Nat) (off : Int), 5 ≤ k ∧ 50 < off.natAbs ∧ off.natAbs ≤ 200) :=
  ⟨⟨{ upM (fun m => modTime m (fun y => { y with conf := 0x71D })) with m := modPort (upM (fun m => modTime m (fun y => { y with conf := 0x71D }))).m 3 (fun po => { po with up := true }) }, 3, 7, 1, by decide +kernel⟩,
    ⟨upM (fun m => modTime m (fun y => { y with conf := 2 })), at8 12 1, by decide +kernel⟩,
    ⟨upM (fun m => modTime m (fun y => { y with sync := [(5, ⟨true, false, 16, 0, 0⟩)] })), 5, 1000000000, by decide +kernel⟩,
    ⟨(upM (fun m => modTime m (fun y => { y with sync := [(5, ⟨true, false, 16, 0, 0⟩)] }))).m, 5, by decide +kernel⟩,
    ⟨5, 201, by decide +kernel⟩,
    ⟨(upM (fun m => modTime m (fun y => { y with sync := [(5, ⟨false, false, 15, 0, 0⟩)] }))).m, 5, 50, by decide +kernel⟩,
    ⟨5, 200, by decide +kernel⟩⟩

/-- States and operands that meet the hypotheses of DiscoveryEvents. -/
theorem test_meets_discoveryEvents :
    (∃ (s : State), ∃ src, ∃ (x : Announce), ∃ t, s.m.working = true ∧ Arrived (tickHvl s.m t) src 0 0 0 0x0B ∧ 4096 ≤ src ∧ (s.m.net.board.map Board.domain) = some x.domain ∧ anchorIndex s.m = none ∧ x.serial ≠ s.fuses.serial ∧ x.level ≠ 2) ∧
    (∃ (s : State), ∃ t d, s.m.working = true ∧ s.m.sys.disc.due = some d ∧ d ≤ max s.m.hvl t ∧ (anchors s.m).length ≠ 0) ∧
    (∃ (s : State), ∃ t a, s.m.working = true ∧ s.m.sys.disc.asked = some a ∧ a + 100000000 ≤ max s.m.hvl t ∧ unackedTo s.m (anchorDst s.m.sys.disc.anchor) = true) ∧
    (∃ (s : State), ∃ t me up, s.m.working = true ∧ anchorIndex s.m = some me ∧ s.m.sys.disc.up = some up ∧ s.m.sys.disc.tickAt = 0 ∧ s.m.sys.disc.fresh = [] ∧ up + 1500000000 ≤ max s.m.hvl t) ∧
    (∃ (s : State), ∃ i, s.m.working = true ∧ s.m.front.modId = some i) ∧
    (∃ (s : State), ∃ t c sers t0, s.m.working = true ∧ s.m.sys.disc.relays = [(c, sers, t0)] ∧ t0 + 1000000000 ≤ max s.m.hvl t ∧ relayOf s.m c = none) :=
  ⟨⟨inbox 4096 0 (rxOf 0 0 0x0B) (upM (fun m => { m with net := { m.net with board := some boardZero } })), 4096, ⟨7, 0, false, 1, 0, 0, 0, 0, 0⟩, 0, by (repeat' apply And.intro) <;> first | decide +kernel | exact ok_eq (by decide +kernel) | exact ok_okOf (by decide +kernel) | exact arrived_head (by decide +kernel) | rfl⟩,
    ⟨upM (fun m => modDisc (modBoot { m with net := { m.net with board := some { boardZero with ports := [{ PortBoard.blank with ipv4 := 9 }] } } } (fun b => { b with prov := some ⟨0, 0, 0, [(0, 9)]⟩ })) (fun d => { d with due := some 4 })), 4, 4, by decide +kernel⟩,
    ⟨{ upM (fun m => modDisc m (fun d => { d with asked := some 0 })) with m := putLane (upM (fun m => modDisc m (fun d => { d with asked := some 0 }))).m (laneKey 4096 0) { Lane.blank false with unacked := [frameZero] } }, 100000000, 0, by decide +kernel⟩,
    ⟨upM (fun m => modDisc (modBoot { m with net := { m.net with board := some { boardZero with ports := [{ PortBoard.blank with ipv4 := 9 }] } } } (fun b => { b with prov := some ⟨0, 0, 0, [(0, 9)]⟩ })) (fun d => { d with up := some 0 })), 1500000000, 0, 0, by decide +kernel⟩,
    ⟨upM (fun m => { m with front := { m.front with modId := some 4095 } }), 4095, by decide +kernel⟩,
    ⟨upM (fun m => modDisc m (fun d => { d with relays := [(3, [], 0)] })), 1000000000, 3, [], 0, by decide +kernel⟩⟩

/-- States and operands that meet the hypotheses of SessionCommands. -/
theorem test_meets_sessionCommands :
    (∃ (s : State) (p : Fin 16) (tag : Nat) (t : Taken), let m := begun s.m p tag; let e := t.entry; ∃ sl, Takes s p tag 0x10 t ∧ openCheck m p (clsOf (flg e 28 0)) (flg e 28 1) (fld e 29 0 8) = .ok sl ∧ (if fld e 32 0 32 == 0 then modeMax (flg e 28 1) else fld e 32 0 32) ≤ modeMax (flg e 28 1) ∧ liveEntries m p.val < dirShare m) ∧
    (∃ (s : State) (p : Fin 16) (tag : Nat) (t : Taken), let m := begun s.m p tag; let e := t.entry; ∃ idx d, Takes s p tag 0x18 t ∧ flg e 28 0 = true ∧ fld e 32 0 64 = 0 ∧ lookupSid m p (fld e 16 0 64) = .ok (some (idx, d))) ∧
    (∃ (s : State) (p : Fin 16) (tag : Nat) (t : Taken), let m := begun s.m p tag; let e := t.entry; ∃ d, Takes s p tag 0x18 t ∧ flg e 28 0 = false ∧ fld e 32 0 64 ≠ 0 ∧ fld e 16 24 4 = p.val ∧ m.refetch.contains (fld e 16 0 24) = false ∧ m.dirGone.contains (fld e 16 0 24) = false ∧ desc? m (fld e 16 0 24) = some d ∧ d.own ≠ .none ∧ d.pol = p.val ∧ d.gen = fld e 20 0 32) ∧
    (∃ (s : State) (p : Fin 16) (tag : Nat) (t : Taken), let m := begun s.m p tag; let e := t.entry; ∃ idx d, Takes s p tag 0x11 t ∧ liveSession m p e = .ok (idx, d) ∧ d.life ≠ .parked) ∧
    (∃ (s : State) (p : Fin 16) (tag : Nat) (t : Taken), let m := begun s.m p tag; let e := t.entry; ∃ idx d, Takes s p tag 0x12 t ∧ liveSession m p e = .ok (idx, d) ∧ d.life ≠ .active ∧ rootLost (cacheUse m p idx).pol[p] idx = false ∧ pumpFenced (cacheUse m p idx) p = false) ∧
    (∃ (s : State) (p : Fin 16) (tag : Nat) (t : Taken), let m := begun s.m p tag; let e := t.entry; ∃ idx d, Takes s p tag 0x15 t ∧ resolve m p e = .ok (idx, d) ∧ busyOwn d = false ∧ d.own ≠ .importing ∧ (d.life = .active ∨ d.life = .parked) ∧ stepInFlight (setJob (cacheUse m p idx) idx t.job).pol[p] idx = false) ∧
    (∃ (s : State) (p : Fin 16), ∃ idx ss, s.m.working = true ∧ s.m.pol[p].sess.get idx = some ss ∧ ss.reviving = true ∧ ss.revPaused = true ∧ adoptedLoad s.m.pol[p] idx = none) ∧
    (∃ (s : State) (p : Fin 16) (tag : Nat) (t : Taken), let m := begun s.m p tag; let e := t.entry; ∃ idx d, Takes s p tag 0x14 t ∧ liveSession m p e = .ok (idx, d)) ∧
    (∃ (s : State) (p : Fin 16) (tag : Nat) (t : Taken), let m := begun s.m p tag; let e := t.entry; ∃ idx d, Takes s p tag 0x13 t ∧ liveSession m p e = .ok (idx, d) ∧ moveBad (cacheUse m p idx) p d (destMod e) (destPol e) = none) ∧
    (∃ (s : State) (p : Fin 16) (tag : Nat) (t : Taken), let m := begun s.m p tag; let e := t.entry; ∃ idx d, Takes s p tag 0x16 t ∧ liveSession m p e = .ok (idx, d) ∧ handoffBad (cacheUse m p idx) p d (destMod e) (destPol e) = none) ∧
    (∃ (s : State) (p : Fin 16) (tag : Nat) (t : Taken), let m := begun s.m p tag; let e := t.entry; Takes s p tag 0x17 t ∧ importOf m.pol[p] (fld e 16 0 64) = none ∧ importRefusal m p (fld e 16 0 64) = none) ∧
    (∃ (s : State) (p : Fin 16) (tag : Nat) (t : Taken), let m := begun s.m p tag; let e := t.entry; ∃ im, Takes s p tag 0x17 t ∧ importOf m.pol[p] (fld e 16 0 64) = some im ∧ im.h = fld e 24 0 32) ∧
    (∃ (m : Mod) (p : Fin 16) (idx : Nat), stepInFlight m.pol[p] idx = false) ∧
    (∃ (m : Mod) (p : Fin 16) (idx : Nat), stepInFlight m.pol[p] idx = true) ∧
    (∃ (m : Mod) (p : Fin 16) (idx : Nat), ∃ d ss sl rd, desc? m idx = some d ∧ m.pol[p].sess.get idx = some ss ∧ desc? m (famRoot d idx) = some rd ∧ 0 < rd.famRefs ∧ rd.famRefs < 65535 ∧ liveEntries m p.val < dirShare m ∧ anyLost m p (forkReads m.pol[p] idx ss) = false ∧ m.pol[p].slots.get d.slot = some sl) ∧
    (∃ (m : Mod) (p : Fin 16) (idx : Nat), ∃ dst d ss slot, desc? m idx = some d ∧ m.pol[p].sess.get idx = some ss ∧ slotByDigest m.pol[pn dst] (((m.pol[p].slots.get d.slot).map (fun x => x.man.main.digest)).getD 0) = some slot ∧ liveEntries m (pn dst).val < dirShare m) ∧
    (∃ (m : Mod) (p : Fin 16) (idx : Nat), adoptedLoad m.pol[p] idx = none) :=
  ⟨⟨ring (0x10) (fun q => { q with slots := [(0, slotOk)] }), 0, 7, takenFor (0x10), slotOk, by (repeat' apply And.intro) <;> first | decide +kernel | exact ok_eq (by decide +kernel) | exact ok_okOf (by decide +kernel) | exact arrived_head (by decide +kernel) | rfl⟩,
    ⟨held live (0x18 + at8 16 9 + at8 28 1) id, 0, 7, takenFor (0x18 + at8 16 9 + at8 28 1), 5, live, by (repeat' apply And.intro) <;> first | decide +kernel | exact ok_eq (by decide +kernel) | exact ok_okOf (by decide +kernel) | exact arrived_head (by decide +kernel) | rfl⟩,
    ⟨held (live) (0x18 + at8 16 5 + at8 20 1 + at8 32 64) id, 0, 7, takenFor (0x18 + at8 16 5 + at8 20 1 + at8 32 64), live, by unfold Takes; decide +kernel⟩,
    ⟨held (live) (0x11 + at8 16 5 + at8 20 1) id, 0, 7, takenFor (0x11 + at8 16 5 + at8 20 1), 5, live, by (repeat' apply And.intro) <;> first | decide +kernel | exact ok_eq (by decide +kernel) | exact ok_okOf (by decide +kernel) | exact arrived_head (by decide +kernel) | rfl⟩,
    ⟨held ({ live with life := .parked }) (0x12 + at8 16 5 + at8 20 1) (fun q => { q with sess := [(5, sessNew geoZero)] }), 0, 7, takenFor (0x12 + at8 16 5 + at8 20 1), 5, { live with life := .parked }, by (repeat' apply And.intro) <;> first | decide +kernel | exact ok_eq (by decide +kernel) | exact ok_okOf (by decide +kernel) | exact arrived_head (by decide +kernel) | rfl⟩,
    ⟨held (live) (0x15 + at8 16 5 + at8 20 1) id, 0, 7, takenFor (0x15 + at8 16 5 + at8 20 1), 5, live, by (repeat' apply And.intro) <;> first | decide +kernel | exact ok_eq (by decide +kernel) | exact ok_okOf (by decide +kernel) | exact arrived_head (by decide +kernel) | rfl⟩,
    ⟨upP (fun q => { q with sess := [(5, { sessNew geoZero with reviving := true, revPaused := true })] }), 0, 5, { sessNew geoZero with reviving := true, revPaused := true }, by decide +kernel⟩,
    ⟨held (live) (0x14 + at8 16 5 + at8 20 1) id, 0, 7, takenFor (0x14 + at8 16 5 + at8 20 1), 5, live, by (repeat' apply And.intro) <;> first | decide +kernel | exact ok_eq (by decide +kernel) | exact ok_okOf (by decide +kernel) | exact arrived_head (by decide +kernel) | rfl⟩,
    ⟨held (live) (0x13 + at8 16 5 + at8 20 1 + at8 28 1) id, 0, 7, takenFor (0x13 + at8 16 5 + at8 20 1 + at8 28 1), 5, live, by (repeat' apply And.intro) <;> first | decide +kernel | exact ok_eq (by decide +kernel) | exact ok_okOf (by decide +kernel) | exact arrived_head (by decide +kernel) | rfl⟩,
    ⟨held (live) (0x16 + at8 16 5 + at8 20 1 + at8 28 1) id, 0, 7, takenFor (0x16 + at8 16 5 + at8 20 1 + at8 28 1), 5, live, by (repeat' apply And.intro) <;> first | decide +kernel | exact ok_eq (by decide +kernel) | exact ok_okOf (by decide +kernel) | exact arrived_head (by decide +kernel) | rfl⟩,
    ⟨ring (0x17) id, 0, 7, takenFor (0x17), by unfold Takes; decide +kernel⟩,
    ⟨ring (0x17) (fun q => { q with imports := [importZero] }), 0, 7, takenFor (0x17), importZero, by unfold Takes; decide +kernel⟩,
    ⟨up.m, 0, 5, by decide +kernel⟩,
    ⟨(upP (fun q => { q with reqs := [{ reqZero with heldLayer := some 0 }] })).m, 0, 5, by decide +kernel⟩,
    ⟨(held live 0 (fun q => { q with sess := [(5, sessNew geoZero)], slots := [(0, slotOk)] })).m, 0, 5, live, sessNew geoZero, slotOk, live, by decide +kernel⟩,
    ⟨(held live 0 (fun q => { q with sess := [(5, sessNew geoZero)], slots := [(0, slotOk)] })).m, 0, 5, 0, live, sessNew geoZero, 0, by decide +kernel⟩,
    ⟨up.m, 0, 5, by decide +kernel⟩⟩

/-- States and operands that meet the hypotheses of GenerationCommands. -/
theorem test_meets_generationCommands :
    (∃ (s : State) (p : Fin 16) (tag : Nat) (t : Taken), let m := begun s.m p tag; let e := t.entry; ∃ idx d, Takes s p tag 0x20 t ∧ resolve m p e = .ok (idx, d) ∧ busyOwn d = false ∧ d.own ≠ .importing ∧ d.life = .active ∧ genStepBad e = none) ∧
    (∃ (s : State) (p : Fin 16) (tag : Nat) (t : Taken), let m := begun s.m p tag; let e := t.entry; ∃ idx d ss, Takes s p tag 0x21 t ∧ fld e 40 0 13 ≤ 4096 ∧ fld e 24 0 32 = 0 ∧ findSid m p.val (fld e 16 0 64) = some (idx, d) ∧ d.own = .owned ∧ d.tokens = 0 ∧ m.pol[p].sess.get idx = some ss ∧ ss.gen.pendValid = false ∧ (d.life = .active ∨ d.life = .parked)) ∧
    (∃ (p : Fin 16) (t : Taken) (m : Mod) (idx : Nat) (d : Desc), let e := t.entry; fld e 28 0 32 < ((m.pol[p].slots.get d.slot).map (fun s => s.man.main.vocab)).getD 0 ∧ (∀ n ∈ corePages m.pol[p] idx, ∀ g, getPage m p n = some g → present g = true ∧ g.st ≠ .lost)) ∧
    (∃ (s : State) (p : Fin 16) (tag : Nat) (t : Taken), let m := begun s.m p tag; let e := t.entry; ∃ idx d, TakesForm s p tag 0x22 (fun e => !flg e 28 0) t ∧ liveSession m p e = .ok (idx, d)) ∧
    (∃ (s : State) (p : Fin 16) (tag : Nat) (t : Taken), let m := begun s.m p tag; let e := t.entry; ∃ j, TakesForm s p tag 0x22 (fun e => flg e 28 0) t ∧ j ∈ m.pol[p].jobs ∧ j.tag = fld e 16 0 16) ∧
    (∃ (s : State) (p : Fin 16) (tag : Nat) (t : Taken), let m := begun s.m p tag; let e := t.entry; ∃ idx d, Takes s p tag 0x23 t ∧ liveSession m p e = .ok (idx, d) ∧ specBad e (((cacheUse m p idx).pol[p].slots.get d.slot).map Slot.man) = none) ∧
    (∃ (s : State) (p : Fin 16) (tag : Nat) (t : Taken), let m := begun s.m p tag; let e := t.entry; ∃ idx d, Takes s p tag 0x24 t ∧ fld e 56 0 64 = 0 ∧ liveSession m p e = .ok (idx, d) ∧ sampBad e ((((cacheUse m p idx).pol[p].slots.get d.slot).map (fun s => s.man.main.vocab)).getD 0) none = none) ∧
    (∃ (s : State) (p : Fin 16) (tag : Nat) (t : Taken), let m := begun s.m p tag; let e := t.entry; ∃ g row, Takes s p tag 0x30 t ∧ krnCheck m p e = .ok (g, row)) ∧
    (∃ (m : Mod) (p : Fin 16) (ns : List Nat), ∀ n ∈ ns, ∀ g, getPage m p n = some g → present g = true ∧ g.st ≠ .lost) ∧
    (∃ (m : Mod) (p : Fin 16) (ns : List Nat) (n : Nat) (g : Page), n ∈ ns ∧ getPage m p n = some g ∧ g.st = .lost) ∧
    (∃ (m : Mod) (p : Fin 16) (idx : Nat), stepInFlight m.pol[p] idx = true) ∧
    (∃ (m : Mod) (p : Fin 16) (idx : Nat), stepInFlight m.pol[p] idx = false) :=
  ⟨⟨held (live) (0x20 + at8 16 5 + at8 20 1 + at8 28 1 + at8 40 16) id, 0, 7, takenFor (0x20 + at8 16 5 + at8 20 1 + at8 28 1 + at8 40 16), 5, live, by (repeat' apply And.intro) <;> first | decide +kernel | exact ok_eq (by decide +kernel) | exact ok_okOf (by decide +kernel) | exact arrived_head (by decide +kernel) | rfl⟩,
    ⟨held { live with tokens := 0 } (0x21 + at8 16 9 + at8 40 4096) (fun q => { q with sess := [(5, sessNew geoZero)] }), 0, 7, takenFor (0x21 + at8 16 9 + at8 40 4096), 5, { live with tokens := 0 }, sessNew geoZero, by unfold Takes; decide +kernel⟩,
    ⟨0, takenFor (0x21 + at8 28 4), (held live (0x21 + at8 28 4) (fun q => { q with slots := [(0, slotOk)], sess := [(5, sessNew geoZero)], pages := [(0, pageZero)] })).m, 5, live, by (repeat' apply And.intro) <;> first | exact pages_present (by decide +kernel) | decide +kernel | exact ok_eq (by decide +kernel) | exact ok_okOf (by decide +kernel) | exact arrived_head (by decide +kernel) | rfl⟩,
    ⟨held (live) (0x22 + at8 16 5 + at8 20 1) id, 0, 7, takenFor (0x22 + at8 16 5 + at8 20 1), 5, live, by (repeat' apply And.intro) <;> first | decide +kernel | exact ok_eq (by decide +kernel) | exact ok_okOf (by decide +kernel) | exact arrived_head (by decide +kernel) | rfl⟩,
    ⟨ring (0x22 + at8 28 1 + at8 16 3) (fun q => { q with jobs := [jobZero] }), 0, 7, takenFor (0x22 + at8 28 1 + at8 16 3), jobZero, by unfold TakesForm; decide +kernel⟩,
    ⟨held (live) (0x23 + at8 16 5 + at8 20 1) (fun q => { q with slots := [(0, slotOk)] }), 0, 7, takenFor (0x23 + at8 16 5 + at8 20 1), 5, live, by (repeat' apply And.intro) <;> first | decide +kernel | exact ok_eq (by decide +kernel) | exact ok_okOf (by decide +kernel) | exact arrived_head (by decide +kernel) | rfl⟩,
    ⟨held (live) (0x24 + at8 16 5 + at8 20 1 + at8 40 0x3F800000) (fun q => { q with slots := [(0, slotOk)] }), 0, 7, takenFor (0x24 + at8 16 5 + at8 20 1 + at8 40 0x3F800000), 5, live, by (repeat' apply And.intro) <;> first | decide +kernel | exact ok_eq (by decide +kernel) | exact ok_okOf (by decide +kernel) | exact arrived_head (by decide +kernel) | rfl⟩,
    ⟨ring (0x30 + at8 36 1 + at8 40 1) (fun q => { q with slots := [(0, slotOk)], pages := [(0, pageZero)] }), 0, 7, takenFor (0x30 + at8 36 1 + at8 40 1), progOk, 64, by (repeat' apply And.intro) <;> first | decide +kernel | exact ok_eq (by decide +kernel) | exact ok_okOf (by decide +kernel) | exact arrived_head (by decide +kernel) | rfl⟩,
    ⟨(upP (fun q => { q with pages := [(0, pageZero)] })).m, 0, [0], pages_present (by decide +kernel)⟩,
    ⟨(upP (fun q => { q with pages := [(0, { pageZero with st := .lost })] })).m, 0, [0], 0, { pageZero with st := .lost }, by decide +kernel⟩,
    ⟨(upP (fun q => { q with reqs := [{ reqZero with heldLayer := some 0 }] })).m, 0, 5, by decide +kernel⟩,
    ⟨up.m, 0, 5, by decide +kernel⟩⟩

/-- States and operands that meet the hypotheses of GenerationEvents. -/
theorem test_meets_generationEvents :
    (∃ (s : State) (p : Fin 16), ∃ a sl key, s.m.working = true ∧ s.m.pol[p].arrays.get a = some sl ∧ sl.run = some key ∧ arrayFenced s.m a = false ∧ s.m.pol[p].fenced = false) ∧
    (∃ (s : State) (p : Fin 16), ∃ a t o hv sl key, s.m.working = true ∧ s.m.pol[p].arrays.get a = some sl ∧ sl.run = some key ∧ arrayFenced s.m a = false ∧ s.m.pol[p].fenced = false ∧ passOf (stripComplete s.m p a t o hv).pol[p] key.pass = none) ∧
    (∃ (s : State) (p : Fin 16), ∃ a t o hv sl key, ∃ x, s.m.working = true ∧ s.m.pol[p].arrays.get a = some sl ∧ sl.run = some key ∧ arrayFenced s.m a = false ∧ s.m.pol[p].fenced = false ∧ passOf (stripComplete s.m p a t o hv).pol[p] key.pass = some x ∧ x.vec = none) ∧
    (∃ (s : State) (p : Fin 16), ∃ id t x, s.m.working = true ∧ passOf (tickPol s.m p t).pol[p] id = some x ∧ x.deadlineDone = false ∧ x.job = none ∧ x.start + s.m.pol[p].recallCfg.deadlineUs * 1000 ≤ max s.m.pol[p].clk t) ∧
    (∃ (s : State) (p : Fin 16), ∃ idx d ss sl toks step left m1, s.m.working = true ∧ desc? s.m idx = some d ∧ s.m.pol[p].sess.get idx = some ss ∧ s.m.pol[p].slots.get d.slot = some sl ∧ takeReplay 8 ss.replay = (toks, step, left) ∧ toks ≠ [] ∧ d.own = .owned ∧ d.pol = p.val ∧ ss.gen.pendValid = true ∧ s.m.pol[p].fenced = false ∧ liveArrays s.m p ≠ [] ∧ (d.sparse = false ∨ ss.qsValid = true) ∧ takeStepFrames s.m p idx d toks.length = .ok m1 ∧ weightsLost m1.pol[p] d.slot sl.fromCrest = false ∧ (∀ n ∈ forcedPages m1 p sl.man.main (forcedSeq idx (ss.gen.pendTok :: toks.dropLast) false []) ((m1.pol[p].sess.get idx).getD ss) d, ∀ g, getPage m1 p n = some g → present g = true ∧ g.st ≠ .lost)) ∧
    (∃ (s : State) (p : Fin 16), ∃ tag t r, s.m.working = true ∧ reqOf s.m.pol[p] tag = some r ∧ r.modUs ≠ 0 ∧ r.unsig ≠ 0 ∧ r.oldest + r.modUs * 1000 ≤ max s.m.pol[p].clk t) ∧
    (∃ (s : State) (p : Fin 16), s.m.working = true ∧ 2 ^ 20 ≤ s.m.pol[p].drbg.reqs ∧ s.m.entropyOk = true) ∧
    (∃ (s : State), s.m.working = true) :=
  ⟨⟨upP (fun q => { q with arrays := [(255, ⟨some ⟨1, 0, 0, 0, false⟩, none, none, [], 0, [], []⟩)] }), 0, 255, ⟨some ⟨1, 0, 0, 0, false⟩, none, none, [], 0, [], []⟩, ⟨1, 0, 0, 0, false⟩, by decide +kernel⟩,
    ⟨upP (fun q => { q with arrays := [(255, ⟨some ⟨1, 0, 0, 0, false⟩, none, none, [], 0, [], []⟩)] }), 0, 255, 0, {}, ⟨[], []⟩, ⟨some ⟨1, 0, 0, 0, false⟩, none, none, [], 0, [], []⟩, ⟨1, 0, 0, 0, false⟩, by decide +kernel⟩,
    ⟨(held live 0 (fun q => { q with masks := Tri.mk1 ⟨1, 0xF, 1, 0⟩, slots := [(0, slotOk)], sess := [(5, sessNew geoZero)], arrays := [(255, ⟨some ⟨1, 0, 0, 0, false⟩, none, none, [], 0, [], []⟩)], passes := [{ passZero with seqs := [forcedSeq 5 [0] false []] }] })), 0, 255, 0, {}, ⟨[], []⟩, ⟨some ⟨1, 0, 0, 0, false⟩, none, none, [], 0, [], []⟩, ⟨1, 0, 0, 0, false⟩, someOf (passOf (stripComplete (held live 0 (fun q => { q with masks := Tri.mk1 ⟨1, 0xF, 1, 0⟩, slots := [(0, slotOk)], sess := [(5, sessNew geoZero)], arrays := [(255, ⟨some ⟨1, 0, 0, 0, false⟩, none, none, [], 0, [], []⟩)], passes := [{ passZero with seqs := [forcedSeq 5 [0] false []] }] })).m 0 255 0 {} ⟨[], []⟩).pol[(0 : Fin 16)] 1) passZero, by (repeat' apply And.intro) <;> first | decide +kernel | exact some_someOf (by decide +kernel)⟩,
    ⟨upP (fun q => { q with passes := [passZero] }), 0, 1, 2000000, passZero, by decide +kernel⟩,
    ⟨(held live 0 (fun q => { q with masks := Tri.mk1 ⟨1, 0xF, 1, 0⟩, slots := [(0, slotOk)], sess := [(5, { sessNew geoZero with replay := [(3, [1, 2])], gen := { (sessNew geoZero).gen with pendValid := true } })] })), 0, 5, live, { sessNew geoZero with replay := [(3, [1, 2])], gen := { (sessNew geoZero).gen with pendValid := true } }, slotOk, [1, 2], 3, [], okOf (takeStepFrames (held live 0 (fun q => { q with masks := Tri.mk1 ⟨1, 0xF, 1, 0⟩, slots := [(0, slotOk)], sess := [(5, { sessNew geoZero with replay := [(3, [1, 2])], gen := { (sessNew geoZero).gen with pendValid := true } })] })).m 0 5 live 2) up.m, by (repeat' apply And.intro) <;> first | exact ok_okOf (by decide +kernel) | exact pages_present (by decide +kernel) | decide +kernel | rfl⟩,
    ⟨upP (fun q => { q with reqs := [{ reqZero with modUs := 1, unsig := 1 }] }), 0, 7, 1000, { reqZero with modUs := 1, unsig := 1 }, by decide +kernel⟩,
    ⟨upP (fun q => { q with drbg := ⟨0, 0, [], 2 ^ 20⟩ }), 0, by decide +kernel⟩,
    ⟨up, by decide +kernel⟩⟩

/-- States and operands that meet the hypotheses of ModelCommands. -/
theorem test_meets_modelCommands :
    (∃ (s : State) (p : Fin 16) (tag : Nat) (t : Taken), let m := begun s.m p tag; let e := t.entry; ∃ man img, let mf := manifestOf man; Takes s p tag 0x31 t ∧ loadBad m p e mf = none ∧ manifestFail mf = none ∧ imageDigest man img = mf.main.digest) ∧
    (∃ (s : State) (p : Fin 16) (tag : Nat) (t : Taken), let m := begun s.m p tag; let e := t.entry; let slot := fld e 32 0 8; TakesForm s p tag 0x32 (fun e => !flg e 33 0) t ∧ slot ≤ 31 ∧ m.pol[p].sealed = false ∧ m.pol[p].slots.has slot = true ∧ slotInUse m p slot = false ∧ (∀ w ∈ m.pol[p].modelWaits, w.slot ≠ slot)) ∧
    (∃ (s : State) (p : Fin 16) (tag : Nat) (t : Taken), let m := begun s.m p tag; let e := t.entry; let slot := fld e 32 0 8; ∃ sl, TakesForm s p tag 0x32 (fun e => flg e 33 0) t ∧ slot ≤ 31 ∧ m.pol[p].sealed = false ∧ m.pol[p].slots.get slot = some sl ∧ sl.crest = true ∧ sl.evictCrest = none) ∧
    (∃ (s : State) (p : Fin 16) (tag : Nat) (t : Taken), let m := begun s.m p tag; let e := t.entry; let slot := fld e 32 0 8; TakesForm s p tag 0x33 (fun e => flg e 33 0) t ∧ slot ≤ 31 ∧ m.pol[p].slots.has slot = true) ∧
    (∃ (s : State) (p : Fin 16) (tag : Nat) (t : Taken), let m := begun s.m p tag; let e := t.entry; let slot := fld e 32 0 8; ∃ sl, TakesForm s p tag 0x33 (fun e => !flg e 33 0) t ∧ m.pol[p].slots.get slot = some sl) :=
  ⟨⟨ring 0x31 id, 0, 7, takenFor 0x31, manOk, 0, by (repeat' apply And.intro) <;> first | decide +kernel | rfl⟩,
    ⟨ring (0x32 + at8 32 31) (fun q => { q with slots := [(31, slotOk)] }), 0, 7, takenFor (0x32 + at8 32 31), by unfold TakesForm; decide +kernel⟩,
    ⟨ring (0x32 + at8 32 31 + at8 33 1) (fun q => { q with slots := [(31, { slotOk with crest := true })] }), 0, 7, takenFor (0x32 + at8 32 31 + at8 33 1), { slotOk with crest := true }, by unfold TakesForm; decide +kernel⟩,
    ⟨ring (0x33 + at8 32 31 + at8 33 1) (fun q => { q with slots := [(31, slotOk)] }), 0, 7, takenFor (0x33 + at8 32 31 + at8 33 1), by unfold TakesForm; decide +kernel⟩,
    ⟨ring (0x33 + at8 32 31) (fun q => { q with slots := [(31, slotOk)] }), 0, 7, takenFor (0x33 + at8 32 31), slotOk, by unfold TakesForm; decide +kernel⟩⟩

/-- States and operands that meet the hypotheses of MemoryCommands. -/
theorem test_meets_memoryCommands :
    (∃ (s : State) (p : Fin 16) (tag n k : Nat) (t : Taken), let m := begun s.m p tag; let e := t.entry; ∃ m1, memRange p e = .ok (n, k) ∧ rangeTaken m.pol[p] n k = false ∧ TakesForm s p tag 0x50 (fun e => !flg e 28 0 && !flg e 28 2) t ∧ rangePages m.pol[p] n k = [] ∧ takeTables (mapRun m p n k (clsOf (flg e 28 1)) .mapped) p = .ok m1) ∧
    (∃ (s : State) (p : Fin 16) (tag n k : Nat) (t : Taken), let m := begun s.m p tag; let e := t.entry; memRange p e = .ok (n, k) ∧ rangeTaken m.pol[p] n k = false ∧ TakesForm s p tag 0x50 (fun e => flg e 28 0) t) ∧
    (∃ (s : State) (p : Fin 16) (tag n k : Nat) (t : Taken), let m := begun s.m p tag; let e := t.entry; memRange p e = .ok (n, k) ∧ rangeTaken m.pol[p] n k = false ∧ TakesForm s p tag 0x50 (fun e => flg e 28 2 && !flg e 28 0) t) ∧
    (∃ (s : State) (p : Fin 16) (tag n k : Nat) (t : Taken), let m := begun s.m p tag; let e := t.entry; memRange p e = .ok (n, k) ∧ rangeTaken m.pol[p] n k = false ∧ Takes s p tag 0x51 t) ∧
    (∃ (m : Mod) (p : Fin 16) (w : MemWait), ∀ x ∈ rangePages m.pol[p] w.start w.n, x.2.st = .resident ∧ tierNo x.2.tier ≤ tierNo w.toTier) ∧
    (∃ (s : State) (p : Fin 16) (tag n k : Nat) (t : Taken), let m := begun s.m p tag; let e := t.entry; memRange p e = .ok (n, k) ∧ rangeTaken m.pol[p] n k = false ∧ TakesForm s p tag 0x52 (fun e => flg e 28 0) t ∧ pinCheck m.pol[p] (if flg e 28 1 then Tier.berm else Tier.crest) n k = none) ∧
    (∃ (s : State) (p : Fin 16) (tag n k : Nat) (t : Taken), let m := begun s.m p tag; let e := t.entry; memRange p e = .ok (n, k) ∧ rangeTaken m.pol[p] n k = false ∧ TakesForm s p tag 0x52 (fun e => !flg e 28 0) t) :=
  ⟨⟨ring (0x50 + at8 16 ((2 ^ 30 - 1) * 65536) + at8 24 1) (fun q => { q with masks := Tri.mk1 ⟨1, 0xF, 1, 0⟩, dBerm := { q.dBerm with ceil := 100 } }), 0, 7, 2 ^ 30 - 1, 1, takenFor (0x50 + at8 16 ((2 ^ 30 - 1) * 65536) + at8 24 1), okOf (takeTables (mapRun (begun (ring (0x50 + at8 16 ((2 ^ 30 - 1) * 65536) + at8 24 1) (fun q => { q with masks := Tri.mk1 ⟨1, 0xF, 1, 0⟩, dBerm := { q.dBerm with ceil := 100 } })).m 0 7) 0 (2 ^ 30 - 1) 1 (clsOf (flg (0x50 + at8 16 ((2 ^ 30 - 1) * 65536) + at8 24 1) 28 1)) .mapped) 0) up.m, by (repeat' apply And.intro) <;> first | decide +kernel | exact ok_eq (by decide +kernel) | exact ok_okOf (by decide +kernel) | exact arrived_head (by decide +kernel) | rfl⟩,
    ⟨ring (0x50 + at8 16 ((2 ^ 30 - 1) * 65536) + at8 24 1 + at8 28 1) id, 0, 7, 2 ^ 30 - 1, 1, takenFor (0x50 + at8 16 ((2 ^ 30 - 1) * 65536) + at8 24 1 + at8 28 1), by (repeat' apply And.intro) <;> first | decide +kernel | exact ok_eq (by decide +kernel) | exact ok_okOf (by decide +kernel) | exact arrived_head (by decide +kernel) | rfl⟩,
    ⟨ring (0x50 + at8 16 ((2 ^ 30 - 1) * 65536) + at8 24 1 + at8 28 4) id, 0, 7, 2 ^ 30 - 1, 1, takenFor (0x50 + at8 16 ((2 ^ 30 - 1) * 65536) + at8 24 1 + at8 28 4), by (repeat' apply And.intro) <;> first | decide +kernel | exact ok_eq (by decide +kernel) | exact ok_okOf (by decide +kernel) | exact arrived_head (by decide +kernel) | rfl⟩,
    ⟨ring (0x51 + at8 16 ((2 ^ 30 - 1) * 65536) + at8 24 1) id, 0, 7, 2 ^ 30 - 1, 1, takenFor (0x51 + at8 16 ((2 ^ 30 - 1) * 65536) + at8 24 1), by (repeat' apply And.intro) <;> first | decide +kernel | exact ok_eq (by decide +kernel) | exact ok_okOf (by decide +kernel) | exact arrived_head (by decide +kernel) | rfl⟩,
    ⟨(upP (fun q => { q with pages := [(0, pageZero)] })).m, 0, { tag := 7, start := 0, n := 1, toTier := .berm, pinTo := none }, by decide +kernel⟩,
    ⟨ring (0x52 + at8 16 ((2 ^ 30 - 1) * 65536) + at8 24 1 + at8 28 1) (fun q => { q with pages := [(2 ^ 30 - 1, pageZero)], dCrest := { q.dCrest with ceil := 1, pinMax := 1 } }), 0, 7, 2 ^ 30 - 1, 1, takenFor (0x52 + at8 16 ((2 ^ 30 - 1) * 65536) + at8 24 1 + at8 28 1), by (repeat' apply And.intro) <;> first | decide +kernel | exact ok_eq (by decide +kernel) | exact ok_okOf (by decide +kernel) | exact arrived_head (by decide +kernel) | rfl⟩,
    ⟨ring (0x52 + at8 16 ((2 ^ 30 - 1) * 65536) + at8 24 1) id, 0, 7, 2 ^ 30 - 1, 1, takenFor (0x52 + at8 16 ((2 ^ 30 - 1) * 65536) + at8 24 1), by (repeat' apply And.intro) <;> first | decide +kernel | exact ok_eq (by decide +kernel) | exact ok_okOf (by decide +kernel) | exact arrived_head (by decide +kernel) | rfl⟩⟩

/-- States and operands that meet the hypotheses of TierEvents. -/
theorem test_meets_tierEvents :
    (∃ (s : State) (p : Fin 16), ∃ t, s.m.working = true ∧ s.m.pol[p].composed = true ∧ s.m.pol[p].nextHeat ≤ max s.m.pol[p].clk t) ∧
    (∃ (s : State) (p : Fin 16), ∃ t, s.m.working = true ∧ max s.m.pol[p].clk t < s.m.pol[p].nextHeat) ∧
    (∃ (s : State), ∃ (pg : Page), s.m.working = true ∧ pg.heat < 65536) ∧
    (∃ (s : State) (p : Fin 16), ∃ n pg, s.m.working = true ∧ getPage s.m p n = some pg ∧ (pg.st = .promoting ∨ pg.st = .demoting) ∧ destWritten s.m pg = true ∧ pg.wgen ≠ pg.sample) ∧
    (∃ (s : State) (p : Fin 16), ∃ n pg, s.m.working = true ∧ getPage s.m p n = some pg ∧ pg.st = .demoting ∧ destWritten s.m pg = true ∧ pg.wgen = pg.sample ∧ pg.tier = .crest ∧ pg.oTier = .berm ∧ pg.forPage = none) ∧
    (∃ (s : State) (p : Fin 16), ∃ n pg, s.m.working = true ∧ getPage s.m p n = some pg ∧ (pg.st = .promoting ∨ pg.st = .demoting) ∧ destWritten s.m pg = true ∧ pg.wgen = pg.sample) ∧
    (∃ (s : State) (p : Fin 16), ∃ n pg, s.m.working = true ∧ getPage s.m p n = some pg ∧ destWritten s.m pg = false) ∧
    (∃ (s : State) (p : Fin 16), ∃ n pg, s.m.working = true ∧ getPage s.m p n = some pg ∧ pg.st = .resident ∧ pg.tier = .crest ∧ pg.oTier ≠ .none ∧ tierNo pg.tier < tierNo pg.oTier) ∧
    (∃ (s : State) (p : Fin 16), ∃ n pg, s.m.working = true ∧ getPage s.m p n = some pg ∧ pg.st = .resident ∧ pg.tier = .crest ∧ pg.oTier = .none) :=
  ⟨⟨upP (fun q => { q with nextHeat := 8000000 }), 0, 8000000, by decide +kernel⟩,
    ⟨upP (fun q => { q with nextHeat := 8000000 }), 0, 7999999, by decide +kernel⟩,
    ⟨up, { pageZero with heat := 65535 }, by decide +kernel⟩,
    ⟨upP (fun q => { q with pages := [(0, { pageZero with st := .promoting, oTier := .crest, wgen := 1 })] }), 0, 0, { pageZero with st := .promoting, oTier := .crest, wgen := 1 }, by decide +kernel⟩,
    ⟨upP (fun q => { q with pages := [(0, { pageZero with st := .demoting, tier := .crest, oTier := .berm })] }), 0, 0, { pageZero with st := .demoting, tier := .crest, oTier := .berm }, by decide +kernel⟩,
    ⟨upP (fun q => { q with pages := [(0, { pageZero with st := .demoting, tier := .crest, oTier := .berm })] }), 0, 0, { pageZero with st := .demoting, tier := .crest, oTier := .berm }, by decide +kernel⟩,
    ⟨upF (fun f => { f with units := [(3, ⟨3, 0, 0, 0, false, none⟩)] }) (fun q => { q with pages := [(0, { pageZero with st := .demoting, tier := .berm, oTier := .toe, other := 3 })] }), 0, 0, { pageZero with st := .demoting, tier := .berm, oTier := .toe, other := 3 }, by decide +kernel⟩,
    ⟨upP (fun q => { q with pages := [(0, { pageZero with st := .resident, tier := .crest, oTier := .berm })] }), 0, 0, { pageZero with st := .resident, tier := .crest, oTier := .berm }, by decide +kernel⟩,
    ⟨upP (fun q => { q with pages := [(0, { pageZero with tier := .crest })] }), 0, 0, { pageZero with tier := .crest }, by decide +kernel⟩⟩

/-- States and operands that meet the hypotheses of FlashEvents. -/
theorem test_meets_flashEvents :
    (∃ (s : State), ∃ row t r c, s.m.working = true ∧ s.m.ftl.rows.find? (fun r => r.id == row) = some r ∧ r.closed = false ∧ r.units ≠ [] ∧ r.start + 10000000 ≤ max s.m.hvl t ∧ parityChan (tickHvl s.m t) (rowChans (tickHvl s.m t).ftl r) = some c) ∧
    (∃ (s : State), ∃ u blk x, s.m.working = true ∧ s.m.ftl.units.get u = some x ∧ canAck s.m u blk = true) ∧
    (∃ (s : State), ∃ (m : Mod) (u blk : Nat) (x : ToeUnit) (c : Chan), s.m.working = true ∧ m.ftl.units.get u = some x ∧ m.ftl.chans.get x.ch = some c ∧ (blkOf c blk).retired = true) ∧
    (∃ (s : State), ∃ u blk x c, s.m.working = true ∧ s.m.ftl.units.get u = some x ∧ x.acked = false ∧ s.m.ftl.chans.get x.ch = some c ∧ (blkOf c blk).retired = false) ∧
    (∃ (s : State), ∃ ch blk c, s.m.working = true ∧ s.m.ftl.chans.get ch = some c ∧ (blkOf c blk).retired = false) ∧
    (∃ (s : State), ∃ ch blk dst t c, s.m.working = true ∧ s.m.ftl.chans.get ch = some c ∧ canMove (tickHvl s.m t) ch blk dst = true ∧ blkUnits s.m.ftl ch blk ≠ [] ∧ s.m.ftl.retentionDays * 86400 * 1000000000 ≤ (blkOf c blk).age + (max s.m.hvl t - (blkOf c blk).since)) ∧
    (∃ (s : State), ∃ ch blk dst c, s.m.working = true ∧ s.m.ftl.chans.get ch = some c ∧ canMove s.m ch blk dst = true ∧ ((blkOf c blk).marked = true ∨ marksLeft c = false) ∧ (blkOf c blk).suspect = false) ∧
    (∃ (s : State), ∃ ch blk dst c, s.m.working = true ∧ s.m.ftl.chans.get ch = some c ∧ canMove s.m ch blk dst = true ∧ ((blkOf c blk).marked = true ∨ marksLeft c = false) ∧ (blkOf c blk).suspect = true) ∧
    (∃ (s : State), ∃ ch blk c, s.m.working = true ∧ s.m.ftl.chans.get ch = some c ∧ (blkOf c blk).marked = false ∧ marksLeft c = true) ∧
    (∃ (s : State) (p : Fin 16), ∃ ch, s.m.working = true ∧ fencedBit s.m.fence.toe ch = true ∧ (toeChans s.m.pol[p]).contains ch = true ∧ (∀ x ∈ s.m.ftl.units, x.2.ch ≠ ch ∨ x.2.pol ≠ p.val)) ∧
    (∃ (s : State) (p : Fin 16), ∃ ch u x, s.m.working = true ∧ fencedBit s.m.fence.toe ch = true ∧ (toeChans s.m.pol[p]).contains ch = true ∧ s.m.ftl.units = [(u, x)] ∧ x.ch = ch ∧ x.pol = p.val ∧ x.acked = true ∧ toeRoom s.m s.m.pol[p] = true) ∧
    (∃ (s : State) (p : Fin 16), s.m.working = true ∧ s.m.pol[p].composed = true ∧ s.m.pol[p].resetting = false ∧ bit (keyselOf s.m.pol[p]) 1 = true) ∧
    (∃ (s : State) (p : Fin 16), s.m.working = true ∧ s.m.pol[p].resetting = true) :=
  ⟨⟨upF (fun f => { f with rows := [⟨0, 0, [3], none, none, false⟩], units := [(3, ⟨3, 0, 0, 0, false, none⟩)], chans := [(3, chanOk), (4, chanOk)] }) id, 0, 10000000, ⟨0, 0, [3], none, none, false⟩, 4, by decide +kernel⟩,
    ⟨upF (fun f => { f with rows := [⟨0, 0, [3], some 4, none, true⟩], units := [(3, ⟨3, 0, 0, 0, false, none⟩)], chans := [(3, chanOk), (4, chanOk)] }) id, 3, 6, ⟨3, 0, 0, 0, false, none⟩, by decide +kernel⟩,
    ⟨up, (upF (fun f => { f with units := [(3, ⟨3, 0, 0, 0, false, none⟩)], chans := [(3, { chanOk with blks := [(6, ⟨0, 0, 0, 0, true, false, false, true⟩)] })] }) id).m, 3, 6, ⟨3, 0, 0, 0, false, none⟩, { chanOk with blks := [(6, ⟨0, 0, 0, 0, true, false, false, true⟩)] }, by decide +kernel⟩,
    ⟨upF (fun f => { f with units := [(3, ⟨3, 0, 0, 0, false, none⟩)], chans := [(3, chanOk)] }) id, 3, 6, ⟨3, 0, 0, 0, false, none⟩, chanOk, by decide +kernel⟩,
    ⟨upF (fun f => { f with chans := [(31, chanOk)] }) id, 31, 6, chanOk, by decide +kernel⟩,
    ⟨upF (fun f => { f with chans := [(3, chanOk)], units := [(4, ⟨3, 6, 0, 0, true, none⟩)], retentionDays := 60 }) id, 3, 6, 7, 5184000000000000, chanOk, by decide +kernel⟩,
    ⟨upF (fun f => { f with chans := [(31, chanOk)] }) id, 31, 6, 7, chanOk, by decide +kernel⟩,
    ⟨upF (fun f => { f with chans := [(31, { chanOk with blks := [(6, ⟨0, 0, 0, 0, true, true, true, false⟩)] })] }) id, 31, 6, 7, { chanOk with blks := [(6, ⟨0, 0, 0, 0, true, true, true, false⟩)] }, by decide +kernel⟩,
    ⟨upF (fun f => { f with chans := [(31, { chanOk with blks := [(6, ⟨0, 0, 0, 0, true, true, false, false⟩)] })] }) id, 31, 5, { chanOk with blks := [(6, ⟨0, 0, 0, 0, true, true, false, false⟩)] }, by decide +kernel⟩,
    ⟨upF (fun f => { f with chans := [] }) (fun q => { q with masks := Tri.mk1 ⟨1, 1, 1, 2⟩ }), 0, 2, by decide +kernel⟩,
    ⟨upF (fun f => { f with chans := [(2, chanOk), (3, chanOk)], units := [(4, ⟨2, 6, 0, 0, true, none⟩)] }) (fun q => { q with masks := Tri.mk1 ⟨1, 1, 1, 2⟩ }), 0, 2, 4, ⟨2, 6, 0, 0, true, none⟩, by decide +kernel⟩,
    ⟨upP (fun q => { q with sec := { q.sec with keysel := Tri.mk1 2 } }), 0, by decide +kernel⟩,
    ⟨upP (fun q => { q with resetting := true }), 0, by decide +kernel⟩⟩

/-- States and operands that meet the hypotheses of VectorCommands. -/
theorem test_meets_vectorCommands :
    (∃ (s : State) (p : Fin 16) (tag : Nat) (t : Taken), let m := begun s.m p tag; let e := t.entry; ∃ d, TakesForm s p tag 0x43 (fun e => fld e 33 0 2 == 0) t ∧ m.pol[p].sealed = false ∧ idxOf m.pol[p] (fld e 32 0 3) = none ∧ defBad d = false) ∧
    (∃ (s : State) (p : Fin 16) (tag : Nat) (t : Taken), let m := begun s.m p tag; let e := t.entry; ∃ recs i x l m1, Takes s p tag 0x41 t ∧ vecList m p e = .ok (i, x, l) ∧ fld e 40 0 32 ≤ 65536 ∧ (listOf x l).next + fld e 40 0 32 ≤ 2 ^ 32 - 1 ∧ m.ctr.rd Ctr.itemsLive + pendingItems m + fld e 40 0 32 ≤ 200000000000 ∧ insPlan m p i x l tag (fld e 40 0 32) (recsOf x.d (fld e 40 0 32) recs) = .ok m1) ∧
    (∃ (s : State) (p : Fin 16) (tag : Nat) (t : Taken), let m := begun s.m p tag; let e := t.entry; ∃ i x l m1, Takes s p tag 0x42 t ∧ vecList m p e = .ok (i, x, l) ∧ fld e 44 0 32 ≤ 65536 ∧ (listOf x l).tombs.length + ((listOf x l).upds.filter (fun u => u.kind == .del)).length + 1 ≤ 4096 ∧ delPlan m p i x l tag (fld e 40 0 32) (fld e 44 0 32) = .ok m1) ∧
    (∃ (s : State) (p : Fin 16) (tag : Nat) (t : Taken), let m := begun s.m p tag; let e := t.entry; ∃ recs i x l m1, TakesForm s p tag 0x43 (fun e => fld e 33 0 2 == 1) t ∧ vecList m p e = .ok (i, x, l) ∧ fld e 40 0 32 ≤ 16777216 ∧ (listOf x l).next + fld e 40 0 32 ≤ 2 ^ 32 - 1 ∧ m.ctr.rd Ctr.itemsLive + pendingItems m + fld e 40 0 32 ≤ 200000000000 ∧ buildPlan m p i x l tag (fld e 40 0 32) (recsOf x.d (fld e 40 0 32) recs) = .ok m1) ∧
    (∃ (s : State) (p : Fin 16) (tag : Nat) (t : Taken), let m := begun s.m p tag; let e := t.entry; ∃ i x l us m1, TakesForm s p tag 0x43 (fun e => fld e 33 0 2 == 2) t ∧ vecList m p e = .ok (i, x, l) ∧ logAppend m p i ⟨l, false, 0, nextVer (listOf x l), 64⟩ = .ok (us, m1)) ∧
    (∃ (s : State) (p : Fin 16) (tag : Nat) (t : Taken), let m := begun s.m p tag; let e := t.entry; ∃ i x, TakesForm s p tag 0x43 (fun e => fld e 33 0 2 == 3) t ∧ vecIndex m p e = .ok (i, x) ∧ (∀ z ∈ m.pol[p].vec.queries, z.index ≠ i)) ∧
    (∃ (s : State) (p : Fin 16) (tag : Nat) (t : Taken), let m := begun s.m p tag; let e := t.entry; ∃ i x l, Takes s p tag 0x44 t ∧ fld e 36 0 32 ≠ 0xFFFFFFFF ∧ vecList m p e = .ok (i, x, l)) ∧
    (∃ (s : State) (p : Fin 16), ∃ i x l y, s.m.working = true ∧ s.m.pol[p].vec.idx = [(i, x)] ∧ x.lists = [(l, y)]) ∧
    (∃ (s : State) (p : Fin 16) (tag : Nat), let m := begun s.m p tag; ∃ i x l u rest, idxOf m.pol[p] i = some x ∧ (listOf x l).upds = u :: rest ∧ u.kind = .ins ∧ (∀ k ∈ u.units, unitAcked m k = true)) ∧
    (∃ (s : State) (p : Fin 16) (tag : Nat), let m := begun s.m p tag; ∃ i x l u rest, idxOf m.pol[p] i = some x ∧ (listOf x l).upds = u :: rest ∧ (∃ k ∈ u.units, unitAcked m k = false)) ∧
    (∃ (s : State) (p : Fin 16), ∃ tag t blk i x, let m := begun s.m p tag; let cents := (List.range (cdiv (x.d.lists * (x.d.codeBits / 8)) 65536)).map (fun k => x.centPg + k); s.m.working = true ∧ Takes s p tag 0x40 t ∧ vecIndex m p t.entry = .ok (i, x) ∧ queryBad t.entry x (qblockOf x.d blk) = none ∧ (∀ n ∈ cents, pageLost m.pol[p] n = false)) ∧
    (∃ (s : State), s.m.working = true) ∧
    (∃ (s : State) (p : Fin 16) (m : Mod), s.m.working = true ∧ (∀ e ∈ m.pol[p].vec.queues, queueReady m.pol[p] e.1 e.2 = false)) ∧
    (∃ (s : State) (p : Fin 16) (m : Mod), s.m.working = true ∧ m.pol[p].fenced = true) ∧
    (∃ (s : State) (p : Fin 16), ∃ id t v x, s.m.working = true ∧ (tickPol s.m p t).pol[p].vec.visits.find? (fun v => v.id == id) = some v ∧ s.m.pol[p].fenced = false ∧ idxOf (tickPol s.m p t).pol[p] v.index = some x ∧ v.queries = [] ∧ v.segs = [] ∧ v.tail = [] ∧ (∀ n ∈ [x.listPg + 64 * v.list / 65536] ++ (segTabPage (tickPol s.m p t).pol[p] v.index x v.list).toList ++ (listOf x v.list).tombPage.toList, pageLost (tickPol s.m p t).pol[p] n = false)) ∧
    (∃ (s : State) (p : Fin 16), ∃ tag t z d, s.m.working = true ∧ queryOf (tickPol s.m p t).pol[p] tag = some z ∧ z.deadline = some d ∧ d ≤ max s.m.pol[p].clk t ∧ z.phase = .visiting ∧ z.queued ≠ []) ∧
    (∃ (s : State) (z : VQuery), s.m.working = true ∧ z.filter = none ∧ z.maxDist = 0xFFFF) :=
  ⟨⟨ring (0x43) id, 0, 7, takenFor (0x43), defOk, by unfold TakesForm; decide +kernel⟩,
    ⟨ring (0x41) (fun q => { q with vec := { Vec.empty with idx := [(0, idxOk)] }, pages := [(0, { pageZero with tier := .toe, owner := .index 0 objLog })] }), 0, 7, takenFor (0x41), 0, 0, idxOk, 0, okOf (insPlan (begun (ring (0x41) (fun q => { q with vec := { Vec.empty with idx := [(0, idxOk)] }, pages := [(0, { pageZero with tier := .toe, owner := .index 0 objLog })] })).m 0 7) 0 0 idxOk 0 7 (fld (takenFor (0x41)).entry 40 0 32) (recsOf idxOk.d (fld (takenFor (0x41)).entry 40 0 32) 0)) up.m, by (repeat' apply And.intro) <;> first | decide +kernel | exact ok_eq (by decide +kernel) | exact ok_okOf (by decide +kernel) | exact arrived_head (by decide +kernel) | rfl⟩,
    ⟨ring (0x42) (fun q => { q with vec := { Vec.empty with idx := [(0, idxOk)] }, pages := [(0, { pageZero with tier := .toe, owner := .index 0 objLog })] }), 0, 7, takenFor (0x42), 0, idxOk, 0, okOf (delPlan (begun (ring (0x42) (fun q => { q with vec := { Vec.empty with idx := [(0, idxOk)] }, pages := [(0, { pageZero with tier := .toe, owner := .index 0 objLog })] })).m 0 7) 0 0 idxOk 0 7 (fld (takenFor (0x42)).entry 40 0 32) (fld (takenFor (0x42)).entry 44 0 32)) up.m, by (repeat' apply And.intro) <;> first | decide +kernel | exact ok_eq (by decide +kernel) | exact ok_okOf (by decide +kernel) | exact arrived_head (by decide +kernel) | rfl⟩,
    ⟨ring (0x43 + at8 33 1) (fun q => { q with vec := { Vec.empty with idx := [(0, idxOk)] }, pages := [(0, { pageZero with tier := .toe, owner := .index 0 objLog })] }), 0, 7, takenFor (0x43 + at8 33 1), 0, 0, idxOk, 0, okOf (buildPlan (begun (ring (0x43 + at8 33 1) (fun q => { q with vec := { Vec.empty with idx := [(0, idxOk)] }, pages := [(0, { pageZero with tier := .toe, owner := .index 0 objLog })] })).m 0 7) 0 0 idxOk 0 7 (fld (takenFor (0x43 + at8 33 1)).entry 40 0 32) (recsOf idxOk.d (fld (takenFor (0x43 + at8 33 1)).entry 40 0 32) 0)) up.m, by (repeat' apply And.intro) <;> first | decide +kernel | exact ok_eq (by decide +kernel) | exact ok_okOf (by decide +kernel) | exact arrived_head (by decide +kernel) | rfl⟩,
    ⟨ring (0x43 + at8 33 2) (fun q => { q with vec := { Vec.empty with idx := [(0, idxOk)] }, pages := [(0, { pageZero with tier := .toe, owner := .index 0 objLog })] }), 0, 7, takenFor (0x43 + at8 33 2), 0, idxOk, 0, (okOf (logAppend (begun (ring (0x43 + at8 33 2) (fun q => { q with vec := { Vec.empty with idx := [(0, idxOk)] }, pages := [(0, { pageZero with tier := .toe, owner := .index 0 objLog })] })).m 0 7) 0 0 ⟨0, false, 0, nextVer (listOf idxOk 0), 64⟩) ([], up.m)).1, (okOf (logAppend (begun (ring (0x43 + at8 33 2) (fun q => { q with vec := { Vec.empty with idx := [(0, idxOk)] }, pages := [(0, { pageZero with tier := .toe, owner := .index 0 objLog })] })).m 0 7) 0 0 ⟨0, false, 0, nextVer (listOf idxOk 0), 64⟩) ([], up.m)).2, by unfold TakesForm; decide +kernel, ok_eq (by decide +kernel), ok_okOf (d := ([], up.m)) (by decide +kernel)⟩,
    ⟨ring (0x43 + at8 33 3) (fun q => { q with vec := { Vec.empty with idx := [(0, idxOk)] }, pages := [(0, { pageZero with tier := .toe, owner := .index 0 objLog })] }), 0, 7, takenFor (0x43 + at8 33 3), 0, idxOk, by (repeat' apply And.intro) <;> first | decide +kernel | exact ok_eq (by decide +kernel) | exact ok_okOf (by decide +kernel) | exact arrived_head (by decide +kernel) | rfl⟩,
    ⟨ring (0x44) (fun q => { q with vec := { Vec.empty with idx := [(0, idxOk)] }, pages := [(0, { pageZero with tier := .toe, owner := .index 0 objLog })] }), 0, 7, takenFor (0x44), 0, idxOk, 0, by (repeat' apply And.intro) <;> first | decide +kernel | exact ok_eq (by decide +kernel) | exact ok_okOf (by decide +kernel) | exact arrived_head (by decide +kernel) | rfl⟩,
    ⟨upP (fun q => { q with vec := { Vec.empty with idx := [(0, idxOk)] } }), 0, 0, idxOk, 0, { VList.empty with tombPage := some 0 }, by decide +kernel⟩,
    ⟨upP (fun q => { q with vec := { Vec.empty with idx := [(0, { idxOk with lists := [(0, { VList.empty with upds := [⟨some 7, .ins, [4], 0, 1, []⟩] })] })] } }), 0, 7, 0, { idxOk with lists := [(0, { VList.empty with upds := [⟨some 7, .ins, [4], 0, 1, []⟩] })] }, 0, ⟨some 7, .ins, [4], 0, 1, []⟩, [], by decide +kernel⟩,
    ⟨upF (fun f => { f with units := [(4, ⟨2, 6, 0, 0, false, none⟩)] }) (fun q => { q with vec := { Vec.empty with idx := [(0, { idxOk with lists := [(0, { VList.empty with upds := [⟨some 7, .ins, [4], 0, 1, []⟩] })] })] } }), 0, 7, 0, { idxOk with lists := [(0, { VList.empty with upds := [⟨some 7, .ins, [4], 0, 1, []⟩] })] }, 0, ⟨some 7, .ins, [4], 0, 1, []⟩, [], by decide +kernel⟩,
    ⟨ring (0x40 + at8 34 1 + at8 36 1 + at8 38 1 + at8 40 0xFFFF) (fun q => { q with vec := { Vec.empty with idx := [(0, idxOk)] }, pages := [(0, { pageZero with tier := .toe, owner := .index 0 objLog })] }), 0, 7, takenFor (0x40 + at8 34 1 + at8 36 1 + at8 38 1 + at8 40 0xFFFF), 0, 0, idxOk, by (repeat' apply And.intro) <;> first | decide +kernel | exact ok_eq (by decide +kernel) | exact ok_okOf (by decide +kernel) | exact arrived_head (by decide +kernel) | rfl⟩,
    ⟨up, by decide +kernel⟩,
    ⟨up, 0, (upP (fun q => { q with vec := { Vec.empty with idx := [(0, idxOk)], queues := [(0, [(7, 5)])] } })).m, by decide +kernel⟩,
    ⟨up, 0, (upP (fun q => { q with fenced := true })).m, by decide +kernel⟩,
    ⟨upP (fun q => { q with vec := { Vec.empty with idx := [(0, idxOk)], visits := [⟨1, 0, 0, true, [], 0, [], [], 0, []⟩] } }), 0, 1, 0, ⟨1, 0, 0, true, [], 0, [], [], 0, []⟩, idxOk, by decide +kernel⟩,
    ⟨upP (fun q => { q with vec := { Vec.empty with queries := [{ vqZero with deadline := some 5, queued := [0] }] } }), 0, 7, 5, { vqZero with deadline := some 5, queued := [0] }, 5, by decide +kernel⟩,
    ⟨up, vqZero, by decide +kernel⟩⟩

/-- States and operands that meet the hypotheses of CheckpointsAndReplicas. -/
theorem test_meets_checkpointsAndReplicas :
    (∃ (s : State) (p : Fin 16) (tag : Nat) (t : Taken), let m := begun s.m p tag; let e := t.entry; ∃ idx, ∃ d, TakesForm s p tag 0x60 (fun e => !flg e 28 2) t ∧ resolve m p e = .ok (idx, d) ∧ d.own ≠ .importing ∧ d.own ≠ .restoring ∧ (d.life = .active ∨ d.life = .parked) ∧ ckBusy m.pol[p] d.sid = false ∧ m.pol[p].sec.locked = false ∧ m.pol[p].ck.store.rebuilt = true) ∧
    (∃ (s : State) (p : Fin 16) (tag : Nat) (t : Taken), let m := begun s.m p tag; let e := t.entry; ∃ idx, ∃ d, TakesForm s p tag 0x60 (fun e => flg e 28 2) t ∧ resolve m p e = .ok (idx, d) ∧ d.own ≠ .importing ∧ d.own ≠ .restoring ∧ (d.life = .active ∨ d.life = .parked) ∧ m.pol[p].sealed = false ∧ fld e 32 0 6 = 0 ∧ ckBusy m.pol[p] d.sid = false ∧ m.pol[p].sec.locked = false) ∧
    (∃ (s : State) (p : Fin 16) (tag : Nat) (t : Taken), let m := begun s.m p tag; let e := t.entry; ∃ idx, ∃ d, ∃ j, Takes s p tag 0x61 t ∧ resolve m p e = .ok (idx, d) ∧ d.own ≠ .importing ∧ d.own ≠ .restoring ∧ (d.life = .active ∨ d.life = .parked) ∧ ckJobOf m.pol[p] d.sid = some j ∧ j.ck.seq = fld e 28 0 32 ∧ j.commit = none ∧ j.host = none) ∧
    (∃ (s : State) (p : Fin 16) (tag : Nat) (t : Taken), let m := begun s.m p tag; let e := t.entry; ∃ (c : Ck), Takes s p tag 0x63 t ∧ flg e 32 0 = false ∧ flg e 32 1 = false ∧ m.pol[p].ck.store.rebuilt = true ∧ findCk m.pol[p].ck.store (fld e 16 0 64) (fld e 24 0 32) (fld e 28 0 32) = some c ∧ ckJobOf m.pol[p] (fld e 16 0 64) = none ∧ m.pol[p].ck.restores = [] ∧ findSid (modCk m p (fun k => { k with store := removeCks m.pol[p].ck.store (descendants m.pol[p].ck.store (m.pol[p].ck.store.cks.length + 1) [c]) })) p.val (fld e 16 0 64) = none ∧ descendants m.pol[p].ck.store (m.pol[p].ck.store.cks.length + 1) [c] ≠ []) ∧
    (∃ (s : State) (p : Fin 16) (tag : Nat) (t : Taken), let m := begun s.m p tag; let e := t.entry; ∃ idx, ∃ d, Takes s p tag 0x62 t ∧ pumpFenced m p = false ∧ flg e 36 2 = false ∧ resolve m p e = .ok (idx, d) ∧ busyOwn d = false ∧ (d.life = .active ∨ d.life = .parked)) ∧
    (∃ (s : State) (p : Fin 16) (tag : Nat) (t : Taken), let m := begun s.m p tag; let e := t.entry; Takes s p tag 0x62 t ∧ pumpFenced m p = false ∧ flg e 36 2 = true ∧ lookupSid m p (fld e 16 0 64) = .ok none ∧ findSidAny m (fld e 16 0 64) = none) ∧
    (∃ (s : State) (p : Fin 16) (sid : Nat) (j : CkJob) (st : Nat × Nat), s.m.working = true ∧ ckJobOf s.m.pol[p] sid = some j ∧ j.localDone = false ∧ j.beginAcked = true ∧ j.lost = false ∧ j.refused = none ∧ j.units = [] ∧ j.host = some st) ∧
    (∃ (s : State) (p : Fin 16) (sid : Nat) (j : CkJob), s.m.working = true ∧ ckJobOf s.m.pol[p] sid = some j ∧ j.localDone = false ∧ j.beginAcked = true ∧ j.lost = false ∧ j.refused = none ∧ j.units = [] ∧ j.host = none) ∧
    (∃ (s : State) (p : Fin 16) (sid : Nat) (j : CkJob), s.m.working = true ∧ ckJobOf s.m.pol[p] sid = some j ∧ j.localDone = false ∧ j.beginAcked = true ∧ j.lost = true) ∧
    (∃ (s : State) (p : Fin 16), ∃ u, s.m.working = true ∧ (∀ x ∈ s.m.pol[p].ck.ins, max s.m.pol[p].clk u < x.last + 600000000000)) ∧
    (∃ (s : State) (p : Fin 16), ∃ u, ∃ x, s.m.working = true ∧ s.m.pol[p].ck.ins = [x] ∧ x.last + 600000000000 ≤ max s.m.pol[p].clk u) ∧
    (∃ (s : State) (p : Fin 16), ∃ idx, ∃ r, ∃ d, ∃ sl, s.m.working = true ∧ s.m.pol[p].ck.restores.find? (fun r => r.idx == idx && r.owned && !r.loaded && r.adopted.isNone) = some r ∧ desc? s.m idx = some d ∧ s.m.pol[p].slots.get r.slot = some sl ∧ s.m.pol[p].sess.get idx = none) ∧
    (∃ (s : State) (src srcPol : Nat) (p : Fin 16), let m := unlaned s.m src 0; s.m.working = true ∧ Arrived s.m src srcPol p.val 0 0x0E ∧ m.pol[p].composed = true ∧ (replStore m.pol[p] (replKey src srcPol)).rebuilt = true ∧ m.pol[p].ck.ins = []) ∧
    (∃ (src srcPol : Nat) (p : Fin 16) (m : Mod) (bits : List Bool) (j : CkJob) (r : ReplJob), replJobOf m.pol[p] src srcPol .offered = some (j, r) ∧ (∀ b ∈ bits, b = false)) ∧
    (∃ (s : State) (src srcPol : Nat) (p : Fin 16), ∃ digest bytes pay x us m2, let m := unlaned s.m src 1; s.m.working = true ∧ Arrived s.m src srcPol p.val 1 0x21 ∧ (m.pol[p].ck.ins.filter (fun x => x.src == replKey src srcPol)).getLast? = some x ∧ payDigest pay = digest ∧ (∀ c ∈ (replStore m.pol[p] (replKey src srcPol)).chunks, c.digest ≠ digest) ∧ writeStore (putReplStore (modCk m p (fun c => { c with ins := updWhere c.ins (fun y => y == x) (fun y => { y with last := m.pol[p].clk }) })) p (replKey src srcPol) { replStore m.pol[p] (replKey src srcPol) with chunks := (replStore m.pol[p] (replKey src srcPol)).chunks ++ [{ digest := digest, pay := pay, bytes := bytes, refs := 0 }] }) p = .ok (us, m2)) ∧
    (∃ (s : State) (src srcPol : Nat) (p : Fin 16), ∃ sid epoch seq rs x us m2, let m := unlaned s.m src 1; s.m.working = true ∧ Arrived s.m src srcPol p.val 1 0x22 ∧ m.pol[p].ck.ins.find? (fun x => x.src == replKey src srcPol && x.sid == sid && x.epoch == epoch && x.seq == seq) = some x ∧ (∀ r ∈ rs, ∃ c ∈ (replStore m.pol[p] (replKey src srcPol)).chunks, c.digest = r.digest) ∧ writeStore (putReplStore (modCk m p (fun c => { c with ins := updWhere c.ins (fun y => y == x) (fun y => { y with recs := y.recs ++ rs, last := m.pol[p].clk }) })) p (replKey src srcPol) (addChunks (replStore m.pol[p] (replKey src srcPol)) rs).2) p = .ok (us, m2)) ∧
    (∃ (s : State) (src srcPol : Nat) (p : Fin 16), ∃ (c : Ck) (x : ReplIn), ∃ us m2, let m := unlaned s.m src 0; s.m.working = true ∧ Arrived s.m src srcPol p.val 0 0x10 ∧ m.pol[p].ck.ins.find? (fun x => x.src == replKey src srcPol && x.sid == c.sid && x.epoch == c.epoch && x.seq == c.seq) = some x ∧ recsDigest x.sid x.epoch x.seq x.recs = c.recsDigest ∧ writeStore (modCk m p (fun k => { k with ins := updWhere k.ins (fun y => y == x) (fun y => { y with commit := some c }) })) p = .ok (us, m2)) ∧
    (∃ (m : Mod) (p : Fin 16) (x : ReplIn) (c : Ck), storeAcked m p = true ∧ m.pol[p].ck.ins = [x] ∧ x.commit = some c) ∧
    (∃ (m : Mod) (p : Fin 16), storeAcked m p = false) ∧
    (∃ (m : Mod) (p : Fin 16) (x : ReplIn), m.pol[p].ck.ins = [x]) ∧
    (∃ (s : State) (src srcPol : Nat) (p : Fin 16), ∃ sid, ∃ epoch, ∃ seq, ∃ j, let m := unlaned s.m src 0; s.m.working = true ∧ Arrived s.m src srcPol p.val 0 0x11 ∧ ckJobOf m.pol[p] sid = some j ∧ j.ck.epoch = epoch ∧ j.ck.seq = seq ∧ (∃ r ∈ j.repl, r.mod = src ∧ r.pol = srcPol)) :=
  ⟨⟨held (live) (0x60 + at8 16 5 + at8 20 1) id, 0, 7, takenFor (0x60 + at8 16 5 + at8 20 1), 5, live, by (repeat' apply And.intro) <;> first | decide +kernel | exact ok_eq (by decide +kernel) | exact ok_okOf (by decide +kernel) | exact arrived_head (by decide +kernel) | rfl⟩,
    ⟨held (live) (0x60 + at8 16 5 + at8 20 1 + at8 28 4) id, 0, 7, takenFor (0x60 + at8 16 5 + at8 20 1 + at8 28 4), 5, live, by (repeat' apply And.intro) <;> first | decide +kernel | exact ok_eq (by decide +kernel) | exact ok_okOf (by decide +kernel) | exact arrived_head (by decide +kernel) | rfl⟩,
    ⟨held (live) (0x61 + at8 16 5 + at8 20 1 + at8 28 1) (fun q => { q with ck := { q.ck with jobs := [ckJobZero] } }), 0, 7, takenFor (0x61 + at8 16 5 + at8 20 1 + at8 28 1), 5, live, ckJobZero, by (repeat' apply And.intro) <;> first | decide +kernel | exact ok_eq (by decide +kernel) | exact ok_okOf (by decide +kernel) | exact arrived_head (by decide +kernel) | rfl⟩,
    ⟨ring (0x63 + at8 16 9 + at8 24 1 + at8 28 1) (fun q => { q with ck := { q.ck with store := { ckStoreEmpty with cks := [ckZero] } } }), 0, 7, takenFor (0x63 + at8 16 9 + at8 24 1 + at8 28 1), ckZero, by unfold Takes; decide +kernel⟩,
    ⟨held (live) (0x62 + at8 16 5 + at8 20 1) id, 0, 7, takenFor (0x62 + at8 16 5 + at8 20 1), 5, live, by (repeat' apply And.intro) <;> first | decide +kernel | exact ok_eq (by decide +kernel) | exact ok_okOf (by decide +kernel) | exact arrived_head (by decide +kernel) | rfl⟩,
    ⟨ring (0x62 + at8 36 4) id, 0, 7, takenFor (0x62 + at8 36 4), by (repeat' apply And.intro) <;> first | decide +kernel | exact ok_eq (by decide +kernel) | exact ok_okOf (by decide +kernel) | exact arrived_head (by decide +kernel) | rfl⟩,
    ⟨upP (fun q => { q with ck := { q.ck with jobs := [{ ckJobZero with beginAcked := true, host := some (0, 0) }] } }), 0, 9, { ckJobZero with beginAcked := true, host := some (0, 0) }, (0, 0), by decide +kernel⟩,
    ⟨upP (fun q => { q with ck := { q.ck with jobs := [{ ckJobZero with beginAcked := true }] } }), 0, 9, { ckJobZero with beginAcked := true }, by decide +kernel⟩,
    ⟨upP (fun q => { q with ck := { q.ck with jobs := [{ ckJobZero with beginAcked := true, lost := true }] } }), 0, 9, { ckJobZero with beginAcked := true, lost := true }, by decide +kernel⟩,
    ⟨upP (fun q => { q with ck := { q.ck with ins := [replInZero] } }), 0, 599999999999, by decide +kernel⟩,
    ⟨upP (fun q => { q with ck := { q.ck with ins := [replInZero] } }), 0, 600000000000, replInZero, by decide +kernel⟩,
    ⟨held live 0 (fun q => { q with ck := { q.ck with restores := [{ restoreZero with owned := true }] }, slots := [(0, slotOk)] }), 0, 5, { restoreZero with owned := true }, live, slotOk, by decide +kernel⟩,
    ⟨inbox 3 0 (rxOf 2 0 0x0E) (upP id), 3, 2, 0, by (repeat' apply And.intro) <;> first | decide +kernel | exact ok_eq (by decide +kernel) | exact ok_okOf (by decide +kernel) | exact arrived_head (by decide +kernel) | rfl⟩,
    ⟨3, 2, 0, (upP (fun q => { q with ck := { q.ck with jobs := [{ ckJobZero with repl := [⟨3, 2, .offered, 0⟩] }] } })).m, [false], { ckJobZero with repl := [⟨3, 2, .offered, 0⟩] }, ⟨3, 2, .offered, 0⟩, by decide +kernel⟩,
    ⟨inbox 3 1 (rxOf 2 0 0x21) (upRoom (fun q => { q with ck := { q.ck with ins := [replInZero] }, pages := [(0, { pageZero with tier := .toe, home := true, frame := 4, owner := .store 0 }), (1, { pageZero with home := true, owner := .store 1 })] })), 3, 2, 0, payDigest (.feature 0 0 []), 0, .feature 0 0 [], replInZero, _, _, rfl, arrived_head (by decide +kernel), by decide +kernel, rfl, by decide +kernel, ok_pair (d := ([], up.m)) (by decide +kernel)⟩,
    ⟨inbox 3 1 (rxOf 2 0 0x22) (upRoom (fun q => { q with ck := { q.ck with ins := [replInZero] }, pages := [(0, { pageZero with tier := .toe, home := true, frame := 4, owner := .store 0 }), (1, { pageZero with home := true, owner := .store 1 })] })), 3, 2, 0, 9, 1, 1, [], replInZero, _, _, rfl, arrived_head (by decide +kernel), by decide +kernel, by decide +kernel, ok_pair (d := ([], up.m)) (by decide +kernel)⟩,
    ⟨inbox 3 0 (rxOf 2 0 0x10) (upRoom (fun q => { q with ck := { q.ck with ins := [replInZero] }, pages := [(0, { pageZero with tier := .toe, home := true, frame := 4, owner := .store 0 }), (1, { pageZero with home := true, owner := .store 1 })] })), 3, 2, 0, { ckZero with recsDigest := recsDigest 9 1 1 [] }, replInZero, _, _, rfl, arrived_head (by decide +kernel), by decide +kernel, by decide +kernel, ok_pair (d := ([], up.m)) (by decide +kernel)⟩,
    ⟨(upP (fun q => { q with ck := { q.ck with ins := [{ replInZero with commit := some ckZero }] } })).m, 0, { replInZero with commit := some ckZero }, ckZero, by decide +kernel⟩,
    ⟨(upF (fun f => { f with units := [(4, ⟨3, 6, 0, 0, false, none⟩)] }) (fun q => { q with pages := [(0, { pageZero with tier := .toe, home := true, frame := 4, owner := .store 0 }), (1, { pageZero with home := true, owner := .store 1 })] })).m, 0, by decide +kernel⟩,
    ⟨(upP (fun q => { q with ck := { q.ck with ins := [replInZero] } })).m, 0, replInZero, by decide +kernel⟩,
    ⟨inbox 3 0 (rxOf 2 0 0x11) (upP (fun q => { q with ck := { q.ck with jobs := [{ ckJobZero with repl := [⟨3, 2, .committing, 0⟩] }] } })), 3, 2, 0, 9, 1, 1, { ckJobZero with repl := [⟨3, 2, .committing, 0⟩] }, by (repeat' apply And.intro) <;> first | decide +kernel | exact ok_eq (by decide +kernel) | exact ok_okOf (by decide +kernel) | exact arrived_head (by decide +kernel) | rfl⟩⟩

/-- States and operands that meet the hypotheses of OwnershipTransfers. -/
theorem test_meets_ownershipTransfers :
    (∃ (s : State) (src srcPol : Nat) (p : Fin 16), let m := unlaned s.m src 0; ∃ (x : OwnBody), s.m.working = true ∧ Arrived s.m src srcPol p.val 0 0x01 ∧ m.pol[p].composed = true ∧ ¬ (x.cls = .lc ∧ x.sparse = true) ∧ importOf m.pol[p] x.sid = none ∧ findSidAny m x.sid = none) ∧
    (∃ (s : State) (src srcPol : Nat) (p : Fin 16), let m := unlaned s.m src 0; ∃ (x : OwnBody), ∃ idx, ∃ d, s.m.working = true ∧ Arrived s.m src srcPol p.val 0 0x01 ∧ m.pol[p].composed = true ∧ ¬ (x.cls = .lc ∧ x.sparse = true) ∧ importOf m.pol[p] x.sid = none ∧ findSidAny m x.sid = some (idx, d) ∧ d.own = .owned ∧ d.pol = p.val ∧ d.life ≠ .retiring ∧ d.life ≠ .husk) ∧
    (∃ (s : State) (src srcPol : Nat) (p : Fin 16), ∃ (x : PageMsg), ∃ im, ∃ m1, let n := unlaned s.m src 1; s.m.working = true ∧ Arrived s.m src srcPol p.val 1 0x20 ∧ importOf n.pol[p] x.sid = some im ∧ im.h = x.h ∧ im.srcMod = src ∧ (∀ y ∈ im.pages, y.pseq ≠ x.pseq) ∧ placePage n p im x = .ok m1 ∧ im.pages.length + 1 < im.expected) ∧
    (∃ (s : State) (src srcPol : Nat) (p : Fin 16), let m := unlaned s.m src 0; ∃ sid, ∃ h, ∃ idx, ∃ d, s.m.working = true ∧ Arrived s.m src srcPol p.val 0 0x07 ∧ findSid m p.val sid = some (idx, d) ∧ d.own = .pendingOut ∧ d.pend = h) ∧
    (∃ (s : State) (src srcPol : Nat) (p : Fin 16), let m := unlaned s.m src 0; ∃ (x : OwnBody), ∃ idx, ∃ d, s.m.working = true ∧ Arrived s.m src srcPol p.val 0 0x02 ∧ findSidAny m x.sid = some (idx, d) ∧ desc? m idx = some d ∧ d.pol = p.val ∧ d.own = .pendingOut ∧ leaseDue m p idx d = false ∧ d.pend = x.epoch ∧ 0 < x.epoch ∧ xferOf (sendOwn (relinquish m p idx x.epoch src srcPol) src srcPol p.val .claimAck x.sid x.epoch).pol[p] idx = none) ∧
    (∃ (s : State) (src srcPol : Nat) (p : Fin 16), let m := unlaned s.m src 0; ∃ (x : OwnBody), ∃ idx, ∃ d, s.m.working = true ∧ Arrived s.m src srcPol p.val 0 0x02 ∧ findSidAny m x.sid = some (idx, d) ∧ desc? m idx = some d ∧ d.pol = p.val ∧ d.own = .owned ∧ x.epoch < d.epoch) ∧
    (∃ (s : State) (src srcPol : Nat) (p : Fin 16), s.m.working = true ∧ Arrived s.m src srcPol p.val 0 0x03) ∧
    (∃ (s : State) (src srcPol : Nat) (p : Fin 16), let m := unlaned s.m src 0; ∃ (x : OwnBody), ∃ im, s.m.working = true ∧ Arrived s.m src srcPol p.val 0 0x04 ∧ importOf m.pol[p] x.sid = some im ∧ im.h = x.epoch ∧ im.srcMod = src) ∧
    (∃ (s : State) (src srcPol : Nat) (p : Fin 16), let m := unlaned s.m src 0; ∃ (x : OwnBody), ∃ idx, ∃ d, s.m.working = true ∧ Arrived s.m src srcPol p.val 0 0x04 ∧ importOf m.pol[p] x.sid = none ∧ findSid m p.val x.sid = some (idx, d) ∧ d.own = .pendingOut ∧ d.pend = x.epoch ∧ d.peerMod = src ∧ x.status ≠ stStale) ∧
    (∃ (s : State) (src srcPol : Nat) (p : Fin 16), let m := unlaned s.m src 0; ∃ (x : OwnBody), ∃ idx, ∃ d, s.m.working = true ∧ Arrived s.m src srcPol p.val 0 0x05 ∧ findSidAny m x.sid = some (idx, d) ∧ d.epoch < x.epoch) ∧
    (∃ (s : State) (src srcPol : Nat) (p : Fin 16), let m := unlaned s.m src 0; ∃ (x : OwnBody), ∃ idx, ∃ d, s.m.working = true ∧ Arrived s.m src srcPol p.val 0 0x05 ∧ findSidAny m x.sid = some (idx, d) ∧ x.epoch < d.epoch) ∧
    (∃ (s : State) (src srcPol : Nat) (p : Fin 16), let m := unlaned s.m src 0; ∃ (x : OwnBody), ∃ idx, ∃ d, s.m.working = true ∧ Arrived s.m src srcPol p.val 0 0x06 ∧ findSidAny m x.sid = some (idx, d) ∧ d.own = .owned ∧ d.epoch < x.epoch ∧ x.ownerValid = true) ∧
    (∃ (s : State) (p : Fin 16) (t : Nat), let m := tickPol s.m p t; ∃ idx, ∃ d, s.m.working = true ∧ desc? m idx = some d ∧ d.pol = p.val ∧ d.own = .pendingOut ∧ 0 < d.pend ∧ leaseDue m p idx d = true) ∧
    (∃ (s : State) (p : Fin 16) (t : Nat), let m := tickPol s.m p t; ∃ idx, ∃ d, s.m.working = true ∧ desc? m idx = some d ∧ leaseDue m p idx d = false) ∧
    (∃ (s : State) (p : Fin 16) (t : Nat), let m := tickPol s.m p t; ∃ sid, ∃ im, s.m.working = true ∧ importOf m.pol[p] sid = some im ∧ im.arrived + msNs (im.leaseMs - im.guardMs) ≤ m.pol[p].clk) ∧
    (∃ (s : State) (p : Fin 16) (t : Nat), let m := tickPol s.m p t; ∃ idx, ∃ d, s.m.working = true ∧ desc? m idx = some d ∧ d.pol = p.val ∧ d.own = .relinquished ∧ leaseDue m p idx d = true ∧ (d.life ≠ .husk ∨ d.famRefs = 0)) ∧
    (∃ (s : State) (p : Fin 16) (t : Nat), let m := tickPol s.m p t; ∃ idx, ∃ d, s.m.working = true ∧ desc? m idx = some d ∧ d.pol = p.val ∧ d.own = .restoring ∧ leaseDue m p idx d = true) ∧
    (∃ (s : State) (p : Fin 16) (t : Nat), let m := tickPol s.m p t; ∃ tag, ∃ w, s.m.working = true ∧ m.pol[p].inWaits.find? (fun w => w.tag == tag) = some w ∧ w.deadline ≤ m.pol[p].clk) :=
  ⟨⟨inbox 3 0 (rxOf 2 0 1) (upP id), 3, 2, 0, { OwnBody.blank with sid := 9 }, by (repeat' apply And.intro) <;> first | decide +kernel | exact ok_eq (by decide +kernel) | exact ok_okOf (by decide +kernel) | exact arrived_head (by decide +kernel) | rfl⟩,
    ⟨inbox 3 0 (rxOf 2 0 1) (held live 0 id), 3, 2, 0, { OwnBody.blank with sid := 9 }, 5, live, by (repeat' apply And.intro) <;> first | decide +kernel | exact ok_eq (by decide +kernel) | exact ok_okOf (by decide +kernel) | exact arrived_head (by decide +kernel) | rfl⟩,
    ⟨inbox 3 1 (rxOf 2 0 0x20) (upP (fun q => { q with imports := [{ importZero with sid := 9, h := 1, srcMod := 3 }] })), 3, 2, 0, { pageMsgZero with sid := 9, h := 1, kind := 3 }, { importZero with sid := 9, h := 1, srcMod := 3 }, okOf _ up.m, rfl, arrived_head (by decide +kernel), by decide +kernel, rfl, rfl, by decide +kernel, ok_okOf (by decide +kernel), by decide +kernel⟩,
    ⟨inbox 3 0 (rxOf 2 0 7) (held { live with own := .pendingOut, pend := 2, lease := 5, peerMod := 3 } 0 id), 3, 2, 0, 9, 2, 5, { live with own := .pendingOut, pend := 2, lease := 5, peerMod := 3 }, by (repeat' apply And.intro) <;> first | decide +kernel | exact ok_eq (by decide +kernel) | exact ok_okOf (by decide +kernel) | exact arrived_head (by decide +kernel) | rfl⟩,
    ⟨inbox 3 0 (rxOf 2 0 2) (held { live with own := .pendingOut, pend := 2, lease := 5, peerMod := 3 } 0 id), 3, 2, 0, { OwnBody.blank with sid := 9, epoch := 2 }, 5, { live with own := .pendingOut, pend := 2, lease := 5, peerMod := 3 }, by (repeat' apply And.intro) <;> first | decide +kernel | exact ok_eq (by decide +kernel) | exact ok_okOf (by decide +kernel) | exact arrived_head (by decide +kernel) | rfl⟩,
    ⟨inbox 3 0 (rxOf 2 0 2) (held live 0 id), 3, 2, 0, { OwnBody.blank with sid := 9 }, 5, live, by (repeat' apply And.intro) <;> first | decide +kernel | exact ok_eq (by decide +kernel) | exact ok_okOf (by decide +kernel) | exact arrived_head (by decide +kernel) | rfl⟩,
    ⟨inbox 3 0 (rxOf 2 0 3) (up), 3, 2, 0, by (repeat' apply And.intro) <;> first | decide +kernel | exact ok_eq (by decide +kernel) | exact ok_okOf (by decide +kernel) | exact arrived_head (by decide +kernel) | rfl⟩,
    ⟨inbox 3 0 (rxOf 2 0 4) (upP (fun q => { q with imports := [{ importZero with sid := 9, h := 1, srcMod := 3 }] })), 3, 2, 0, { OwnBody.blank with sid := 9, epoch := 1 }, { importZero with sid := 9, h := 1, srcMod := 3 }, by (repeat' apply And.intro) <;> first | decide +kernel | exact ok_eq (by decide +kernel) | exact ok_okOf (by decide +kernel) | exact arrived_head (by decide +kernel) | rfl⟩,
    ⟨inbox 3 0 (rxOf 2 0 4) (held { live with own := .pendingOut, pend := 2, lease := 5, peerMod := 3 } 0 id), 3, 2, 0, { OwnBody.blank with sid := 9, epoch := 2 }, 5, { live with own := .pendingOut, pend := 2, lease := 5, peerMod := 3 }, by (repeat' apply And.intro) <;> first | decide +kernel | exact ok_eq (by decide +kernel) | exact ok_okOf (by decide +kernel) | exact arrived_head (by decide +kernel) | rfl⟩,
    ⟨inbox 3 0 (rxOf 2 0 5) (held live 0 id), 3, 2, 0, { OwnBody.blank with sid := 9, epoch := 2 }, 5, live, by (repeat' apply And.intro) <;> first | decide +kernel | exact ok_eq (by decide +kernel) | exact ok_okOf (by decide +kernel) | exact arrived_head (by decide +kernel) | rfl⟩,
    ⟨inbox 3 0 (rxOf 2 0 5) (held live 0 id), 3, 2, 0, { OwnBody.blank with sid := 9 }, 5, live, by (repeat' apply And.intro) <;> first | decide +kernel | exact ok_eq (by decide +kernel) | exact ok_okOf (by decide +kernel) | exact arrived_head (by decide +kernel) | rfl⟩,
    ⟨inbox 3 0 (rxOf 2 0 6) (held live 0 id), 3, 2, 0, { OwnBody.blank with sid := 9, epoch := 2, ownerValid := true }, 5, live, by (repeat' apply And.intro) <;> first | decide +kernel | exact ok_eq (by decide +kernel) | exact ok_okOf (by decide +kernel) | exact arrived_head (by decide +kernel) | rfl⟩,
    ⟨held { live with own := .pendingOut, pend := 2, lease := 5, peerMod := 3 } 0 id, 0, 5000, 5, { live with own := .pendingOut, pend := 2, lease := 5, peerMod := 3 }, by decide +kernel⟩,
    ⟨held { live with own := .pendingOut, pend := 2, lease := 5, peerMod := 3 } 0 id, 0, 4999, 5, { live with own := .pendingOut, pend := 2, lease := 5, peerMod := 3 }, by decide +kernel⟩,
    ⟨upP (fun q => { q with imports := [{ importZero with sid := 9, h := 1, srcMod := 3 }] }), 0, 1900000000, 9, { importZero with sid := 9, h := 1, srcMod := 3 }, by decide +kernel⟩,
    ⟨held { live with own := .relinquished, lease := 5, life := .parked } 0 id, 0, 5000, 5, { live with own := .relinquished, lease := 5, life := .parked }, by decide +kernel⟩,
    ⟨held { live with own := .restoring, lease := 5, life := .parked } 0 id, 0, 5000, 5, { live with own := .restoring, lease := 5, life := .parked }, by decide +kernel⟩,
    ⟨upP (fun q => { q with inWaits := [⟨7, 9, 1, 5, false, []⟩] }), 0, 5, 7, ⟨7, 9, 1, 5, false, []⟩, by decide +kernel⟩⟩

/-- States and operands that meet the hypotheses of JournalAndPeers. -/
theorem test_meets_journalAndPeers :
    (∃ (s : State), ∃ src, ∃ srcPol, ∃ p, s.m.working = true ∧ Arrived s.m src srcPol (p : Fin 16).val 0 0x08) ∧
    (∃ (s : State) (pr : Peer) (r : JRec), s.m.working = true ∧ r.jseq ≤ pr.heldJseq) ∧
    (∃ (s : State) (pr : Peer) (r : JRec), s.m.working = true ∧ pr.heldJseq < r.jseq) ∧
    (∃ (s : State), ∃ src, s.m.working = true ∧ Arrived s.m src 0 0 0 0x09 ∧ (unlaned s.m src 0).jr.buddy = some src) ∧
    (∃ (s : State), s.m.working = true) ∧
    (∃ (s : State), ∃ t, s.m.working = true ∧ s.m.jr.down = false ∧ (∃ x ∈ s.m.jr.q, x.sent = true) ∧ max s.m.jr.lastAck s.m.jr.waitSince + msNs s.m.own.degradeMs ≤ max s.m.hvl t) ∧
    (∃ (s : State), s.m.working = true ∧ s.m.jr.down = true) ∧
    (∃ (s : State), ∃ src, ∃ t, ∃ pr, ∃ e, s.m.working = true ∧ s.m.peers.get src = some pr ∧ pr.expectSince = some e ∧ pr.failed = false ∧ max e (pr.lastFrame.getD 0) + msNs s.m.own.peerDeadMs ≤ max s.m.hvl t) ∧
    (∃ (s : State) (m : Mod), ∃ src, ∃ pr, ∃ kind, ∃ n, s.m.working = true ∧ m.peers.get src = some pr ∧ 1 ≤ kind ∧ kind ≤ 3 ∧ pr.failed = false ∧ pr.expectSince ≠ none ∧ pr.serial = some n) ∧
    (∃ (s : State), ∃ port, ∃ w, s.m.working = true ∧ s.m.net.rx = [(port, w)] ∧ w.ftype = 2 ∧ w.check = true) ∧
    (∃ (s : State), ∃ idx, ∃ (d : Desc), s.m.working = true ∧ s.m.refetch.contains idx = true ∧ s.m.pol[pn d.pol].sess.get idx = none ∧ d.own = .relinquished) ∧
    (∃ (m : Mod) (src : Nat) (pr : Peer), m.peers.get src = some pr ∧ pr.expectSince = none) :=
  ⟨⟨inbox 3 0 (rxOf 2 0 8) (up), 3, 2, 0, by (repeat' apply And.intro) <;> first | decide +kernel | exact ok_eq (by decide +kernel) | exact ok_okOf (by decide +kernel) | exact arrived_head (by decide +kernel) | rfl⟩,
    ⟨up, { Peer.blank with heldJseq := 4 }, jrecOf 4, by decide +kernel⟩,
    ⟨up, { Peer.blank with heldJseq := 4 }, jrecOf 5, by decide +kernel⟩,
    ⟨inbox 3 0 (rxOf 0 0 9) (upM (fun m => { m with jr := { m.jr with buddy := some 3 } })), 3, by (repeat' apply And.intro) <;> first | decide +kernel | exact ok_eq (by decide +kernel) | exact ok_okOf (by decide +kernel) | exact arrived_head (by decide +kernel) | rfl⟩,
    ⟨up, by decide +kernel⟩,
    ⟨upM (fun m => { m with jr := { m.jr with q := [⟨0, jrecOf 0, 0, true⟩] } }), 10000000, by decide +kernel⟩,
    ⟨upM (fun m => { m with jr := { m.jr with down := true } }), by decide +kernel⟩,
    ⟨upM (fun m => { m with peers := [(3, { Peer.blank with expectSince := some 1 })] }), 3, 250000001, { Peer.blank with expectSince := some 1 }, 1, by decide +kernel⟩,
    ⟨up, (upM (fun m => { m with peers := [(3, { Peer.blank with serial := some 4, expectSince := some 1 })] })).m, 3, { Peer.blank with serial := some 4, expectSince := some 1 }, 3, 4, by decide +kernel⟩,
    ⟨upM (fun m => { m with net := { m.net with rx := [(0, { wireZero with ftype := 2 })] } }), 0, { wireZero with ftype := 2 }, by decide +kernel⟩,
    ⟨upM (fun m => { m with refetch := [5] }), 5, { live with own := .relinquished }, by decide +kernel⟩,
    ⟨(upM (fun m => { m with peers := [(3, Peer.blank)] })).m, 3, Peer.blank, by decide +kernel⟩⟩

/-- States and operands that meet the hypotheses of CulvertAndTransferKeys. -/
theorem test_meets_culvertAndTransferKeys :
    (∃ (s : State), ∃ t, ∃ ft, ∃ port, ∃ (w : Wire), ∃ m, s.m.working = true ∧ takeRx (tickHvl s.m t) ft = some ((port, w), m) ∧ w.check = false ∧ ft = 0) ∧
    (∃ (s : State), ∃ t, ∃ ft, ∃ port, ∃ (w : Wire), ∃ m, s.m.working = true ∧ takeRx (tickHvl s.m t) ft = some ((port, w), m) ∧ w.check = false ∧ ft = 1) ∧
    (∃ (s : State), ∃ t, ∃ port, ∃ (w : Wire), ∃ m, ∃ (l : Lane), ∃ n, s.m.working = true ∧ takeRx (tickHvl s.m t) 0 = some ((port, w), m) ∧ w.check = true ∧ w.ty ≠ 0x08 ∧ laneOf (heard m w.src) (laneKey w.src (w.lane % 2)) = l ∧ unwrap l.rxNext w.psn = some n ∧ l.rxSeen.contains n = false) ∧
    (∃ (s : State), ∃ t, ∃ port, ∃ (w : Wire), ∃ m, ∃ (l : Lane), ∃ n, s.m.working = true ∧ takeRx (tickHvl s.m t) 0 = some ((port, w), m) ∧ w.check = true ∧ w.ty ≠ 0x08 ∧ laneOf (heard m w.src) (laneKey w.src (w.lane % 2)) = l ∧ unwrap l.rxNext w.psn = some n ∧ l.rxSeen.contains n = true ∧ l.sinceAck < 15) ∧
    (∃ (s : State), ∃ t, ∃ port, ∃ (w : Wire), ∃ m, ∃ (l : Lane), ∃ ap, s.m.working = true ∧ takeRx (tickHvl s.m t) 1 = some ((port, w), m) ∧ w.check = true ∧ w.ece = false ∧ laneOf (heard m w.src) (laneKey w.src (w.lane % 2)) = l ∧ l.unacked ≠ [] ∧ unwrap (((l.unacked.head?).map CulFrame.psn).getD l.nextPsn) w.ackPsn = some ap ∧ ap ≤ l.nextPsn ∧ (∀ f ∈ l.unacked, f.psn < ap)) ∧
    (∃ (s : State), ∃ src, ∃ lane, ∃ o, s.m.working = true ∧ (laneOf s.m (laneKey src (lane % 2))).oldest = some o) ∧
    (∃ (s : State), ∃ dst, ∃ lane, ∃ psn, ∃ t, ∃ f, s.m.working = true ∧ (laneOf s.m (laneKey dst (lane % 2))).unacked.find? (fun f => f.psn == psn) = some f ∧ f.sentAt + f.timer ≤ max s.m.hvl t) ∧
    (∃ (s : State), ∃ dst, ∃ lane, ∃ t, ∃ (l : Lane), s.m.working = true ∧ s.m.net.lanes.get (laneKey dst (lane % 2)) = some l ∧ l.unacked = [] ∧ l.queue = [] ∧ l.lastTx + msNs s.m.own.peerDeadMs / 4 ≤ max s.m.hvl t) ∧
    (∃ (s : State), ∃ src, s.m.working = true ∧ Arrived s.m src 0 0 0 0x0D) ∧
    (∃ (s : State) (p : Fin 16), ∃ src, ∃ srcPol, ∃ q, ∃ ok, let m := unlaned s.m src 0; s.m.working = true ∧ Arrived s.m src srcPol p.val 0 0x0C ∧ m.pol[p].composed = true ∧ quoteOk m p q ok = false) ∧
    (∃ (s : State) (p : Fin 16), ∃ src, ∃ srcPol, ∃ q, let m := unlaned s.m src 0; s.m.working = true ∧ Arrived s.m src srcPol p.val 0 0x0C ∧ m.pol[p].composed = true ∧ quoteOk m p q true = true ∧ (tkOf m p src srcPol).helloSent = false) ∧
    (∃ (s : State) (p : Fin 16), ∃ mod, ∃ pol, ∃ t, s.m.working = true ∧ s.m.pol[p].composed = true ∧ s.m.pol[p].sealed = true ∧ s.m.front.modId.isSome = true ∧ (tkOf s.m p mod pol).live = true ∧ (tkOf s.m p mod pol).helloSent = false ∧ (tkOf s.m p mod pol).since + 82800000000000 ≤ max s.m.hvl t) ∧
    (∃ (s : State) (p : Fin 16), ∃ mod, ∃ pol, ∃ t, s.m.working = true ∧ (tkOf s.m p mod pol).live = true ∧ (tkOf s.m p mod pol).since + 86400000000000 ≤ max s.m.hvl t ∧ s.m.pol[p].ck.jobs = []) ∧
    (∃ (s : State) (p : Fin 16), ∃ mod, ∃ pol, ∃ t, s.m.working = true ∧ (tkOf s.m p mod pol).since + 86400000000000 > max s.m.hvl t ∧ (tkOf s.m p mod pol).sent < 2 ^ 32 ∧ (tkOf s.m p mod pol).recv < 2 ^ 32) ∧
    (∃ (s : State) (p : Fin 16), ∃ mod, ∃ pol, ∃ t, ∃ d, s.m.working = true ∧ (tkOf s.m p mod pol).prev = some d ∧ d ≤ max s.m.hvl t) :=
  ⟨⟨upM (fun m => { m with net := { m.net with rx := [(0, { wireZero with check := false })] } }), 0, 0, 0, { wireZero with check := false }, up.m, rfl, rfl, rfl, rfl⟩,
    ⟨upM (fun m => { m with net := { m.net with rx := [(0, { wireZero with check := false, ftype := 1 })] } }), 0, 1, 0, { wireZero with check := false, ftype := 1 }, up.m, rfl, rfl, rfl, rfl⟩,
    ⟨upM (fun m => { m with net := { m.net with rx := [(0, { wireZero with src := 3 })] } }), 0, 0, { wireZero with src := 3 }, up.m, Lane.blank false, 0, rfl, rfl, rfl, by decide +kernel, rfl, by decide +kernel, rfl⟩,
    ⟨upM (fun m => { m with net := { m.net with rx := [(0, { wireZero with src := 3 })], lanes := [(6, { Lane.blank false with rxSeen := [0] })] } }), 0, 0, { wireZero with src := 3 }, (upM (fun m => { m with net := { m.net with rx := [], lanes := [(6, { Lane.blank false with rxSeen := [0] })] } })).m, { Lane.blank false with rxSeen := [0] }, 0, rfl, rfl, rfl, by decide +kernel, rfl, by decide +kernel, rfl, by decide +kernel⟩,
    ⟨upM (fun m => { m with net := { m.net with rx := [(0, { wireZero with src := 3, ftype := 1, ackPsn := 1 })], lanes := [(6, { Lane.blank false with unacked := [frameZero], nextPsn := 1 })] } }), 0, 0, { wireZero with src := 3, ftype := 1, ackPsn := 1 }, (upM (fun m => { m with net := { m.net with rx := [], lanes := [(6, { Lane.blank false with unacked := [frameZero], nextPsn := 1 })] } })).m, { Lane.blank false with unacked := [frameZero], nextPsn := 1 }, 1, rfl, rfl, rfl, rfl, rfl, by decide +kernel, rfl, by decide +kernel, by decide +kernel⟩,
    ⟨upM (fun m => { m with net := { m.net with lanes := [(6, { Lane.blank false with oldest := some 4 })] } }), 3, 0, 4, by decide +kernel⟩,
    ⟨upM (fun m => { m with net := { m.net with lanes := [(6, { Lane.blank false with unacked := [frameZero] })] } }), 3, 0, 0, 0, frameZero, by decide +kernel⟩,
    ⟨upM (fun m => { m with net := { m.net with lanes := [(6, Lane.blank false)] } }), 3, 0, 62500000, Lane.blank false, by decide +kernel⟩,
    ⟨inbox 3 0 (rxOf 0 0 0x0D) (up), 3, by (repeat' apply And.intro) <;> first | decide +kernel | exact ok_eq (by decide +kernel) | exact ok_okOf (by decide +kernel) | exact arrived_head (by decide +kernel) | rfl⟩,
    ⟨inbox 3 0 (rxOf 2 0 0x0C) (upP id), 0, 3, 2, quoteZero, false, by (repeat' apply And.intro) <;> first | decide +kernel | exact ok_eq (by decide +kernel) | exact ok_okOf (by decide +kernel) | exact arrived_head (by decide +kernel) | rfl⟩,
    ⟨inbox 3 0 (rxOf 2 0 0x0C) (upP (fun q => { q with sealed := true })), 0, 3, 2, { quoteZero with sealed := true, modelDigest := modelDigest (upP (fun q => { q with sealed := true })).m.pol[(0 : Fin 16)] }, rfl, arrived_head (by decide +kernel), by decide +kernel, quote_matches rfl rfl rfl rfl rfl rfl, by decide +kernel⟩,
    ⟨{ upP (fun q => { q with sealed := true, tks := [(50, { Tk.blank with live := true })] }) with m := { (upP (fun q => { q with sealed := true, tks := [(50, { Tk.blank with live := true })] })).m with front := { up.m.front with modId := some 1 } } }, 0, 3, 2, 82800000000000, by decide +kernel⟩,
    ⟨upP (fun q => { q with tks := [(50, { Tk.blank with live := true })] }), 0, 3, 2, 86400000000000, by decide +kernel⟩,
    ⟨upP id, 0, 3, 2, 86399999999999, by decide +kernel⟩,
    ⟨upP (fun q => { q with tks := [(50, { Tk.blank with prev := some 4 })] }), 0, 3, 2, 4, 4, by decide +kernel⟩⟩

/-- States and operands that meet the hypotheses of FreedHandlesAreRefused. -/
theorem test_meets_freedHandlesAreRefused :
    (∃ (p : Fin 16) (e : Block), fld e 16 24 4 ≠ p.val) ∧
    (∃ (m : Mod) (idx : Nat) (d : Desc), desc? m idx = some d) ∧
    (∃ (m : Mod) (idx : Nat) (d : Desc), ∃ j, desc? m idx = some d ∧ j ≠ idx) ∧
    (∃ (m : Mod) (e : Block) (d : Desc), let idx := fld e 16 0 24; desc? m idx = some d ∧ d.gen < 2 ^ 32 ∧ fld e 20 0 32 = d.gen ∧ m.refetch.contains idx = false ∧ m.dirGone.contains idx = false) ∧
    (∃ (m : Mod) (p : Fin 16) (e : Block) (d : Desc), desc? m (fld e 16 0 24) = some d ∧ fld e 16 24 4 = p.val ∧ m.refetch.contains (fld e 16 0 24) = false ∧ m.dirGone.contains (fld e 16 0 24) = false ∧ d.gen ≠ fld e 20 0 32 ∧ d.own ≠ .relinquished) ∧
    (∃ (s : State) (p : Fin 16) (tag : Nat) (t : Taken) (x : Instr × Nat), x ∈ [(.sessPark p tag, 0x11), (.sessFork p tag, 0x14), (.sessRetire p tag, 0x15), (.sessMove p tag, 0x13), (.sessHandoffOut p tag, 0x16), (.genSpecConf p tag, 0x23), (.ckptCommit p tag, 0x61)] ∧ Takes s p tag x.2 t ∧ resolve (begun s.m p tag) p t.entry = .error (rBad 16)) ∧
    (∃ (m m1 : Mod) (mk : Nat → Desc) (i : Nat), ∃ d, takeEntry m mk = some (i, m1) ∧ desc? m i = some d) ∧
    (∃ (m m1 : Mod) (mk : Nat → Desc) (i : Nat), ∃ j, takeEntry m mk = some (i, m1) ∧ j ≠ i) ∧
    (∃ (idx pol gen : Nat), idx < 2 ^ 24 ∧ pol < 16 ∧ gen < 2 ^ 32) :=
  ⟨⟨0, at8 16 16777216, by decide +kernel⟩,
    ⟨(held live 0 id).m, 5, live, by decide +kernel⟩,
    ⟨(held live 0 id).m, 5, live, 6, by decide +kernel⟩,
    ⟨(held live 0 id).m, at8 16 5 + at8 20 1, live, by decide +kernel⟩,
    ⟨(held live 0 id).m, 0, at8 16 5 + at8 20 2, live, by decide +kernel⟩,
    ⟨held live (0x11 + at8 16 5 + at8 20 2) id, 0, 7, takenFor (0x11 + at8 16 5 + at8 20 2), (.sessPark 0 7, 0x11), by simp, by unfold Takes; decide +kernel, error_eq (by decide +kernel)⟩,
    ⟨dirAt (Config.hint 0 % 16777216), _, fun _ => live, Config.hint 0 % 16777216, _, takeEntry_at, desc_at⟩,
    ⟨up.m, _, fun _ => live, _, Config.hint 0 % 16777216 + 1, takeEntry_none, by simp⟩,
    ⟨2 ^ 24 - 1, 15, 2 ^ 32 - 1, by decide +kernel⟩⟩

/-- States and operands that meet the hypotheses of SamplingStaysWithinTheRow. -/
theorem test_meets_samplingStaysWithinTheRow :
    (∃ (n vocab : Nat) (s : SampPage) (step : Option Nat) (hist : List Nat) (row : List F32) (d : Dist), ∃ e, distribution n vocab s step hist row = some d ∧ e ∈ d.kept) ∧
    (∃ (n vocab : Nat) (s : SampPage) (step : Option Nat) (hist : List Nat) (row : List F32) (d : Dist), distribution n vocab s step hist row = some d ∧ s.pr.topK ≠ 0) ∧
    (∃ (d : Dist), d.greedy = true) ∧
    (∃ (m m1 : Mod) (p : Fin 16) (d : Dist) (t : Nat), d.kept ≠ [] ∧ sample m p d = (some t, m1)) ∧
    (∃ (left : Nat), 1 ≤ left) ∧
    (∃ (eos : Nat) (stops : List (List Nat)) (left : Nat) (sofar : List Nat) (l : List (Nat × Nat × Bool)), ∃ x, 1 ≤ left ∧ x ∈ (cut eos stops left sofar l).dropLast) :=
  ⟨⟨0, 1, { sampPageNew with pr := { sampPageNew.pr with temp := 0#32, topK := 1024 } }, none, [], [0#32], someOf (distribution 0 1 { sampPageNew with pr := { sampPageNew.pr with temp := 0#32, topK := 1024 } } none [] [0#32]) ⟨[], [], true⟩, (0, f32One), some_someOf (by decide +kernel), by decide +kernel⟩,
    ⟨0, 1, { sampPageNew with pr := { sampPageNew.pr with temp := 0#32, topK := 1024 } }, none, [], [0#32], someOf (distribution 0 1 { sampPageNew with pr := { sampPageNew.pr with temp := 0#32, topK := 1024 } } none [] [0#32]) ⟨[], [], true⟩, some_someOf (by decide +kernel), by decide +kernel⟩,
    ⟨⟨[], [], true⟩, by decide +kernel⟩,
    ⟨up.m, up.m, 0, ⟨[], [(4, f32One)], true⟩, 4, by decide, rfl⟩,
    ⟨1, by decide +kernel⟩,
    ⟨9, [], 2, [], [(1, 0, false), (2, 1, true)], ⟨1, 0, false, false, none, none⟩, by decide +kernel⟩⟩

end Sys2Proof.Tests
end

/-! PROOFS. Session commands (O47): how a started command on a live session runs, what each session command does under the statement's hypotheses, and
what the transfers, forks and revivals do at the session's step boundary. -/

namespace Sys2Proof.Machine

-- What a session command of a module at work does: its meaning, then what follows every effect.

section
variable {s : State} (hw : s.m.working = true) (p : Fin 16)
include hw

theorem exec_sessOpen_working (tag : Nat) : exec (.sessOpen p tag) s = after s (sessOpen s.m p tag) := by
  show work s (fun _ m => sessOpen m p tag) = _
  exact work_on hw

theorem exec_sessPark_working (tag : Nat) : exec (.sessPark p tag) s = after s (sessPark s.m p tag) := by
  show work s (fun _ m => sessPark m p tag) = _
  exact work_on hw

theorem exec_sessRevive_working (tag : Nat) (hv : HostGen) : exec (.sessRevive p tag hv) s = after s (kick (sessRevive s.m p tag) p hv) := by
  show work s (fun _ m => kick (sessRevive m p tag) p hv) = _
  exact work_on hw

theorem exec_sessMove_working (tag : Nat) : exec (.sessMove p tag) s = after s (sessMove s.m p tag) := by
  show work s (fun _ m => sessMove m p tag) = _
  exact work_on hw

theorem exec_sessFork_working (tag : Nat) : exec (.sessFork p tag) s = after s (sessFork s.m p tag) := by
  show work s (fun _ m => sessFork m p tag) = _
  exact work_on hw

theorem exec_sessRetire_working (tag : Nat) : exec (.sessRetire p tag) s = after s (sessRetire s.m p tag) := by
  show work s (fun _ m => sessRetire m p tag) = _
  exact work_on hw

theorem exec_sessHandoffOut_working (tag : Nat) : exec (.sessHandoffOut p tag) s = after s (sessHandoffOut s.m p tag) := by
  show work s (fun _ m => sessHandoffOut m p tag) = _
  exact work_on hw

theorem exec_sessHandoffIn_working (tag : Nat) (hv : HostGen) : exec (.sessHandoffIn p tag hv) s = after s (kick (sessHandoffIn s.m p tag) p hv) := by
  show work s (fun _ m => kick (sessHandoffIn m p tag) p hv) = _
  exact work_on hw

theorem exec_sessQuery_working (tag : Nat) : exec (.sessQuery p tag) s = after s (sessQuery s.m p tag) := by
  show work s (fun _ m => sessQuery m p tag) = _
  exact work_on hw

theorem exec_revivalResume_working (idx : Nat) : exec (.revivalResume p idx) s = after s (restoreStream (revivalResume s.m p idx) p idx) := by
  show work s (fun _ m => restoreStream (revivalResume m p idx) p idx) = _
  exact work_on hw

end

-- How a row reaches its session.

/-- A command whose handle names a live session acts on it, with its descriptor read through the cache (R97, R98, R106). -/
theorem onSession_live {m : Mod} {p : Fin 16} {t : Taken} {f : Mod → Nat → Desc → Mod} {idx : Nat} {d : Desc}
    (hl : liveSession m p t.entry = .ok (idx, d)) : onSession m p t f = f (cacheUse m p idx) idx d := by
  simp only [onSession, hl]

/-- The row of a command that may start, on a live session. -/
theorem ringRow_onSession_live {s : State} {p : Fin 16} {tag op : Nat} {t : Taken} {f : Taken → Mod → Nat → Desc → Mod} {idx : Nat} {d : Desc}
    (h : Takes s p tag op t) (hl : liveSession (begun s.m p tag) p t.entry = .ok (idx, d)) :
    ringRow s.m p tag op (fun t m => onSession m p t (f t)) = f t (cacheUse (begun s.m p tag) p idx) idx d := by
  rw [takes_runs h, onSession_live hl]

-- What journaling a descriptor and loading an adopted session leave.

/-- A record queued for the buddy leaves every polder. -/
@[simp] theorem queueRec_pol (m : Mod) (idx : Nat) (r : JRec) : (queueRec m idx r).pol = m.pol := by
  unfold queueRec
  split <;> rfl

/-- A journaled descriptor leaves every polder. -/
@[simp] theorem journalDesc_pol (m : Mod) (idx : Nat) : (journalDesc m idx).pol = m.pol := by
  unfold journalDesc
  split
  · rfl
  · exact queueRec_pol _ _ _

/-- A changed descriptor leaves every polder. -/
@[simp] theorem changeDesc_pol (m : Mod) (idx : Nat) (f : Desc → Desc) : (changeDesc m idx f).pol = m.pol := journalDesc_pol _ _

/-- A session that no takeover has left to load needs no load (R114). -/
theorem adoptLoad_none {m : Mod} {p : Fin 16} {idx : Nat} (h : adoptedLoad m.pol[p] idx = none) : adoptLoad m p idx = m := by
  simp only [adoptLoad, h]

-- What an action does at the step boundary (R31).

theorem atBoundary_now {m : Mod} {p : Fin 16} {idx : Nat} (h : stepInFlight m.pol[p] idx = false) (tag : Nat) (w : Boundary) (f : Mod → Mod) :
    atBoundary m p idx tag w f = f m := by
  simp only [atBoundary, h, Bool.false_eq_true, if_false]

theorem atBoundary_waits {m : Mod} {p : Fin 16} {idx : Nat} (h : stepInFlight m.pol[p] idx = true) (tag : Nat) (w : Boundary) (f : Mod → Mod) :
    atBoundary m p idx tag w f = modPol m p (fun q => { q with waits := q.waits ++ [⟨tag, idx, w⟩] }) := by
  simp only [atBoundary, h, if_true]

theorem retireAt_now {m : Mod} {p : Fin 16} {idx : Nat} (h : stepInFlight m.pol[p] idx = false) (tag : Nat) :
    retireAt m p idx tag = retireNow m p idx tag := by
  simp only [retireAt, h, Bool.false_eq_true, if_false]

/-- A fork with room in the family, the directory share and the polder's tables (R99, R218). -/
theorem forkNow_room {m : Mod} {p : Fin 16} {idx tag : Nat} {d rd : Desc} {ss : Sess} {sl : Slot} (hd : desc? m idx = some d)
    (hs : m.pol[p].sess.get idx = some ss) (hr : desc? m (famRoot d idx) = some rd) (hpos : 0 < rd.famRefs) (hmax : rd.famRefs < 65535)
    (hroom : liveEntries m p.val < dirShare m) (hlost : anyLost m p (forkReads m.pol[p] idx ss) = false) (hsl : m.pol[p].slots.get d.slot = some sl) :
    forkNow m p idx tag = (
      match takeEntry m (fun i => { d with
        sid := selfId m * 2 ^ 52 + m.sidNext % 2 ^ 52, epoch := 1, pend := 0, fam := famRoot d idx, famRefs := 0, ckptRef := 0
        own := .owned, jdirty := false, root := i }) with
      | none => complete m p tag (rQuota 3)
      | some (ci, m1) =>
        match forkPages m1 p ci d ss sl.man.main with
        | .error tier => quotaEnd (if tier == errWait then m else freeEntry { m1 with pol := m.pol } ci) p tag tier
        | .ok m2 => forkEnd (toeReads m2 p (forkReads m.pol[p] idx ss)) p idx ci tag d ss (famRoot d idx) rd.famRefs) := by
  have hrefs : (rd.famRefs == 0) = false := beq_eq_false_iff_ne.mpr (Nat.ne_of_gt hpos)
  have hfam : ¬ 65535 < rd.famRefs + 1 := by omega
  simp only [forkNow, hd, hs, hr, hrefs, hfam, Nat.not_le.mpr hroom, hlost, hsl, Bool.false_eq_true, if_false] <;> rfl

/-- A move to a polder of this module that holds the model and has room for the entry (R101). -/
theorem moveLocal_room {m : Mod} {p : Fin 16} {idx tag dst slot : Nat} {d : Desc} {ss : Sess} (hd : desc? m idx = some d)
    (hs : m.pol[p].sess.get idx = some ss)
    (hslot : slotByDigest m.pol[pn dst] (((m.pol[p].slots.get d.slot).map (fun x => x.man.main.digest)).getD 0) = some slot)
    (hroom : liveEntries m (pn dst).val < dirShare m) :
    moveLocal m p idx tag dst = (
      match takeEntry m (fun i => { d with
        pol := (pn dst).val, slot := slot, epoch := d.epoch + 1, fam := i, famRefs := 0, sealed := m.pol[pn dst].sealed }) with
      | none => complete m p tag (rQuota 3)
      | some (ni, m1) =>
        match movePages m1 p (pn dst) ni slot d ss with
        | .error tier => quotaEnd (if tier == errWait then m else freeEntry { m1 with pol := m.pol } ni) p tag tier
        | .ok m2 => moveEnd (toeReads m2 p (allPages m.pol[p] idx)) p idx ni tag (pn dst) d) := by
  simp only [moveLocal, hd, hs, hslot, Nat.not_le.mpr hroom, if_false] <;> rfl

/-- A revival of a session that has nothing to load: ACTIVE, its demotions cancelled, its pages streamed (R64, R213). -/
theorem reviveNow_loaded {m : Mod} {p : Fin 16} {idx : Nat} (h : adoptedLoad m.pol[p] idx = none) (tag : Nat) (d : Desc) :
    reviveNow m p idx tag d = (
      let m1 := changeDesc m idx (fun d => { d with life := .active })
      let m2 := (sessPages m1.pol[p] idx).foldl (fun m n => cancelDemotion m p n) m1
      let m3 := modSess m2 p idx (fun s => { s with reviving := true })
      let m4 := if d.sparse then coarseHome m3 p idx true else m3
      complete (pump m4 p idx) p tag (rSess (handleOf idx p.val d.gen) d.epoch
        ((inToe m2.pol[p] (streamOrder m2.pol[p] idx)).length + ((adoptedLoad m2.pol[p] idx).map (fun r => r.left.length)).getD 0))) := by
  have hload : adoptLoad (changeDesc m idx (fun d => { d with life := .active })) p idx = changeDesc m idx (fun d => { d with life := .active }) :=
    adoptLoad_none (by rw [changeDesc_pol]; exact h)
  simp only [reviveNow, hload]

/-- A paused revival goes on where it stopped (R64). -/
theorem revivalResume_paused {m : Mod} {p : Fin 16} {idx : Nat} {ss : Sess} (hs : m.pol[p].sess.get idx = some ss) (hr : ss.reviving = true)
    (hp : ss.revPaused = true) (h : adoptedLoad m.pol[p] idx = none) : revivalResume m p idx = pump m p idx := by
  simp only [revivalResume, adoptLoad_none h, hs, hr, hp, Bool.and_self, if_true]

-- What each command does when it starts.

section
variable {s : State} {p : Fin 16} {tag : Nat} {t : Taken} {idx : Nat} {d : Desc}

/-- SESS_OPEN with class, mode, slot and limit in order and room in the directory share (R96). -/
theorem sessOpen_room {sl : Slot} (h : Takes s p tag 0x10 t)
    (hc : openCheck (begun s.m p tag) p (clsOf (flg t.entry 28 0)) (flg t.entry 28 1) (fld t.entry 29 0 8) = .ok sl)
    (hctx : (if fld t.entry 32 0 32 == 0 then modeMax (flg t.entry 28 1) else fld t.entry 32 0 32) ≤ modeMax (flg t.entry 28 1))
    (hroom : liveEntries (begun s.m p tag) p.val < dirShare (begun s.m p tag)) :
    sessOpen s.m p tag = (
      match takeEntry (begun s.m p tag) (newDesc (begun s.m p tag) p (clsOf (flg t.entry 28 0)) (flg t.entry 28 1) (fld t.entry 29 0 8)
        (if fld t.entry 32 0 32 == 0 then modeMax (flg t.entry 28 1) else fld t.entry 32 0 32) t.job) with
      | none => complete (begun s.m p tag) p tag (rQuota 3)
      | some (idx, m1) =>
        match mapSession m1 p idx (clsOf (flg t.entry 28 0)) (flg t.entry 28 1) sl.man.main
          (if fld t.entry 32 0 32 == 0 then modeMax (flg t.entry 28 1) else fld t.entry 32 0 32) with
        | .error tier =>
          quotaEnd (if tier == errWait then begun s.m p tag else freeEntry { m1 with pol := (begun s.m p tag).pol } idx) p tag tier
        | .ok (ss, m2) => openEnd m2 p idx tag (flg t.entry 28 1) ss) := by
  rw [sessOpen, takes_runs h]
  simp only [sessOpenGo, takes_tag h, hc, Nat.not_lt.mpr hctx, Nat.not_le.mpr hroom, if_false] <;> rfl

/-- SESS_QUERY by SESSION_ID, without an address for the descriptor (R95, R106). -/
theorem sessQuery_bySid (h : Takes s p tag 0x18 t) (hsid : flg t.entry 28 0 = true) (haddr : fld t.entry 32 0 64 = 0)
    (hl : lookupSid (begun s.m p tag) p (fld t.entry 16 0 64) = .ok (some (idx, d))) :
    sessQuery s.m p tag = complete (cacheUse (begun s.m p tag) p idx) p tag (queryRes p idx d) := by
  rw [sessQuery, takes_runs h]
  simp [hsid, hl, haddr]

/-- SESS_QUERY by handle, with an address for the descriptor (R95, R106). -/
theorem sessQuery_byHandle (h : Takes s p tag 0x18 t) (hsid : flg t.entry 28 0 = false) (haddr : fld t.entry 32 0 64 ≠ 0)
    (hpol : fld t.entry 16 24 4 = p.val) (hre : (begun s.m p tag).refetch.contains (fld t.entry 16 0 24) = false)
    (hgone : (begun s.m p tag).dirGone.contains (fld t.entry 16 0 24) = false) (hd : desc? (begun s.m p tag) (fld t.entry 16 0 24) = some d)
    (hown : d.own ≠ .none) (hdp : d.pol = p.val) (hgen : d.gen = fld t.entry 20 0 32) :
    sessQuery s.m p tag = complete (hostOut (cacheUse (begun s.m p tag) p (fld t.entry 16 0 24)) p (fld t.entry 32 0 64) 64 (descBytes d)) p tag
      (queryRes p (fld t.entry 16 0 24) d) := by
  have hvalid : (d.own == .none || d.pol != p.val || (d.gen != fld t.entry 20 0 32 && d.own != .relinquished)) = false := by
    simp [hown, hdp, hgen]
  rw [sessQuery, takes_runs h]
  simp only [hsid, hpol, hre, hgone, hd, hvalid, haddr, bne_self_eq_false, beq_iff_eq, Bool.false_eq_true, if_false]

/-- SESS_PARK of a session that is not parked (R97). -/
theorem sessPark_live (h : Takes s p tag 0x11 t) (hl : liveSession (begun s.m p tag) p t.entry = .ok (idx, d)) (hd : d.life ≠ .parked) :
    sessPark s.m p tag = atBoundary (setJob (cacheUse (begun s.m p tag) p idx) idx t.job) p idx tag .park (fun m => parkNow m p idx tag) := by
  rw [sessPark, ringRow_onSession_live h hl]
  simp [hd]

/-- SESS_REVIVE of a parked session whose root is not lost, with the polder's pump in service (R64). -/
theorem sessRevive_live (h : Takes s p tag 0x12 t) (hl : liveSession (begun s.m p tag) p t.entry = .ok (idx, d)) (hd : d.life ≠ .active)
    (hroot : rootLost (cacheUse (begun s.m p tag) p idx).pol[p] idx = false) (hpump : pumpFenced (cacheUse (begun s.m p tag) p idx) p = false) :
    sessRevive s.m p tag = reviveNow (setJob (cacheUse (begun s.m p tag) p idx) idx t.job) p idx tag d := by
  rw [sessRevive, ringRow_onSession_live h hl]
  simp only [beq_iff_eq, hd, hroot, hpump, Bool.false_and, Bool.false_eq_true, if_false]

/-- SESS_RETIRE of a live session with no step in flight (R97, Table 03-7). -/
theorem sessRetire_live (h : Takes s p tag 0x15 t) (hr : resolve (begun s.m p tag) p t.entry = .ok (idx, d)) (hbusy : busyOwn d = false)
    (himp : d.own ≠ .importing) (hd : d.life = .active ∨ d.life = .parked)
    (hstep : stepInFlight (setJob (cacheUse (begun s.m p tag) p idx) idx t.job).pol[p] idx = false) :
    sessRetire s.m p tag = retireNow (setJob (cacheUse (begun s.m p tag) p idx) idx t.job) p idx tag := by
  have hlive : (d.life != .active && d.life != .parked) = false := by
    rcases hd with hd | hd <;> simp [hd]
  rw [sessRetire, takes_runs h]
  simp only [hr, beq_iff_eq, himp, hbusy, hlive, retireAt_now hstep, Bool.false_eq_true, if_false]

/-- SESS_FORK of a live session (R99). -/
theorem sessFork_live (h : Takes s p tag 0x14 t) (hl : liveSession (begun s.m p tag) p t.entry = .ok (idx, d)) :
    sessFork s.m p tag = atBoundary (setJob (cacheUse (begun s.m p tag) p idx) idx t.job) p idx tag .fork (fun m => forkNow m p idx tag) := by
  rw [sessFork, ringRow_onSession_live h hl]

/-- SESS_MOVE that nothing refuses when it is submitted (R101). -/
theorem sessMove_live (h : Takes s p tag 0x13 t) (hl : liveSession (begun s.m p tag) p t.entry = .ok (idx, d))
    (hbad : moveBad (cacheUse (begun s.m p tag) p idx) p d (destMod t.entry) (destPol t.entry) = none) :
    sessMove s.m p tag = atBoundary (setJob (cacheUse (begun s.m p tag) p idx) idx t.job) p idx tag .move (fun m => moveNow m p idx tag t.entry) := by
  rw [sessMove, ringRow_onSession_live h hl]
  simp only [hbad]

/-- SESS_HANDOFF_OUT that nothing refuses when it is submitted (R103). -/
theorem sessHandoffOut_live (h : Takes s p tag 0x16 t) (hl : liveSession (begun s.m p tag) p t.entry = .ok (idx, d))
    (hbad : handoffBad (cacheUse (begun s.m p tag) p idx) p d (destMod t.entry) (destPol t.entry) = none) :
    sessHandoffOut s.m p tag = atBoundary (setJob (cacheUse (begun s.m p tag) p idx) idx t.job) p idx tag .handoff
      (fun m => handoffOutNow m p idx tag t.entry) := by
  rw [sessHandoffOut, ringRow_onSession_live h hl]
  simp only [hbad]

/-- SESS_HANDOFF_IN before its OFFER waits until its window would close (R107). -/
theorem sessHandoffIn_waits (h : Takes s p tag 0x17 t) (him : importOf (begun s.m p tag).pol[p] (fld t.entry 16 0 64) = none)
    (hok : importRefusal (begun s.m p tag) p (fld t.entry 16 0 64) = none) :
    sessHandoffIn s.m p tag = modPol (begun s.m p tag) p (fun q => { q with
      inWaits := q.inWaits ++ [⟨tag, fld t.entry 16 0 64, fld t.entry 24 0 32,
        q.clk + msNs ((begun s.m p tag).own.leaseMs - (begun s.m p tag).own.guardMs), false, []⟩] }) := by
  rw [sessHandoffIn, takes_runs h]
  simp only [him, hok]

/-- SESS_HANDOFF_IN after its OFFER binds the import of its transfer (R107). -/
theorem sessHandoffIn_binds {im : Import} (h : Takes s p tag 0x17 t) (him : importOf (begun s.m p tag).pol[p] (fld t.entry 16 0 64) = some im)
    (hh : im.h = fld t.entry 24 0 32) : sessHandoffIn s.m p tag = bindIn (begun s.m p tag) p t im := by
  rw [sessHandoffIn, takes_runs h]
  simp only [him, hh, beq_self_eq_true, if_true]

end

/-- Settles O47: each started command by the lemma of its row, each action by the lemma of its step boundary. -/
theorem sessionCommands : Obligations.SessionCommands := by
  unfold Obligations.SessionCommands
  refine ⟨fun s p tag t => ⟨?open_, ?bySid, ?byHandle, ?park, ?revive, ?retire, ?resume, ?fork, ?move, ?handoffOut, ?handoffWaits, ?handoffBinds⟩,
    fun m p idx tag => ⟨?now, ?waits, ?forkNow, ?moveLocal, ?reviveNow, ?handoffNow⟩⟩
  case open_ =>
    intro sl h hc hctx hroom
    exact (exec_sessOpen_working h.1 p tag).trans (congrArg (after s) (sessOpen_room h hc hctx hroom))
  case bySid =>
    intro idx d h hsid haddr hl
    rw [exec_sessQuery_working h.1, sessQuery_bySid h hsid haddr hl]
  case byHandle =>
    intro d h hsid haddr hpol hre hgone hd hown hdp hgen
    rw [exec_sessQuery_working h.1, sessQuery_byHandle h hsid haddr hpol hre hgone hd hown hdp hgen]
  case park =>
    intro idx d h hl hd
    rw [exec_sessPark_working h.1, sessPark_live h hl hd]
  case revive =>
    intro idx d hv h hl hd hroot hpump
    rw [exec_sessRevive_working h.1, sessRevive_live h hl hd hroot hpump]
  case retire =>
    intro idx d h hr hbusy himp hd hstep
    rw [exec_sessRetire_working h.1, sessRetire_live h hr hbusy himp hd hstep]
  case resume =>
    intro idx ss hw hs hr hp hload
    rw [exec_revivalResume_working hw, revivalResume_paused hs hr hp hload]
  case fork =>
    intro idx d h hl
    rw [exec_sessFork_working h.1, sessFork_live h hl]
  case move =>
    intro idx d h hl hbad
    rw [exec_sessMove_working h.1, sessMove_live h hl hbad]
  case handoffOut =>
    intro idx d h hl hbad
    rw [exec_sessHandoffOut_working h.1, sessHandoffOut_live h hl hbad]
  case handoffWaits =>
    intro hv h him hok
    rw [exec_sessHandoffIn_working h.1, sessHandoffIn_waits h him hok]
  case handoffBinds =>
    intro hv im h him hh
    rw [exec_sessHandoffIn_working h.1, sessHandoffIn_binds h him hh]
  case now => exact fun w f hstep => atBoundary_now hstep tag w f
  case waits => exact fun w f hstep => atBoundary_waits hstep tag w f
  case forkNow =>
    intro d ss sl rd hd hs hr hpos hmax hroom hlost hsl
    exact forkNow_room hd hs hr hpos hmax hroom hlost hsl
  case moveLocal =>
    intro dst d ss slot hd hs hslot hroom
    exact moveLocal_room hd hs hslot hroom
  case reviveNow => exact fun d hload => reviveNow_loaded hload tag d
  case handoffNow => exact fun dm dp mv => rfl

end Sys2Proof.Machine

/-! PROOFS. Heat, copies and failed reads (O52): what a heat epoch, the end of a copy and a Crest read that fails do, case by case. -/

namespace Sys2Proof.Machine

-- What an event row of the tiers does in a module at work: its meaning, then what follows every effect.

section
variable {s : State} (hw : s.m.working = true) (p : Fin 16)
include hw

theorem exec_heatEpoch_working (t : Nat) : exec (.heatEpoch p t) s = after s (heatEpoch s.m p t) :=
  work_on (f := fun _ m => heatEpoch m p t) hw

theorem exec_migrationCommit_working (n : Nat) (hv : HostGen) : exec (.migrationCommit p n hv) s = after s (migrationCommit s.m p n hv) :=
  work_on (f := fun _ m => migrationCommit m p n hv) hw

theorem exec_tierReadFail_working (n tries : Nat) (again stripe : Bool) :
    exec (.tierReadFail p n tries again stripe) s = after s (kick (readFail s.m p n tries again stripe) p ⟨[], []⟩) :=
  work_on (f := fun _ m => tierReadFail m p n tries again stripe) hw

end

-- Heat epochs (R45).

/-- The polder counter takes the greater of its value and the reading, and the polder changes in nothing else (R11). -/
@[simp] theorem tickPol_pol_same (m : Mod) (p : Fin 16) (t : Nat) :
    (tickPol m p t).pol[p.val] = { m.pol[p.val] with clk := max m.pol[p.val].clk t } := by
  simp [tickPol]

/-- A heat epoch that has not passed only takes the counter's reading. -/
theorem heatEpoch_early {m : Mod} {p : Fin 16} {t : Nat} (h : max m.pol[p].clk t < m.pol[p].nextHeat) : heatEpoch m p t = tickPol m p t := by
  have hwait : (decide ((tickPol m p t).pol[p].clk < (tickPol m p t).pol[p].nextHeat) || !(tickPol m p t).pol[p].composed) = true := by
    simpa using Or.inl h
  simp only [heatEpoch, hwait, if_true]

/-- Heat epochs that have passed cool every page of a composed polder, and cool pages move down. -/
theorem heatEpoch_due {m : Mod} {p : Fin 16} {t : Nat} (hc : m.pol[p].composed = true) (h : m.pol[p].nextHeat ≤ max m.pol[p].clk t) :
    heatEpoch m p t = (
      let m := tickPol m p t
      let per := max 1 (m.pol[p].heatMs * 1000000)
      let k := (m.pol[p].clk - m.pol[p].nextHeat) / per + 1
      spill (coolTier (coolTier (modPol m p (fun q => { q with
        nextHeat := q.nextHeat + k * per, pages := q.pages.mapKV (fun _ pg => coolPage k pg) })) p .crest) p .berm) p) := by
  have hgo : (decide ((tickPol m p t).pol[p].clk < (tickPol m p t).pol[p].nextHeat) || !(tickPol m p t).pol[p].composed) = false := by
    simp only [Fin.getElem_fin, tickPol_pol_same, Bool.or_eq_false_iff, decide_eq_false_iff_not, Bool.not_eq_false']
    exact ⟨Nat.not_lt.mpr h, hc⟩
  simp only [heatEpoch, hgo, Bool.false_eq_true, if_false]

theorem coolPage_one_heat (pg : Page) : (coolPage 1 pg).heat = pg.heat / 2 := Nat.shiftRight_eq_div_pow pg.heat 1

/-- One epoch counts in COOL exactly where HEAT has come to 0, that is from a HEAT of 0 or 1. -/
theorem coolPage_one_cool (pg : Page) : (coolPage 1 pg).cool = min (pg.cool + if pg.heat ≤ 1 then 1 else 0) 65535 := by
  have hbits : 1 + 1 - max (if pg.heat == 0 then 0 else Nat.log2 pg.heat + 1) 1 = if pg.heat ≤ 1 then 1 else 0 := by
    by_cases hcold : pg.heat ≤ 1
    · obtain hz | hone : pg.heat = 0 ∨ pg.heat = 1 := by omega
      · simp [hz]
      · simp [hone, Nat.log2_def]
    · have hne : pg.heat ≠ 0 := by omega
      have hlog : 1 ≤ Nat.log2 pg.heat := (Nat.le_log2 hne).mpr (by omega)
      simp only [beq_iff_eq, hne, hcold, if_false]
      omega
  simp only [coolPage, hbits]

theorem coolPage_keeps (k : Nat) (pg : Page) : { coolPage k pg with heat := pg.heat, cool := pg.cool } = pg := rfl

-- The end of a copy (R51, R53, R54).

section
variable {m : Mod} {p : Fin 16} {n : Nat} {pg : Page}

/-- A copy whose destination is not written yet waits (R72). -/
theorem migrationCommit_unwritten (hg : getPage m p n = some pg) (hd : destWritten m pg = false) (hv : HostGen) : migrationCommit m p n hv = m := by
  simp only [migrationCommit, hg, hd, Bool.not_false, Bool.or_true, if_true]

/-- A copy whose destination is written is abandoned on a changed WGEN and ends otherwise. -/
theorem migrationCommit_written (hg : getPage m p n = some pg) (hst : pg.st = .promoting ∨ pg.st = .demoting) (hd : destWritten m pg = true)
    (hv : HostGen) :
    migrationCommit m p n hv = spill (kick (memRetry (streamOn (
      if pg.wgen != pg.sample then
        pinc (modPage (dropFrame m pg.oTier pg.other) p n (fun g => { g with
          st := .resident, oTier := .none, other := 0, pre := [], forPage := none })) p Ctr.migAbandon 1
      else copyEnds m p n pg) p) p) p hv) p := by
  have hgo : ((pg.st != .promoting && pg.st != .demoting) || !destWritten m pg) = false := by
    rcases hst with hst | hst <;> simp [hst, hd]
  simp only [migrationCommit, hg, hgo, Bool.false_eq_true, if_false]

theorem migrationCommit_abandons (hg : getPage m p n = some pg) (hst : pg.st = .promoting ∨ pg.st = .demoting) (hd : destWritten m pg = true)
    (hgen : pg.wgen ≠ pg.sample) (hv : HostGen) :
    migrationCommit m p n hv = spill (kick (memRetry (streamOn (pinc (modPage (dropFrame m pg.oTier pg.other) p n
      (fun g => { g with st := .resident, oTier := .none, other := 0, pre := [], forPage := none })) p Ctr.migAbandon 1) p) p) p hv) p := by
  simp only [migrationCommit_written hg hst hd, bne_iff_ne.mpr hgen, if_true]

theorem migrationCommit_ends (hg : getPage m p n = some pg) (hst : pg.st = .promoting ∨ pg.st = .demoting) (hd : destWritten m pg = true)
    (hgen : pg.wgen = pg.sample) (hv : HostGen) :
    migrationCommit m p n hv = spill (kick (memRetry (streamOn (copyEnds m p n pg) p) p) p hv) p := by
  simp only [migrationCommit_written hg hst hd, hgen, bne_self_eq_false, Bool.false_eq_true, if_false]

/-- A demotion from Crest to Berm releases the Crest frame, and the Berm page is under the current key (R51, R363). -/
theorem copyEnds_demotes (hst : pg.st = .demoting) (htier : pg.tier = .crest) (hdest : pg.oTier = .berm) (hfor : pg.forPage = none) :
    copyEnds m p n pg = pinc (modPage (dropFrame m pg.tier pg.frame) p n (fun g => { g with
      st := .resident, tier := pg.oTier, frame := pg.other, keyEpoch := m.pol[p].keyEpoch, oTier := .none, other := 0, oEpoch := 0
      dirty := g.dirty, pre := [], forPage := none })) p (Ctr.migDemote (pairNo pg.tier pg.oTier)) 1 := by
  simp [copyEnds, hst, htier, hdest, hfor]

-- A read that fails (R66).

/-- The clean copy becomes the page, and its move down is counted (R44, log entry 31). -/
theorem swing_page (hg : getPage m p n = some pg) :
    swing m p n = pinc (modPage (dropFrame m pg.tier pg.frame) p n (fun g => { g with
      tier := g.oTier, frame := g.other, keyEpoch := g.oEpoch, oTier := .none, other := 0, dirty := false })) p
      (Ctr.migDemote (pairNo pg.tier pg.oTier)) 1 := by
  simp only [swing, hg]

/-- A Crest read that fails is not read again: the clean copy below takes the page's place, and without one the page is gone. -/
theorem readFail_crest (hg : getPage m p n = some pg) (hst : pg.st = .resident) (htier : pg.tier = .crest) (tries : Nat) (again stripe : Bool) :
    readFail m p n tries again stripe =
      if pg.oTier != .none && decide (tierNo pg.tier < tierNo pg.oTier) then pinc (swing m p n) p Ctr.cleanRecover 1 else pageGone m p n := by
  simp [readFail, hg, hst, htier]

theorem readFail_crest_recovers (hg : getPage m p n = some pg) (hst : pg.st = .resident) (htier : pg.tier = .crest) (hcopy : pg.oTier ≠ .none)
    (hbelow : tierNo pg.tier < tierNo pg.oTier) (tries : Nat) (again stripe : Bool) :
    readFail m p n tries again stripe = pinc (pinc (modPage (dropFrame m pg.tier pg.frame) p n (fun g => { g with
      tier := g.oTier, frame := g.other, keyEpoch := g.oEpoch, oTier := .none, other := 0, dirty := false })) p
      (Ctr.migDemote (pairNo pg.tier pg.oTier)) 1) p Ctr.cleanRecover 1 := by
  have hclean : (pg.oTier != .none && decide (tierNo pg.tier < tierNo pg.oTier)) = true := by simp [hcopy, hbelow]
  rw [readFail_crest hg hst htier, if_pos hclean, swing_page hg]

theorem readFail_crest_loses (hg : getPage m p n = some pg) (hst : pg.st = .resident) (htier : pg.tier = .crest) (hcopy : pg.oTier = .none)
    (tries : Nat) (again stripe : Bool) : readFail m p n tries again stripe = pageGone m p n := by
  have hnone : ¬ (pg.oTier != .none && decide (tierNo pg.tier < tierNo pg.oTier)) = true := by simp [hcopy]
  rw [readFail_crest hg hst htier, if_neg hnone]

end

/-- Settles O52: each row of the tiers at work, then the lemma of the case its hypotheses name. -/
theorem tierEvents : Obligations.TierEvents := by
  unfold Obligations.TierEvents
  refine fun s p hw => ⟨?epochDue, ?epochEarly, ?onePage, ?abandoned, ?demoted, ?copied, ?unwritten, ?recovered, ?lost⟩
  case epochDue =>
    intro t hc h
    rw [exec_heatEpoch_working hw, heatEpoch_due hc h]
  case epochEarly =>
    intro t h
    rw [exec_heatEpoch_working hw, heatEpoch_early h]
  case onePage => exact fun pg _ => ⟨coolPage_one_heat pg, coolPage_one_cool pg, coolPage_keeps 1 pg⟩
  case abandoned =>
    intro n hv pg hg hst hd hgen
    rw [exec_migrationCommit_working hw, migrationCommit_abandons hg hst hd hgen]
  case demoted =>
    intro n hv pg hg hst hd hgen htier hdest hfor
    rw [exec_migrationCommit_working hw, migrationCommit_ends hg (.inr hst) hd hgen, copyEnds_demotes hst htier hdest hfor]
  case copied =>
    intro n hv pg hg hst hd hgen
    rw [exec_migrationCommit_working hw, migrationCommit_ends hg hst hd hgen]
  case unwritten =>
    intro n hv pg hg hd
    rw [exec_migrationCommit_working hw, migrationCommit_unwritten hg hd]
  case recovered =>
    intro n tries again pg hg hst htier hcopy hbelow
    rw [exec_tierReadFail_working hw, readFail_crest_recovers hg hst htier hcopy hbelow]
  case lost =>
    intro n tries again pg hg hst htier hcopy
    rw [exec_tierReadFail_working hw, readFail_crest_loses hg hst htier hcopy]

end Sys2Proof.Machine

/-! PROOFS. Flash (O53): stripe rows, acknowledgements, retired blocks, relocation, collection, rebuild and the key sweep, case by case. -/

namespace Sys2Proof.Machine

-- What an event row of the flash does in a module at work: its meaning, then what follows every effect.

section
variable {s : State} (hw : s.m.working = true)
include hw

theorem exec_stripeRowClose_working (row t : Nat) : exec (.stripeRowClose row t) s = after s (stripeRowClose s.m row t) :=
  work_on (f := fun _ m => stripeRowClose m row t) hw

theorem exec_toeWriteAck_working (u blk : Nat) : exec (.toeWriteAck u blk) s = after s (toeAcked s.m u blk) :=
  work_on (f := fun _ m => toeAcked m u blk) hw

theorem exec_programFailure_working (u blk : Nat) : exec (.programFailure u blk) s = after s (programFailure s.m u blk) :=
  work_on (f := fun _ m => programFailure m u blk) hw

theorem exec_eraseFailure_working (ch blk : Nat) : exec (.eraseFailure ch blk) s = after s (eraseFailure s.m ch blk) :=
  work_on (f := fun _ m => eraseFailure m ch blk) hw

theorem exec_retentionRelocate_working (ch blk dst t : Nat) :
    exec (.retentionRelocate ch blk dst t) s = after s (retentionRelocate s.m ch blk dst t) :=
  work_on (f := fun _ m => retentionRelocate m ch blk dst t) hw

theorem exec_garbageCollection_working (ch blk dst lvl : Nat) (verify : Bool) :
    exec (.garbageCollection ch blk dst lvl verify) s = after s (garbageCollection s.m ch blk dst lvl verify) :=
  work_on (f := fun _ m => garbageCollection m ch blk dst lvl verify) hw

theorem exec_rebuildComplete_working (p : Fin 16) (ch : Nat) : exec (.rebuildComplete p ch) s = after s (rebuildComplete s.m p ch) :=
  work_on (f := fun _ m => rebuildComplete m p ch) hw

theorem exec_keySweep_working (p : Fin 16) (n : Nat) : exec (.keySweep p n) s = after s (keySweep s.m p n) :=
  work_on (f := fun _ m => keySweep m p n) hw

end

section
variable {m : Mod}

-- Stripe rows and acknowledgements (R71, R72).

/-- A row closes with its parity on the next channel in turn; fewer than 31 data units make it a short one. -/
theorem closeRow_parity {r : StripeRow} {c : Nat} (hpar : parityChan m (rowChans m.ftl r) = some c) :
    closeRow m r = (
      let m1 := { m with ftl := { m.ftl with
        rr := c + 1, rows := updWhere m.ftl.rows (fun x => x.id == r.id) (fun x => { x with closed := true, parity := some c }) } }
      if r.units.length < 31 then minc m1 Ctr.shortRows 1 else m1) := by
  simp only [closeRow, hpar]

/-- An open row closes 10 ms after its first unit entered. -/
theorem stripeRowClose_due {row t : Nat} {r : StripeRow} (hrow : m.ftl.rows.find? (fun r => r.id == row) = some r) (hopen : r.closed = false)
    (hunits : r.units ≠ []) (hdue : r.start + 10000000 ≤ max m.hvl t) : stripeRowClose m row t = closeRow (tickHvl m t) r := by
  have hgo : (r.closed || r.units.isEmpty || decide ((tickHvl m t).hvl < r.start + 10000000)) = false := by
    have hpassed : decide ((tickHvl m t).hvl < r.start + 10000000) = false := decide_eq_false (Nat.not_lt.mpr hdue)
    simp only [hopen, List.isEmpty_eq_false_iff.mpr hunits, hpassed, Bool.or_self]
  simp only [stripeRowClose, tickHvl_ftl, hrow, hgo, Bool.false_eq_true, if_false]

/-- A unit that can be acknowledged is, and what waited for it goes on. -/
theorem toeAcked_acks {u blk : Nat} {x : ToeUnit} (hu : m.ftl.units.get u = some x) (hack : canAck m u blk = true) :
    toeAcked m u blk = vecUnitAcked (ckUnitAcked (ackUnit m u blk) (pn x.pol) u) (pn x.pol) u := by
  simp only [toeAcked, toeWriteAck, hu, hack, if_true]

/-- No write is acknowledged in a retired block (R79). -/
theorem canAck_retired {u blk : Nat} {x : ToeUnit} {c : Chan} (hu : m.ftl.units.get u = some x) (hc : m.ftl.chans.get x.ch = some c)
    (hret : (blkOf c blk).retired = true) : canAck m u blk = false := by
  simp only [canAck, hu, hc, hret, Bool.not_true, Bool.and_false]

-- Bad blocks (R79).

theorem programFailure_retires {u blk : Nat} {x : ToeUnit} {c : Chan} (hu : m.ftl.units.get u = some x) (hack : x.acked = false)
    (hc : m.ftl.chans.get x.ch = some c) (hgood : (blkOf c blk).retired = false) : programFailure m u blk = retireBlk m x.ch blk := by
  simp only [programFailure, hu, hack, hc, hgood, Bool.false_eq_true, if_false]

theorem eraseFailure_retires {ch blk : Nat} {c : Chan} (hc : m.ftl.chans.get ch = some c) (hgood : (blkOf c blk).retired = false) :
    eraseFailure m ch blk = retireBlk m ch blk := by
  simp only [eraseFailure, hc, hgood, Bool.false_eq_true, if_false]

-- Relocation and collection (R74 to R77).

/-- Data whose powered time has reached the retention interval moves, and the move is counted (R75). -/
theorem retentionRelocate_due {ch blk dst t : Nat} {c : Chan} (hc : m.ftl.chans.get ch = some c) (hmove : canMove (tickHvl m t) ch blk dst = true)
    (hdata : blkUnits m.ftl ch blk ≠ [])
    (hdue : m.ftl.retentionDays * 86400 * 1000000000 ≤ (blkOf c blk).age + (max m.hvl t - (blkOf c blk).since)) :
    retentionRelocate m ch blk dst t = minc (relocate (tickHvl m t) ch blk dst) (Ctr.retReloc ch) 1 := by
  have hage : decide (blkAge (tickHvl m t) (blkOf c blk) < (tickHvl m t).ftl.retentionDays * 86400 * 1000000000) = false :=
    decide_eq_false (Nat.not_lt.mpr hdue)
  have hgo : (!canMove (tickHvl m t) ch blk dst || (blkUnits (tickHvl m t).ftl ch blk).isEmpty ||
      decide (blkAge (tickHvl m t) (blkOf c blk) < (tickHvl m t).ftl.retentionDays * 86400 * 1000000000)) = false := by
    simp only [hmove, tickHvl_ftl, List.isEmpty_eq_false_iff.mpr hdata, Bool.not_true, Bool.false_or]
    exact hage
  have hc' : (tickHvl m t).ftl.chans.get ch = some c := hc
  simp only [retentionRelocate, hc', hgo, Bool.false_eq_true, if_false]

section
variable {ch blk dst : Nat} {c : Chan} (hc : m.ftl.chans.get ch = some c)
include hc

/-- A block is reclaimed when it is marked or no block of the channel is: its suspicion ends with the verify read. -/
theorem garbageCollection_reclaims (hmove : canMove m ch blk dst = true) (hturn : (blkOf c blk).marked = true ∨ marksLeft c = false) (lvl : Nat)
    (verify : Bool) :
    garbageCollection m ch blk dst lvl verify = (
      let m2 := if (blkOf c blk).marked then minc (relocate m ch blk dst) (Ctr.rdReloc ch) 1 else relocate m ch blk dst
      let m3 := if (blkOf c blk).suspect then modChan m2 ch (fun c => putBlk c blk { blkOf c blk with suspect := false }) else m2
      levelWear (if (blkOf c blk).suspect && !verify then retireBlk m3 ch blk else m3) ch lvl) := by
  have hgo : (!canMove m ch blk dst || (marksLeft c && !(blkOf c blk).marked)) = false := by
    rcases hturn with hturn | hturn <;> simp [hmove, hturn]
  simp only [garbageCollection, hc, hgo, Bool.false_eq_true, if_false]

/-- A marked block comes before any that is not. -/
theorem garbageCollection_waits (hunmarked : (blkOf c blk).marked = false) (hleft : marksLeft c = true) (lvl : Nat) (verify : Bool) :
    garbageCollection m ch blk dst lvl verify = m := by
  simp only [garbageCollection, hc, hunmarked, hleft, Bool.not_false, Bool.and_self, Bool.or_true, if_true]

end

-- Rebuild of a fenced channel (R80).

/-- Units that a rebuild of a polder's channel moves. -/
def rebuildUnits (m : Mod) (p : Fin 16) (ch : Nat) : List Nat :=
  (m.ftl.units.filter (fun e => e.2.ch == ch && e.2.pol == p.val && e.2.acked)).map (·.1)

section
variable {p : Fin 16} {ch : Nat}

/-- The rebuild of a fenced channel of the slice moves its units one by one, each while there is room. -/
theorem rebuildComplete_fenced (hf : fencedBit m.fence.toe ch = true) (hs : (toeChans m.pol[p]).contains ch = true) :
    rebuildComplete m p ch = (rebuildUnits m p ch).foldl
      (fun m u => if toeRoom m m.pol[p] then minc (moveUnit m u) (Ctr.reconReads ch) 1 else m) m := by
  simp only [rebuildComplete, rebuildUnits, hf, hs, Bool.not_true, Bool.or_self, Bool.false_eq_true, if_false]

theorem rebuildUnits_none (h : ∀ x ∈ m.ftl.units, x.2.ch ≠ ch ∨ x.2.pol ≠ p.val) : rebuildUnits m p ch = [] := by
  simp only [rebuildUnits, List.map_eq_nil_iff, List.filter_eq_nil_iff]
  intro x hx
  rcases h x hx with h | h <;> simp [h]

theorem rebuildUnits_single {u : Nat} {x : ToeUnit} (hu : m.ftl.units = [(u, x)]) (hch : x.ch = ch) (hpol : x.pol = p.val) (hack : x.acked = true) :
    rebuildUnits m p ch = [u] := by
  simp [rebuildUnits, hu, hch, hpol, hack]

-- The key sweep (R366).

theorem keySweep_runs (hc : m.pol[p].composed = true) (hr : m.pol[p].resetting = false) (hprev : bit (keyselOf m.pol[p]) 1 = true) (n : Nat) :
    keySweep m p n = sweepEnd (sweepStart (sweepCommit m p n) p) p := by
  simp only [keySweep, hc, hr, hprev, Bool.not_true, Bool.or_self, Bool.false_eq_true, if_false]

/-- The sweep pauses while a POLDER_RESET runs (Table 17-12). -/
theorem keySweep_pauses (hr : m.pol[p].resetting = true) (n : Nat) : keySweep m p n = m := by
  simp only [keySweep, hr, Bool.or_true, Bool.true_or, if_true]

end

end

/-- Settles O53: each row of the flash at work, then the lemma of the case its hypotheses name. -/
theorem flashEvents : Obligations.FlashEvents := by
  unfold Obligations.FlashEvents
  refine fun s hw => ⟨?rowCloses, ?acked, ?ackedUnit, ?noAck, ?programFails, ?eraseFails, ?retention, ?reclaimed, ?verifyFails, ?notMarked,
    ?nothingToMove, ?oneMoves, ?sweeps, ?sweepPauses⟩
  case rowCloses =>
    intro row t r c hrow hopen hunits hdue hpar
    have hid : r.id = row := by simpa using List.find?_some hrow
    subst hid
    rw [exec_stripeRowClose_working hw, stripeRowClose_due hrow hopen hunits hdue, closeRow_parity hpar, tickHvl_ftl]
  case acked =>
    intro u blk x hu hack
    rw [exec_toeWriteAck_working hw, toeAcked_acks hu hack]
  case ackedUnit => exact fun m u blk x hu => ⟨_, ackUnit_unit hu, rfl, rfl, rfl⟩
  case noAck => exact fun m u blk x c hu hc hret => canAck_retired hu hc hret
  case programFails =>
    intro u blk x c hu hack hc hgood
    rw [exec_programFailure_working hw, programFailure_retires hu hack hc hgood]
  case eraseFails =>
    intro ch blk c hc hgood
    rw [exec_eraseFailure_working hw, eraseFailure_retires hc hgood]
  case retention =>
    intro ch blk dst t c hc hmove hdata hdue
    rw [exec_retentionRelocate_working hw, retentionRelocate_due hc hmove hdata hdue]
  case reclaimed =>
    intro ch blk dst lvl verify c hc hmove hturn hsure
    rw [exec_garbageCollection_working hw, garbageCollection_reclaims hc hmove hturn]
    simp only [hsure, Bool.false_and, Bool.false_eq_true, if_false]
  case verifyFails =>
    intro ch blk dst lvl c hc hmove hturn hsuspect
    rw [exec_garbageCollection_working hw, garbageCollection_reclaims hc hmove hturn]
    simp only [hsuspect, Bool.not_false, Bool.and_self, if_true]
  case notMarked =>
    intro ch blk dst lvl verify c hc hunmarked hleft
    rw [exec_garbageCollection_working hw, garbageCollection_waits hc hunmarked hleft]
  case nothingToMove =>
    intro p ch hf hs hnone
    rw [exec_rebuildComplete_working hw, rebuildComplete_fenced hf hs, rebuildUnits_none hnone, List.foldl_nil]
  case oneMoves =>
    intro p ch u x hf hs hu hch hpol hack hroom
    rw [exec_rebuildComplete_working hw, rebuildComplete_fenced hf hs, rebuildUnits_single hu hch hpol hack, List.foldl_cons, List.foldl_nil,
      if_pos hroom]
  case sweeps =>
    intro p n hc hr hprev
    rw [exec_keySweep_working hw, keySweep_runs hc hr hprev]
  case sweepPauses =>
    intro p n hr
    rw [exec_keySweep_working hw, keySweep_pauses hr]

end Sys2Proof.Machine

/-! PROOFS. Ownership (O56): what each message of a transfer does when it arrives and what each timer of ownership does at its time and before it, case
by case. -/

namespace Sys2Proof.Machine

/-- A polder is named by its number. -/
@[simp] theorem pn_val (p : Fin 16) : pn p.val = p := Fin.ext (Nat.mod_eq_of_lt p.isLt)

/-- A message that stands at the front of its lane goes to its consumer in a module at work, and what follows every effect follows. -/
theorem work_arrived {s : State} (hw : s.m.working = true) {src srcPol dstPol lane ty : Nat} (ha : Arrived s.m src srcPol dstPol lane ty)
    (f : Mod → Mod) : work s (fun _ m => deliver m src srcPol dstPol lane ty f) = after s (f (unlaned s.m src lane)) := by
  rw [work_on hw, deliver_arrived ha]

-- What the row of a message does when the message has arrived.

section
variable {s : State} (hw : s.m.working = true) {src srcPol : Nat} {p : Fin 16}
include hw

theorem exec_offer_arrived (ha : Arrived s.m src srcPol p.val 0 0x01) (x : OwnBody) :
    exec (.offer src srcPol p x) s = after s (recvOffer (unlaned s.m src 0) src srcPol p x) :=
  work_arrived hw ha (fun m => recvOffer m src srcPol p x)

theorem exec_page_arrived (ha : Arrived s.m src srcPol p.val 1 0x20) (x : PageMsg) (hv : HostGen) :
    exec (.page src srcPol p x hv) s = after s (kick (recvPage (unlaned s.m src 1) src srcPol p x s.m.net) p hv) :=
  work_arrived hw ha (fun m => kick (recvPage m src srcPol p x s.m.net) p hv)

theorem exec_pageAck_arrived (ha : Arrived s.m src srcPol p.val 0 0x07) (sid h pseq : Nat) :
    exec (.pageAck src srcPol p sid h pseq) s = after s (recvPageAck (unlaned s.m src 0) p sid h pseq) :=
  work_arrived hw ha (fun m => recvPageAck m p sid h pseq)

theorem exec_claim_arrived (ha : Arrived s.m src srcPol p.val 0 0x02) (x : OwnBody) :
    exec (.claim src srcPol p x) s = after s (recvClaim (unlaned s.m src 0) src srcPol p x) :=
  work_arrived hw ha (fun m => recvClaim m src srcPol p x)

theorem exec_claimAck_arrived (ha : Arrived s.m src srcPol p.val 0 0x03) (x : OwnBody) :
    exec (.claimAck src srcPol p x) s = after s (recvClaimAck (unlaned s.m src 0) p x) :=
  work_arrived hw ha (fun m => recvClaimAck m p x)

theorem exec_abort_arrived (ha : Arrived s.m src srcPol p.val 0 0x04) (x : OwnBody) :
    exec (.abort src srcPol p x) s = after s (recvAbort (unlaned s.m src 0) src p x) :=
  work_arrived hw ha (fun m => recvAbort m src p x)

theorem exec_assert_arrived (ha : Arrived s.m src srcPol p.val 0 0x05) (x : OwnBody) :
    exec (.assert src srcPol p x) s = after s (recvAssert (unlaned s.m src 0) src srcPol x) :=
  work_arrived hw ha (fun m => recvAssert m src srcPol x)

theorem exec_assertReply_arrived (ha : Arrived s.m src srcPol p.val 0 0x06) (x : OwnBody) :
    exec (.assertReply src srcPol p x) s = after s (recvAssertReply (unlaned s.m src 0) src x) :=
  work_arrived hw ha (fun m => recvAssertReply m src x)

end

-- What the row of a timer of ownership does in a module at work.

section
variable {s : State} (hw : s.m.working = true) (p : Fin 16)
include hw

theorem exec_leaseExpiry_working (idx t : Nat) : exec (.leaseExpiry p idx t) s = after s (leaseExpiry s.m p idx t) :=
  work_on (f := fun _ m => leaseExpiry m p idx t) hw

theorem exec_commitWindowClose_working (sid t : Nat) : exec (.commitWindowClose p sid t) s = after s (commitWindowClose s.m p sid t) :=
  work_on (f := fun _ m => commitWindowClose m p sid t) hw

theorem exec_relinquishedExpiry_working (idx t : Nat) : exec (.relinquishedExpiry p idx t) s = after s (relinquishedExpiry s.m p idx t) :=
  work_on (f := fun _ m => relinquishedExpiry m p idx t) hw

theorem exec_restoreLeaseExpiry_working (idx t : Nat) : exec (.restoreLeaseExpiry p idx t) s = after s (restoreLeaseExpiry s.m p idx t) :=
  work_on (f := fun _ m => restoreLeaseExpiry m p idx t) hw

theorem exec_handoffInWaitExpiry_working (tag t : Nat) : exec (.handoffInWaitExpiry p tag t) s = after s (inWaitExpiry s.m p tag t) :=
  work_on (f := fun _ m => inWaitExpiry m p tag t) hw

end

-- OFFER (R87, R103, R107): a composed polder without an import of the session decides by the entry that holds it.

section
variable {m : Mod} {p : Fin 16} {x : OwnBody} (hc : m.pol[p].composed = true) (hcls : ¬ (x.cls = .lc ∧ x.sparse = true))
  (him : importOf m.pol[p] x.sid = none)
include hc hcls him

theorem recvOffer_fresh (hf : findSidAny m x.sid = none) (src srcPol : Nat) :
    recvOffer m src srcPol p x = offerFresh m src srcPol p x := by
  have hform : (x.cls == .lc && x.sparse) = false := by simpa using hcls
  simp only [recvOffer, hc, hform, him, hf, Bool.not_true, Bool.false_eq_true, if_false]

/-- An offer of a session owned here must name a higher epoch (Table 03-9). -/
theorem recvOffer_owned {idx : Nat} {d : Desc} (hf : findSidAny m x.sid = some (idx, d)) (hown : d.own = .owned) (hpol : d.pol = p.val)
    (hret : d.life ≠ .retiring) (hhusk : d.life ≠ .husk) (src srcPol : Nat) :
    recvOffer m src srcPol p x =
      if x.epoch ≤ d.epoch then offerRefuse m src srcPol p x stStale else offerOpened m src srcPol p x idx true d := by
  have hform : (x.cls == .lc && x.sparse) = false := by simpa using hcls
  have hforward : (d.own == .relinquished) = false := by rw [hown]; rfl
  have hlive : (d.own == .owned && d.life != .retiring && d.life != .husk) = true := by simp [hown, hret, hhusk]
  simp only [recvOffer, hc, hform, him, hf, hforward, hpol, hlive, bne_self_eq_false, Bool.not_true, Bool.false_eq_true, if_false, if_true]

end

-- PAGE and PAGE_ACK (R108, Table 03-9).

section
variable {m : Mod} {p : Fin 16}

/-- A page that is new to its import and not its last one is placed, counted and acknowledged (R108). -/
theorem recvPage_places {src : Nat} {x : PageMsg} {im : Import} {m1 : Mod} (him : importOf m.pol[p] x.sid = some im) (hh : im.h = x.h)
    (hsrc : im.srcMod = src) (hnew : ∀ y ∈ im.pages, y.pseq ≠ x.pseq) (hplace : placePage m p im x = .ok m1)
    (hmore : im.pages.length + 1 < im.expected) (srcPol : Nat) (before : Net) :
    recvPage m src srcPol p x before = send (modImport (pinc (pinc m1 p Ctr.importPages 1) p Ctr.importBytes x.len) p x.sid
      (fun i => { i with pages := i.pages ++ [x], last := i.last })) src srcPol p.val (.pageAck x.sid x.h x.pseq) := by
  have hmine : (im.h != x.h || im.srcMod != src) = false := by simp [hh, hsrc]
  have hunseen : im.pages.any (fun y => y.pseq == x.pseq) = false := by simpa using hnew
  have hnotLast : decide (im.expected ≤ im.pages.length + 1) = false := decide_eq_false (Nat.not_le.mpr hmore)
  simp only [recvPage, him, hmine, hunseen, hplace, hnotLast, Bool.false_eq_true, if_false]

theorem recvPageAck_counts {sid h idx : Nat} {d : Desc} (hf : findSid m p.val sid = some (idx, d)) (hown : d.own = .pendingOut) (hpend : d.pend = h)
    (pseq : Nat) :
    recvPageAck m p sid h pseq = modPol m p (fun q => { q with
      xfers := updWhere q.xfers (fun x => x.idx == idx && !x.acked.contains pseq) (fun x => { x with acked := x.acked ++ [pseq] }) }) := by
  simp only [recvPageAck, hf, hown, hpend, beq_self_eq_true, Bool.and_self, if_true]

end

-- CLAIM and ABORT at the source (R103, R105, Table 03-9).

section
variable {m : Mod} {p : Fin 16} {src : Nat} {x : OwnBody} {idx : Nat} {d : Desc}

/-- A claim at the epoch offered, inside the lease, relinquishes the session; with no command waiting for the transfer nothing completes. -/
theorem recvClaim_pending (hf : findSidAny m x.sid = some (idx, d)) (hd : desc? m idx = some d) (hpol : d.pol = p.val) (hown : d.own = .pendingOut)
    (hlease : leaseDue m p idx d = false) (hpend : d.pend = x.epoch) (hpos : 0 < x.epoch) {srcPol : Nat}
    (hx : xferOf (sendOwn (relinquish m p idx x.epoch src srcPol) src srcPol p.val .claimAck x.sid x.epoch).pol[p] idx = none) :
    recvClaim m src srcPol p x = sendOwn (relinquish m p idx x.epoch src srcPol) src srcPol p.val .claimAck x.sid x.epoch := by
  have hoffered : (d.own == .pendingOut && d.pend == x.epoch && decide (0 < d.pend)) = true := by simp [hown, hpend, hpos]
  simp only [recvClaim, hf, hpol, pn_val, hlease, Bool.and_false, Bool.false_eq_true, if_false, hd, hoffered, if_true, hx]

/-- An epoch below the one a descriptor holds is no tie (R105). -/
theorem tie_lower {e : Nat} (h : e < d.epoch) : tie m d e = false := by
  simp [tie, Nat.ne_of_gt h]

/-- A claim below the epoch owned here is answered with that epoch (Table 03-9). -/
theorem recvClaim_lower (hf : findSidAny m x.sid = some (idx, d)) (hd : desc? m idx = some d) (hpol : d.pol = p.val) (hown : d.own = .owned)
    (hlow : x.epoch < d.epoch) (srcPol : Nat) :
    recvClaim m src srcPol p x = sendOwn m src srcPol p.val .assert x.sid d.epoch := by
  have hpend : (d.own == .pendingOut) = false := by rw [hown]; rfl
  have hforward : (d.own == .relinquished) = false := by rw [hown]; rfl
  simp only [recvClaim, hf, hpol, pn_val, hpend, Bool.false_and, Bool.false_eq_true, if_false, hd, hforward, Nat.lt_asymm hlow, tie_lower hlow,
    reasserting]

/-- An ABORT from the source of an import, at its epoch, discards it. -/
theorem recvAbort_import {im : Import} (him : importOf m.pol[p] x.sid = some im) (hh : im.h = x.epoch) (hsrc : im.srcMod = src) :
    recvAbort m src p x = discardImport m p x.sid (rSt stPhaseLost) (if peerFailed m src then none else some stPhaseLost) := by
  simp only [recvAbort, him, hh, hsrc, beq_self_eq_true, Bool.and_self, if_true]

/-- An ABORT from the destination takes the session back, unless the destination holds a higher epoch. -/
theorem recvAbort_pending (him : importOf m.pol[p] x.sid = none) (hf : findSid m p.val x.sid = some (idx, d)) (hown : d.own = .pendingOut)
    (hpend : d.pend = x.epoch) (hsrc : d.peerMod = src) (hst : x.status ≠ stStale) : recvAbort m src p x = reassertStart m p idx := by
  simp only [recvAbort, him, hf, hown, hpend, hsrc, beq_self_eq_true, Bool.and_self, if_true, beq_eq_false_iff_ne.mpr hst, Bool.false_eq_true,
    if_false]

/-- A source that takes its session back holds PEND_EPOCH + 1 and journals that before it asserts it (Table 03-9). -/
theorem reassertStart_pending (hd : desc? m idx = some d) (hown : d.own = .pendingOut) (hpend : 0 < d.pend) :
    reassertStart m p idx = journalFirst (modDesc m idx (fun d => { d with epoch := d.pend + 1, pend := 0 })) idx
      (recOf 3 p.val { d with own := .owned, epoch := d.pend + 1, pend := 0 }) (.reassert p.val idx 0) := by
  simp only [reassertStart, hd, hown, beq_self_eq_true, decide_eq_true hpend, Bool.and_self, if_true]

-- ASSERT and ASSERT_REPLY (R105, R392, Table 03-9).

theorem recvAssert_higher (hf : findSidAny m x.sid = some (idx, d)) (hhigh : d.epoch < x.epoch) (srcPol : Nat) :
    recvAssert m src srcPol x = sendReply (supersede m idx x.epoch src srcPol) src srcPol d.pol x.sid x.epoch 0 false := by
  simp only [recvAssert, hf, if_pos hhigh]

/-- A lower ASSERT is answered with the holder: this module, or the one a forwarding entry names (R392). -/
theorem recvAssert_lower (hf : findSidAny m x.sid = some (idx, d)) (hlow : x.epoch < d.epoch) (srcPol : Nat) :
    recvAssert m src srcPol x = sendReply m src srcPol d.pol x.sid d.epoch (if d.own == .relinquished then d.peerMod else selfId m)
      (d.own != .relinquished || d.peerMod != src) := by
  simp only [recvAssert, hf, Nat.lt_asymm hlow, tie_lower hlow, Bool.false_eq_true, if_false]
  by_cases hforward : d.own = .relinquished
  · simp only [hforward, beq_self_eq_true, bne_self_eq_false, Bool.false_or, if_true]
  · simp only [beq_eq_false_iff_ne.mpr hforward, bne_iff_ne.mpr hforward, Bool.true_or, Bool.false_eq_true, if_false]

theorem recvAssertReply_higher (hf : findSidAny m x.sid = some (idx, d)) (hown : d.own = .owned) (hhigh : d.epoch < x.epoch)
    (hvalid : x.ownerValid = true) : recvAssertReply m src x = supersede m idx x.epoch x.holder d.pol := by
  have hrestoring : (d.own == .restoring) = false := by rw [hown]; rfl
  have hgo : (d.own == .owned && decide (d.epoch < x.epoch) && x.ownerValid) = true := by simp [hown, hhigh, hvalid]
  simp only [recvAssertReply, hf, hrestoring, Bool.false_and, Bool.false_eq_true, if_false, hgo, if_true]

end

-- Timers of ownership (R103, R104, R107): each takes the counter's reading, and acts when its time has come.

section
variable {m : Mod} {p : Fin 16} {idx t : Nat} {d : Desc} (hd : desc? (tickPol m p t) idx = some d)
include hd

section
variable (hearly : leaseDue (tickPol m p t) p idx d = false)
include hearly

theorem leaseExpiry_early : leaseExpiry m p idx t = tickPol m p t := by
  simp only [leaseExpiry, hd, hearly, Bool.and_false, Bool.false_eq_true, if_false]

theorem relinquishedExpiry_early : relinquishedExpiry m p idx t = tickPol m p t := by
  simp only [relinquishedExpiry, hd, hearly, Bool.and_false, Bool.false_eq_true, if_false]

theorem restoreLeaseExpiry_early : restoreLeaseExpiry m p idx t = tickPol m p t := by
  simp only [restoreLeaseExpiry, hd, hearly, Bool.and_false, Bool.false_eq_true, if_false]

end

section
variable (hpol : d.pol = p.val) (hdue : leaseDue (tickPol m p t) p idx d = true)
include hpol hdue

theorem leaseExpiry_due (hown : d.own = .pendingOut) (hpend : 0 < d.pend) : leaseExpiry m p idx t = reassertStart (tickPol m p t) p idx := by
  simp only [leaseExpiry, hd, hpol, hown, hdue, beq_self_eq_true, decide_eq_true hpend, Bool.and_self, if_true]

/-- An expired forwarding entry is freed; a husk's stays while its family has members (R100). -/
theorem relinquishedExpiry_due (hown : d.own = .relinquished) (hfam : d.life ≠ .husk ∨ d.famRefs = 0) :
    relinquishedExpiry m p idx t = freeGone (tickPol m p t) p idx d := by
  have hgone : (d.life == .husk && decide (0 < d.famRefs)) = false := by
    rcases hfam with hfam | hfam <;> simp [hfam]
  simp only [relinquishedExpiry, hd, hpol, hown, hdue, beq_self_eq_true, Bool.and_self, if_true, hgone, Bool.false_eq_true, if_false]

theorem restoreLeaseExpiry_due (hown : d.own = .restoring) : restoreLeaseExpiry m p idx t = restoreOwn (tickPol m p t) p idx := by
  simp only [restoreLeaseExpiry, hd, hpol, hown, hdue, beq_self_eq_true, Bool.and_self, if_true]

end

end

section
variable {m : Mod} {p : Fin 16} {t : Nat}

/-- The window of an import closes GUARD before its lease ends (R104). -/
theorem windowOpen_closed {im : Import} (h : im.arrived + msNs (im.leaseMs - im.guardMs) ≤ m.pol[p].clk) : windowOpen m p im = false :=
  decide_eq_false (by omega)

theorem commitWindowClose_closed {sid : Nat} {im : Import} (him : importOf (tickPol m p t).pol[p] sid = some im)
    (hclosed : im.arrived + msNs (im.leaseMs - im.guardMs) ≤ (tickPol m p t).pol[p].clk) :
    commitWindowClose m p sid t =
      discardImport (tickPol m p t) p sid (rSt stPhaseLost) (if peerFailed (tickPol m p t) im.srcMod then none else some stPhaseLost) := by
  simp only [commitWindowClose, him, windowOpen_closed hclosed, Bool.not_false, if_true]

theorem inWaitExpiry_due {tag : Nat} {w : InWait} (hfind : (tickPol m p t).pol[p].inWaits.find? (fun w => w.tag == tag) = some w)
    (hdue : w.deadline ≤ (tickPol m p t).pol[p].clk) :
    inWaitExpiry m p tag t = complete (modPol (tickPol m p t) p (fun q => { q with inWaits := q.inWaits.filter (fun x => x.tag != tag) })) p tag
      (rSt stPhaseLost) := by
  simp only [inWaitExpiry, hfind, hdue, if_true]

end

/-- Settles O56: each message delivered to its consumer and each timer at work, then the lemma of the case its hypotheses name. -/
theorem ownershipTransfers : Obligations.OwnershipTransfers := by
  unfold Obligations.OwnershipTransfers
  refine ⟨fun s src srcPol p hw => ⟨?offerFresh, ?offerOwned, ?page, ?pageAck, ?claimPending, ?claimLower, ?claimAck, ?abortImport, ?abortPending,
    ?assertHigher, ?assertLower, ?assertReply⟩, fun s p t hw => ⟨?leaseDue, ?early, ?windowCloses, ?forwardFreed, ?restoreOwns, ?waitEnds⟩⟩
  case offerFresh =>
    intro x ha hc hcls him hf
    rw [exec_offer_arrived hw ha, recvOffer_fresh hc hcls him hf]
  case offerOwned =>
    intro x idx d ha hc hcls him hf hown hpol hret hhusk
    rw [exec_offer_arrived hw ha, recvOffer_owned hc hcls him hf hown hpol hret hhusk]
  case page =>
    intro x hv im m1 n ha him hh hsrc hnew hplace hmore
    rw [exec_page_arrived hw ha, recvPage_places him hh hsrc hnew hplace hmore]
  case pageAck =>
    intro sid h pseq idx d ha hf hown hpend
    rw [exec_pageAck_arrived hw ha, recvPageAck_counts hf hown hpend]
  case claimPending =>
    intro x idx d ha hf hd hpol hown hlease hpend hpos hx
    rw [exec_claim_arrived hw ha, recvClaim_pending hf hd hpol hown hlease hpend hpos hx]
  case claimLower =>
    intro x idx d ha hf hd hpol hown hlow
    rw [exec_claim_arrived hw ha, recvClaim_lower hf hd hpol hown hlow]
  case claimAck => exact fun x ha => exec_claimAck_arrived hw ha x
  case abortImport =>
    intro x im ha him hh hsrc
    rw [exec_abort_arrived hw ha, recvAbort_import him hh hsrc]
  case abortPending =>
    intro x idx d ha him hf hown hpend hsrc hst
    rw [exec_abort_arrived hw ha, recvAbort_pending him hf hown hpend hsrc hst]
  case assertHigher =>
    intro x idx d ha hf hhigh
    rw [exec_assert_arrived hw ha, recvAssert_higher hf hhigh]
  case assertLower =>
    intro x idx d ha hf hlow
    rw [exec_assert_arrived hw ha, recvAssert_lower hf hlow]
  case assertReply =>
    intro x idx d ha hf hown hhigh hvalid
    rw [exec_assertReply_arrived hw ha, recvAssertReply_higher hf hown hhigh hvalid]
  case leaseDue =>
    intro idx d hd hpol hown hpend hdue
    rw [exec_leaseExpiry_working hw, leaseExpiry_due hd hpol hdue hown hpend, reassertStart_pending hd hown hpend]
  case early =>
    intro idx d hd hearly
    rw [exec_leaseExpiry_working hw, exec_relinquishedExpiry_working hw, exec_restoreLeaseExpiry_working hw, leaseExpiry_early hd hearly,
      relinquishedExpiry_early hd hearly, restoreLeaseExpiry_early hd hearly]
    exact ⟨rfl, rfl, rfl⟩
  case windowCloses =>
    intro sid im him hclosed
    rw [exec_commitWindowClose_working hw, commitWindowClose_closed him hclosed]
  case forwardFreed =>
    intro idx d hd hpol hown hdue hfam
    rw [exec_relinquishedExpiry_working hw, relinquishedExpiry_due hd hpol hdue hown hfam, freeGone]
  case restoreOwns =>
    intro idx d hd hpol hown hdue
    rw [exec_restoreLeaseExpiry_working hw, restoreLeaseExpiry_due hd hpol hdue hown]
  case waitEnds =>
    intro tag w hfind hdue
    rw [exec_handoffInWaitExpiry_working hw, inWaitExpiry_due hfind hdue]

end Sys2Proof.Machine

/-! PROOFS. The journal and its peers (O57): records and their acknowledgements, the silent buddy, the failed peer, NOTICE and a fetched entry, case by
case. -/

namespace Sys2Proof.Machine

-- What the rows of the journal do: a message when it has arrived, an event in a module at work.

section
variable {s : State} (hw : s.m.working = true)
include hw

theorem exec_journal_arrived {src srcPol : Nat} {p : Fin 16} (ha : Arrived s.m src srcPol p.val 0 0x08) (recs : List JRec) :
    exec (.journal src srcPol p recs) s = after s (recvJournal (unlaned s.m src 0) src recs) :=
  work_arrived hw ha (fun m => recvJournal m src recs)

theorem exec_journalAck_arrived {src : Nat} (ha : Arrived s.m src 0 0 0 0x09) (jseq : Nat) (hv : HostGen) :
    exec (.journalAck src jseq hv) s = after s (kickAll (recvJournalAck (unlaned s.m src 0) src jseq) hv) :=
  work_arrived hw ha (fun m => kickAll (recvJournalAck m src jseq) hv)

theorem exec_journalFlush_working (t : Nat) : exec (.journalFlush t) s = after s (journalFlush s.m t) :=
  work_on (f := fun _ m => journalFlush m t) hw

theorem exec_buddyDegrade_working (t : Nat) : exec (.buddyDegrade t) s = after s (buddyDegrade s.m t) :=
  work_on (f := fun _ m => buddyDegrade m t) hw

theorem exec_peerFailureDeclared_working (src t : Nat) :
    exec (.peerFailureDeclared src t) s = after s (peerDown s.m (peerFailure s.m src t) src) :=
  work_on (f := fun _ m => peerDown m (peerFailure m src t) src) hw

theorem exec_notice_working : exec .notice s = after s (noticeFrame s.m) := work_on (f := fun _ m => noticeFrame m) hw

theorem exec_dirRefetch_working (idx : Nat) (d : Desc) : exec (.dirRefetch idx d) s = after s (dirRefetch s.m idx d) :=
  work_on (f := fun _ m => dirRefetch m idx d) hw

end

-- Records in the shadow directory of their sender (R110).

/-- A record taken before is not taken again. -/
theorem shadowRec_held {pr : Peer} {r : JRec} (h : r.jseq ≤ pr.heldJseq) : shadowRec pr r = pr := by
  simp only [shadowRec, if_pos h]

/-- A new record of any kind is the last one held. -/
theorem shadowRec_new_heldJseq {pr : Peer} {r : JRec} (h : pr.heldJseq < r.jseq) : (shadowRec pr r).heldJseq = r.jseq := by
  simp only [shadowRec, if_neg (Nat.not_le.mpr h)]
  split <;> rfl

-- The silent buddy (R112).

section
variable {m : Mod} {t : Nat}

/-- Records that have waited BUDDY_DEGRADE_MS for an acknowledgement set BUDDY_DOWN, and what waited for them happens. -/
theorem buddyDegrade_silent (hup : m.jr.down = false) (hsent : ∃ x ∈ m.jr.q, x.sent = true)
    (hdue : max m.jr.lastAck m.jr.waitSince + msNs m.own.degradeMs ≤ max m.hvl t) :
    buddyDegrade m t = m.jr.acts.foldl (fun m a => runAct m a.1 a.2)
      { tickHvl m t with jr := { m.jr with down := true, resentTo := none, downAt := max m.hvl t, acts := [] } } := by
  have hpassed : decide (max m.jr.lastAck m.jr.waitSince + msNs (tickHvl m t).own.degradeMs ≤ (tickHvl m t).hvl) = true := decide_eq_true hdue
  have hgo : (!m.jr.down && m.jr.q.any (fun x => x.sent) &&
      decide (max m.jr.lastAck m.jr.waitSince + msNs (tickHvl m t).own.degradeMs ≤ (tickHvl m t).hvl)) = true := by
    simp only [hup, List.any_eq_true.mpr hsent, hpassed, Bool.not_false, Bool.and_self]
  exact if_pos hgo

theorem buddyDegrade_down (hdown : m.jr.down = true) : buddyDegrade m t = tickHvl m t := by
  simp only [buddyDegrade, tickHvl_jr, hdown, Bool.not_true, Bool.false_and, Bool.false_eq_true, if_false]

end

-- Failed peers (R113, R472).

section
variable {m : Mod} {src : Nat} {pr : Peer} (hp : m.peers.get src = some pr)
include hp

/-- A peer of whom frames are expected is declared failed after a silence of PEER_DEAD_MS. -/
theorem peerFailure_silent {t e : Nat} (he : pr.expectSince = some e) (halive : pr.failed = false)
    (hdue : max e (pr.lastFrame.getD 0) + msNs m.own.peerDeadMs ≤ max m.hvl t) : peerFailure m src t = declareFailed (tickHvl m t) src := by
  have hsilent : silentSince pr = some (max e (pr.lastFrame.getD 0)) := by simp only [silentSince, he, Option.map_some]
  have hpassed : decide (max e (pr.lastFrame.getD 0) + msNs (tickHvl m t).own.peerDeadMs ≤ (tickHvl m t).hvl) = true := decide_eq_true hdue
  simp only [peerFailure, tickHvl_peers, hp, hsilent, halive, hpassed, Bool.not_false, Bool.and_self, if_true]

/-- A NOTICE of KIND 1 to 3 with the peer's serial declares the peer failed. -/
theorem recvNotice_declares {kind serial : Nat} (hlo : 1 ≤ kind) (hhi : kind ≤ 3) (halive : pr.failed = false) (hexp : pr.expectSince ≠ none)
    (hser : pr.serial = some serial) :
    recvNotice m src kind serial = declareFailed { m with peers := m.peers.upd src (fun x => { x with noticed := true }) } src := by
  have hexpected : pr.expectSince.isSome = true := Option.isSome_iff_ne_none.mpr hexp
  simp only [recvNotice, hp, hser, beq_self_eq_true, decide_eq_true hlo, decide_eq_true hhi, halive, hexpected, Bool.not_false, Bool.and_self, if_true]

/-- A NOTICE of another serial, of a KIND above 3, or from a peer nothing is expected of, changes nothing. -/
theorem recvNotice_ignored {kind serial : Nat} (h : pr.serial ≠ some serial ∨ 3 < kind ∨ pr.expectSince = none) :
    recvNotice m src kind serial = m := by
  have hstop : (pr.serial == some serial && decide (1 ≤ kind) && decide (kind ≤ 3) && !pr.failed && pr.expectSince.isSome) = false := by
    rcases h with hser | hkind | hexp
    · simp only [beq_eq_false_iff_ne.mpr hser, Bool.false_and]
    · simp only [decide_eq_false (Nat.not_le.mpr hkind), Bool.and_false, Bool.false_and]
    · simp only [hexp, Option.isSome_none, Bool.and_false]
  simp only [recvNotice, hp, hstop, Bool.false_eq_true, if_false]

end

/-- The one frame received, of the type asked for, is taken. -/
theorem takeRx_single {m : Mod} {port ft : Nat} {w : Wire} (hrx : m.net.rx = [(port, w)]) (hft : w.ftype = ft) :
    takeRx m ft = some ((port, w), { m with net := { m.net with rx := [] } }) := by
  simp [takeRx, hrx, hft]

/-- A NOTICE frame whose CHECK holds is received; replicas to a peer it declares failed fail too (R298, R472). -/
theorem noticeFrame_single {m : Mod} {port : Nat} {w : Wire} (hrx : m.net.rx = [(port, w)]) (hft : w.ftype = 2) (hcheck : w.check = true) :
    noticeFrame m = (
      let m1 := { m with net := { m.net with rx := [] } }
      peerDown m1 (recvNotice m1 w.src w.kind w.serial) w.src) := by
  simp only [noticeFrame, takeRx_single hrx hft, hcheck, if_true]

-- The directory refuge (R93).

/-- A fetched forwarding entry serves again, not ACTIVE, with its family counted anew. -/
theorem dirRefetch_relinquished {m : Mod} {idx : Nat} {d : Desc} (hre : m.refetch.contains idx = true) (hs : m.pol[pn d.pol].sess.get idx = none)
    (hown : d.own = .relinquished) :
    dirRefetch m idx d = (
      let m0 := minc { m with refetch := m.refetch.filter (fun i => i != idx) } Ctr.dirRefetch 1
      let m1 := { m0 with dir := m0.dir.put idx d }
      modDesc m1 idx (fun x => { x with famRefs := countFamily m1 idx d, life := if x.life == .active then .parked else x.life })) := by
  simp only [dirRefetch, hre, minc_pol, hs, hown, beq_self_eq_true, Bool.true_or, Bool.not_true, Bool.false_eq_true, if_false, if_true]

/-- Settles O57: each message delivered to its consumer and each event at work, then the lemma of the case its hypotheses name. -/
theorem journalAndPeers : Obligations.JournalAndPeers := by
  unfold Obligations.JournalAndPeers
  refine fun s hw => ⟨?journal, ?shadow, ?acknowledged, ?flushed, ?degrades, ?degraded, ?silentPeer, ?notice, ?unexpected, ?noticeFrame, ?refetched⟩
  case journal => exact fun src srcPol p recs ha => exec_journal_arrived hw ha recs
  case shadow => exact fun pr r => ⟨shadowRec_held, shadowRec_new_heldJseq⟩
  case acknowledged => exact fun src jseq hv ha _ => exec_journalAck_arrived hw ha jseq hv
  case flushed => exact fun t => exec_journalFlush_working hw t
  case degrades =>
    intro t hup hsent hdue
    rw [exec_buddyDegrade_working hw, buddyDegrade_silent hup hsent hdue]
  case degraded =>
    intro t hdown
    rw [exec_buddyDegrade_working hw, buddyDegrade_down hdown]
  case silentPeer =>
    intro src t pr e hp he halive hdue
    rw [exec_peerFailureDeclared_working hw, peerFailure_silent hp he halive hdue]
  case notice =>
    intro m src pr kind n hp hlo hhi halive hexp hser
    have hother : pr.serial ≠ some (n + 1) := by simp [hser]
    exact ⟨recvNotice_declares hp hlo hhi halive hexp hser, recvNotice_ignored hp (.inl hother), recvNotice_ignored hp (.inr (.inl (by decide)))⟩
  case unexpected => exact fun m src pr kind n hp hexp => recvNotice_ignored hp (.inr (.inr hexp))
  case noticeFrame =>
    intro port w hrx hft hcheck
    rw [exec_notice_working hw, noticeFrame_single hrx hft hcheck]
  case refetched =>
    intro idx d hre hs hown
    rw [exec_dirRefetch_working hw, dirRefetch_relinquished hre hs hown]

end Sys2Proof.Machine

/-! PROOFS. Masked faults (O39): what a fault that a retry, a reissue, a resend or a correction masks leaves behind, event by event, and how a
companion-memory read that times out ends. -/

namespace Sys2Proof.Machine

-- What each event does in a module at work: its meaning, then what follows every effect.

section
variable {s : State} (hw : s.m.working = true)
include hw

theorem exec_residueMismatch_working (a : Nat) (again : Bool) :
    exec (.residueMismatch a again) s = after s (residueMismatch s.fuses s.m a again) :=
  work_on (f := fun z m => residueMismatch z m a again) hw

theorem exec_handshakeStall_working (p : Fin 16) (a : Nat) (pass : Bool) :
    exec (.handshakeStall p a pass) s = after s (handshakeStall s.fuses s.m p a pass) :=
  work_on (f := fun z m => handshakeStall z m p a pass) hw

theorem exec_fabricPortError_working (a t : Nat) : exec (.fabricPortError a t) s = after s (fabricPortError s.fuses s.m a t) :=
  work_on (f := fun z m => fabricPortError z m a t) hw

theorem exec_fabricWedge_working (c : Clocks) : exec (.fabricWedge c) s = after s (fabricWedge s.m c.hvl c.wd) :=
  work_on (f := fun _ m => fabricWedge m c.hvl c.wd) hw

theorem exec_actStoreEcc_working (a t : Nat) (uncorr : Bool) (d : Block) :
    exec (.actStoreEcc a t uncorr d) s = after s (actStoreEcc s.fuses s.m a t uncorr d) :=
  work_on (f := fun z m => actStoreEcc z m a t uncorr d) hw

theorem exec_crestEcc_working (die : Nat) (uncorr : Bool) (page : Option (Fin 16 × Nat)) (d : Block) :
    exec (.crestEcc die uncorr page d) s = after s (crestEcc s.m die uncorr page d) :=
  work_on (f := fun _ m => crestEcc m die uncorr page d) hw

theorem exec_crestScrub_working (c : Clocks) : exec (.crestScrub c) s = after s (crestScrub s.m c.hvl c.wd) :=
  work_on (f := fun _ m => crestScrub m c.hvl c.wd) hw

theorem exec_bermEcc_working (i t : Nat) (uncorr again : Bool) (page : Option (Fin 16 × Nat)) (d : Block) :
    exec (.bermEcc i t uncorr again page d) s = after s (bermEcc s.m i t uncorr again page d) :=
  work_on (f := fun _ m => bermEcc m i t uncorr again page d) hw

theorem exec_dupMismatch_working (ty i t : Nat) : exec (.dupMismatch ty i t) s = after s (dupMismatch s.fuses s.m ty i t) :=
  work_on (f := fun z m => dupMismatch z m ty i t) hw

theorem exec_hvlLaneCrc_working (half : Nat) : exec (.hvlLaneCrc half) s = after s (hvlLaneCrc s.m half) :=
  work_on (f := fun _ m => hvlLaneCrc m half) hw

theorem exec_hvlReadTimeout_working (half : Nat) (cmd : Option (Fin 16 × Nat)) (box : Option Box) (t : Nat) :
    exec (.hvlReadTimeout half cmd box t) s = after s (hvlReadTimeout s.m half cmd box t) :=
  work_on (f := fun _ m => hvlReadTimeout m half cmd box t) hw

end

-- A fence is read from the masks alone; a perturbation used up and a record written leave the masks and the mailboxes.

theorem arrayFenced_congr {m m' : Mod} (h : m'.fence = m.fence) (a : Nat) : arrayFenced m' a = arrayFenced m a := by
  simp only [arrayFenced, h]

theorem unitFenced_congr {m m' : Mod} (h : m'.fence = m.fence) (ty i : Nat) : unitFenced m' ty i = unitFenced m ty i := by
  simp only [unitFenced, arrayFenced_congr h, h]

@[simp] theorem spend_fence (m : Mod) (hit : Arm → Bool) : (spend m hit).fence = m.fence := by
  unfold spend
  split <;> rfl

@[simp] theorem getMbx_logFault (m : Mod) (ty idx fault action : Nat) (env : Bool) (d : Block) (b : Box) :
    getMbx (logFault m ty idx fault action env d) b = getMbx m b := by
  cases b <;> simp [getMbx]

-- Faults of the arrays (R145, R146, R383).

section
variable {fz : Fuses} {m : Mod} {a : Nat}

/-- A tile that matches when it is computed again. -/
theorem residueMismatch_masked (ha : a < 256) (hf : arrayFenced m a = false) :
    residueMismatch fz m a false =
      logFault (minc (minc (spend m (armHit 0 0 a false)) (Ctr.resFault a) 1) (Ctr.resRetryOk a) 1) 0x01 a fResidue 1 false 0 := by
  simp only [residueMismatch, decide_eq_false (Nat.not_le.mpr ha), hf, Bool.or_self, Bool.false_eq_true, if_false]

/-- The first stall of an array in a step, its self-test passed: the tiles are reissued. -/
theorem handshakeStall_reissued {p : Fin 16} {sl : ArrSlots} {key : StripKey} (harr : m.pol[p].arrays.get a = some sl) (hrun : sl.run = some key)
    (hfirst : sl.stalled = none) (hf : arrayFenced m a = false) (hpf : m.pol[p].fenced = false) :
    handshakeStall fz m p a true = dispatch (logFault
      (modPol (arrayLeaves (minc (spend m (armHit 2 0 a false)) (Ctr.hsStall a) 1) p a false) p (fun q => { q with
        arrays := q.arrays.upd a (fun x => { x with stalled := some key.pass }) })) 0x01 a fHsStall 3 false 0) p := by
  have hnew : ((none : Option Nat) == some key.pass) = false := rfl
  simp only [handshakeStall, harr, hrun, hfirst, hf, hpf, hnew, Bool.or_self, Bool.not_true, Bool.false_eq_true, if_false]

/-- The first error of an array's fabric port within 1 ms: one resend. -/
theorem fabricPortError_first {t : Nat} (ha : a < 256) (hf : arrayFenced m a = false)
    (hn : (noteError (tickHvl m t) (errKey 1 0x01 a) 1000000).1 < 2) :
    fabricPortError fz m a t = logFault (noteError (tickHvl m t) (errKey 1 0x01 a) 1000000).2 0x01 a fResidue 2 false 0 := by
  have hrun : arrayFenced (tickHvl m t) a = false := hf
  simp only [fabricPortError, decide_eq_false (Nat.not_le.mpr ha), hrun, Nat.not_le.mpr hn, Bool.or_self, Bool.false_eq_true, if_false]

/-- A correctable word of an activation store. -/
theorem actStoreEcc_corrected {t : Nat} {d : Block} (ha : a < 256) (hf : arrayFenced m a = false) :
    actStoreEcc fz m a t false d =
      logFault (minc (spend (tickHvl m t) (armHit 1 1 a false)) (Ctr.eccCorr (3 + a)) 1) 0x01 a fEccCorr 1 false d := by
  have hrun : arrayFenced (spend (tickHvl m t) (armHit 1 1 a false)) a = false := (arrayFenced_congr (spend_fence _ _) a).trans hf
  simp only [actStoreEcc, hf, decide_eq_false (Nat.not_le.mpr ha), hrun, Bool.or_self, Bool.not_false, Bool.false_eq_true, if_false, if_true]

end

-- Faults of the memories, the fabric and the links (R383).

section
variable {m : Mod} {t wt : Nat}

/-- A fabric not yet wedged is marked wedged at the warden's tick. -/
theorem fabricWedge_first (h : m.sys.wd.fabWedged = false) :
    fabricWedge m t wt = logFault (modWd (tickWd (tickHvl m t) wt) (fun w => { w with fabWedged := true, wedgedAt := w.ticks }))
      0x15 0 fFabWedged 0 false 0 := by
  have hrun : (tickWd (tickHvl m t) wt).sys.wd.fabWedged = false := h
  simp only [fabricWedge, hrun, Bool.false_eq_true, if_false]

/-- A correctable word of a Crest die. -/
theorem crestEcc_corrected {die : Nat} {page : Option (Fin 16 × Nat)} {d : Block} (hd : die < 4) :
    crestEcc m die false page d =
      logFault (minc (spend m (fun x => x.kind == 1 && x.target == 0 && x.double == false)) (Ctr.eccCorr 0) 1) 0x0B die fEccCorr 1 false d := by
  simp only [crestEcc, Nat.not_le.mpr hd, Bool.not_false, if_false, if_true]

/-- The end of a scrub pass, 4 s of the warden's oscillator after the one before. -/
theorem crestScrub_due (h : wdPassed (tickWd (tickHvl m t) wt) m.sys.wd.scrubAt 4000000000 = true) :
    crestScrub m t wt = modWd (minc (tickWd (tickHvl m t) wt) Ctr.crestScrubPasses 1) (fun w => { w with scrubAt := w.ticks }) := by
  have hdue : wdPassed (tickWd (tickHvl m t) wt) (tickWd (tickHvl m t) wt).sys.wd.scrubAt 4000000000 = true := h
  simp only [crestScrub, hdue, Bool.not_true, Bool.false_eq_true, if_false]

/-- A correctable word of a Berm device. -/
theorem bermEcc_corrected {i : Nat} {again : Bool} {page : Option (Fin 16 × Nat)} {d : Block} (hi : i < 16) (hf : unitFenced m 0x02 i = false) :
    bermEcc m i t false again page d =
      logFault (minc (spend (tickHvl m t) (armHit 1 2 i false)) (Ctr.eccCorr 1) 1) 0x02 i fEccCorr 1 false d := by
  have hrun : unitFenced (spend (tickHvl m t) (armHit 1 2 i false)) 0x02 i = false := (unitFenced_congr (spend_fence _ _) _ _).trans hf
  simp only [bermEcc, hf, decide_eq_false (Nat.not_le.mpr hi), hrun, Bool.or_self, Bool.not_false, Bool.false_eq_true, if_false, if_true]

/-- The first mismatch of a sampler unit or pump within 1 ms: one retry. -/
theorem dupMismatch_first {fz : Fuses} {ty i : Nat} (hty : ty = 0x07 ∨ ty = 0x08) (hi : i < 16) (hf : unitFenced m ty i = false)
    (hn : (noteError (minc (tickHvl m t) (Ctr.dupMismatch ty) 1) (errKey 4 ty i) 1000000).1 < 2) :
    dupMismatch fz m ty i t =
      logFault (noteError (minc (tickHvl m t) (Ctr.dupMismatch ty) 1) (errKey 4 ty i) 1000000).2 ty i fDup 2 false 0 := by
  have hrun : unitFenced (tickHvl m t) ty i = false := hf
  have hunit : (ty == 0x07 || ty == 0x08) = true := by rcases hty with rfl | rfl <;> rfl
  simp only [dupMismatch, hunit, decide_eq_true hi, hrun, hn, Bool.not_false, Bool.and_self, Bool.or_true, Bool.not_true, Bool.false_eq_true,
    if_false, if_true]

/-- A packet of an HVL half that runs, recovered by link replay. -/
theorem hvlLaneCrc_replayed {half : Nat} (hh : half < 2) (hf : unitFenced m 0x05 half = false) :
    hvlLaneCrc m half = logFault m 0x05 half fLinkCrc 1 false 0 := by
  simp only [hvlLaneCrc, decide_eq_false (Nat.not_le.mpr hh), hf, Bool.or_self, Bool.false_eq_true, if_false]

/-- A read that timed out for a mailbox's accepted command ends that command with RETRY (R456). -/
theorem hvlReadTimeout_mailbox {half : Nat} {b : Box} (hbusy : (getMbx m b).busy = true) (hwait : (getMbx m b).started = false) :
    hvlReadTimeout m half none (some b) t = mbxDone (logFault (tickHvl m t) 0x05 (half % 2) fTimeout 0 false 0) b stRetry 0 := by
  have hbox : getMbx (tickHvl m t) b = getMbx m b := by cases b <;> rfl
  simp only [hvlReadTimeout, getMbx_logFault, hbox, hbusy, hwait, Bool.not_false, Bool.and_self, if_true]

/-- A ring entry's read that timed out is only logged: it is read again later (R456). -/
theorem hvlReadTimeout_ringEntry {half : Nat} :
    hvlReadTimeout m half none none t = logFault (tickHvl m t) 0x05 (half % 2) fTimeout 0 false 0 := rfl

end

/-- Settles O39: each event at work, then the lemma of the case in which it is masked. -/
theorem maskedFaultsAreLogged : Obligations.MaskedFaultsAreLogged := by
  unfold Obligations.MaskedFaultsAreLogged
  refine ⟨fun s hw => ⟨?residue, ?stall, ?port, ?wedge, ?actStore, ?crest, ?scrub, ?berm, ?dup, ?laneCrc⟩, ?readTimeout⟩
  case residue =>
    intro a ha hf
    rw [exec_residueMismatch_working hw, residueMismatch_masked ha hf]
  case stall =>
    intro p a sl key harr hrun hfirst hf hpf
    rw [exec_handshakeStall_working hw, handshakeStall_reissued harr hrun hfirst hf hpf]
  case port =>
    intro a t ha hf hn
    rw [exec_fabricPortError_working hw, fabricPortError_first ha hf hn]
  case wedge =>
    intro t wt h
    rw [exec_fabricWedge_working hw, fabricWedge_first h]
  case actStore =>
    intro a t d ha hf
    rw [exec_actStoreEcc_working hw, actStoreEcc_corrected ha hf]
  case crest =>
    intro die d hd
    rw [exec_crestEcc_working hw, crestEcc_corrected hd]
  case scrub =>
    intro t wt h
    rw [exec_crestScrub_working hw, crestScrub_due h]
  case berm =>
    intro i t d hi hf
    rw [exec_bermEcc_working hw, bermEcc_corrected hi hf]
  case dup =>
    intro ty i t hty hi hf hn
    rw [exec_dupMismatch_working hw, dupMismatch_first hty hi hf hn]
  case laneCrc =>
    intro half hh hf
    rw [exec_hvlLaneCrc_working hw, hvlLaneCrc_replayed hh hf]
  case readTimeout =>
    intro s half t b hw hbusy hwait
    rw [exec_hvlReadTimeout_working hw, exec_hvlReadTimeout_working hw, hvlReadTimeout_mailbox hbusy hwait, hvlReadTimeout_ringEntry]
    exact ⟨rfl, rfl⟩

end Sys2Proof.Machine

/-! PROOFS. Generation commands (O48): what each command of generation and each kernel job does when it starts, under the statement's hypotheses. -/

namespace Sys2Proof.Machine

-- What a generation command of a module at work does: its meaning, then what follows every effect.

section
variable {s : State} (hw : s.m.working = true) (p : Fin 16) (tag : Nat)
include hw

theorem exec_genStep_working (hv : HostGen) : exec (.genStep p tag hv) s = after s (genStep s.m p tag hv) :=
  work_on (f := fun _ m => genStep m p tag hv) hw

theorem exec_genPrefillAccept_working (hist : List Nat) (hv : HostGen) :
    exec (.genPrefillAccept p tag hist hv) s = after s (genPrefillAccept s.m p tag hist hv) :=
  work_on (f := fun _ m => genPrefillAccept m p tag hist hv) hw

theorem exec_genStop_working : exec (.genStop p tag) s = after s (genStop s.m p tag) :=
  work_on (f := fun _ m => genStop m p tag) hw

theorem exec_genStopJob_working : exec (.genStopJob p tag) s = after s (genStopJob s.m p tag) :=
  work_on (f := fun _ m => genStopJob m p tag) hw

theorem exec_genSpecConf_working : exec (.genSpecConf p tag) s = after s (genSpecConf s.m p tag) :=
  work_on (f := fun _ m => genSpecConf m p tag) hw

theorem exec_samplerConf_working (bulk : Block) : exec (.samplerConf p tag bulk) s = after s (samplerConf s.m p tag bulk) :=
  work_on (f := fun _ m => samplerConf m p tag bulk) hw

theorem exec_krnSubmit_working : exec (.krnSubmit p tag) s = after s (krnSubmit s.m p tag) :=
  work_on (f := fun _ m => krnSubmit m p tag) hw

end

-- Prefill state bound at once, and settings at a step boundary (R31, R236, R249).

/-- A pending token inside the vocabulary is bound when the session's core pages are there. -/
theorem applyPrefill_binds {m : Mod} {p : Fin 16} {t : Taken} {idx : Nat} {d : Desc} {hist : List Nat} {hv : HostGen}
    (htok : fld t.entry 28 0 32 < ((m.pol[p].slots.get d.slot).map (fun s => s.man.main.vocab)).getD 0)
    (hpages : ∀ n ∈ corePages m.pol[p] idx, ∀ g, getPage m p n = some g → present g = true ∧ g.st ≠ .lost) :
    applyPrefill m p t idx d hist hv =
      kick (complete (writeCore (modSess (setJob m idx t.job) p idx
        (fun s => bindPrefill s (fld t.entry 28 0 32) (fld t.entry 44 0 32) hist)) p idx) p t.tag
        (rSess (handleOf idx p.val d.gen) d.epoch d.tokens)) p hv := by
  simp only [applyPrefill, Nat.not_le.mpr htok, if_false]
  exact withPages_there hpages

theorem setAtBoundary_waits {m : Mod} {p : Fin 16} {idx : Nat} (h : stepInFlight m.pol[p] idx = true) (x : Setting) :
    setAtBoundary m p idx x = modSess m p idx (fun s => { s with settings := s.settings ++ [x] }) := by
  simp only [setAtBoundary, h, if_true]

theorem setAtBoundary_now {m : Mod} {p : Fin 16} {idx : Nat} (h : stepInFlight m.pol[p] idx = false) (x : Setting) :
    setAtBoundary m p idx x = writeCore (modSess m p idx (fun s => applySetting s x)) p idx := by
  simp only [setAtBoundary, h, Bool.false_eq_true, if_false]

-- What each command does when it starts.

section
variable {s : State} {p : Fin 16} {tag : Nat} {t : Taken} {idx : Nat} {d : Desc}

/-- GEN_STEP on an active session of its own joins the session's queue (R222, R223). -/
theorem genStep_joins (h : Takes s p tag 0x20 t) (hr : resolve (begun s.m p tag) p t.entry = .ok (idx, d)) (hbusy : busyOwn d = false)
    (himp : d.own ≠ .importing) (hlife : d.life = .active) (hok : genStepBad t.entry = none) (hv : HostGen) :
    genStep s.m p tag hv = kick (modPol (setJob (cacheUse (begun s.m p tag) p idx) idx t.job) p
      (fun q => { q with reqs := q.reqs ++ [newReq q t idx false] })) p hv := by
  have hown : (d.own == .importing) = false := beq_eq_false_iff_ne.mpr himp
  rw [genStep, takes_runs h]
  simp only [genStepGo, hr, hown, hbusy, hlife, hok, bne_self_eq_false, Bool.false_eq_true, if_false]

/-- GEN_PREFILL_ACCEPT without an OWN_EPOCH, on an owned session that holds no token and has none pending (R249). -/
theorem genPrefillAccept_owned {ss : Sess} (h : Takes s p tag 0x21 t) (hcount : fld t.entry 40 0 13 ≤ 4096) (hepoch : fld t.entry 24 0 32 = 0)
    (hf : findSid (begun s.m p tag) p.val (fld t.entry 16 0 64) = some (idx, d)) (hown : d.own = .owned) (htok : d.tokens = 0)
    (hs : (begun s.m p tag).pol[p].sess.get idx = some ss) (hpend : ss.gen.pendValid = false) (hlife : d.life = .active ∨ d.life = .parked)
    (hist : List Nat) (hv : HostGen) :
    genPrefillAccept s.m p tag hist hv =
      applyPrefill (cacheUse (begun s.m p tag) p idx) p t idx d (hist.take (fld t.entry 40 0 13)) hv := by
  have hnoImport : (importOf (begun s.m p tag).pol[p] (fld t.entry 16 0 64)).filter
      (fun i => fld t.entry 24 0 32 != 0 && i.h == fld t.entry 24 0 32) = none := by
    simp [hepoch]
  have howned : (some (idx, d)).filter
      (fun e => e.2.own == .owned && (fld t.entry 24 0 32 == 0 || e.2.epoch == fld t.entry 24 0 32)) = some (idx, d) := by
    simp [hown, hepoch]
  have hlive : (d.life == .active || d.life == .parked) = true := by
    rcases hlife with hlife | hlife <;> simp [hlife]
  rw [genPrefillAccept, takes_runs h]
  simp only [hf, howned, hnoImport, Nat.not_lt.mpr hcount, hs, Option.map_some, Option.getD_some, hpend, if_false]
  simp only [hepoch, htok, hlive, beq_self_eq_true, Bool.not_false, Bool.and_self, if_true]

/-- GEN_STOP of a live session (R225). -/
theorem genStop_live (h : TakesForm s p tag 0x22 (fun e => !flg e 28 0) t) (hl : liveSession (begun s.m p tag) p t.entry = .ok (idx, d)) :
    genStop s.m p tag = atBoundary (setJob (cacheUse (begun s.m p tag) p idx) idx t.job) p idx tag .stop (fun m => stopNow m p idx tag) := by
  rw [genStop, takesForm_runs h, onSession_live hl]

/-- GEN_STOP of a job that runs: it is to stop, and looks at its next pass at once (R186). -/
theorem genStopJob_running {j : Job} (h : TakesForm s p tag 0x22 (fun e => flg e 28 0) t) (hj : j ∈ (begun s.m p tag).pol[p].jobs)
    (htag : j.tag = fld t.entry 16 0 16) :
    genStopJob s.m p tag = formJob (modPol (begun s.m p tag) p (fun q => { q with
      jobs := updWhere q.jobs (fun j => j.tag == fld t.entry 16 0 16)
        (fun j => { j with stopping := true, stopTags := j.stopTags ++ [tag] }) })) p (fld t.entry 16 0 16) := by
  have hruns : (begun s.m p tag).pol[p].jobs.all (fun j => j.tag != fld t.entry 16 0 16) = false :=
    List.all_eq_false.mpr ⟨j, hj, by simp [htag]⟩
  rw [genStopJob, takesForm_runs h]
  simp only [hruns, Bool.false_eq_true, if_false]

/-- GEN_SPEC_CONF that nothing refuses: its setting, then its completion, once the core pages are there (R228, log entry 28). -/
theorem genSpecConf_live (h : Takes s p tag 0x23 t) (hl : liveSession (begun s.m p tag) p t.entry = .ok (idx, d))
    (hok : specBad t.entry (((cacheUse (begun s.m p tag) p idx).pol[p].slots.get d.slot).map Slot.man) = none) :
    genSpecConf s.m p tag = withPages (cacheUse (begun s.m p tag) p idx) p tag (corePages (cacheUse (begun s.m p tag) p idx).pol[p] idx) (fun m =>
      complete (setAtBoundary (setJob m idx t.job) p idx (.spec (fld t.entry 28 0 2) (flg t.entry 28 2) (fld t.entry 28 4 4) (fld t.entry 29 0 8)
        ((List.range (fld t.entry 29 0 8)).map (fun i => fld t.entry (32 + i) 0 8)))) p tag (rOk 0)) := by
  rw [genSpecConf, ringRow_onSession_live h hl]
  simp only [hok]

/-- SAMPLER_CONF without a bulk buffer that nothing refuses (R236, R237, log entry 28). -/
theorem samplerConf_noBulk (h : Takes s p tag 0x24 t) (hhost : fld t.entry 56 0 64 = 0)
    (hl : liveSession (begun s.m p tag) p t.entry = .ok (idx, d))
    (hok : sampBad t.entry ((((cacheUse (begun s.m p tag) p idx).pol[p].slots.get d.slot).map (fun s => s.man.main.vocab)).getD 0) none = none)
    (bulk : Block) :
    samplerConf s.m p tag bulk = withPages (cacheUse (begun s.m p tag) p idx) p tag (corePages (cacheUse (begun s.m p tag) p idx).pol[p] idx)
      (fun m => complete (setAtBoundary (setJob m idx t.job) p idx (.samp (sampOf t.entry) none)) p tag (rOk 0)) := by
  rw [samplerConf, ringRow_onSession_live h hl]
  simp only [hhost, beq_self_eq_true, Bool.true_or, if_true, Option.isNone_some, Bool.false_eq_true, if_false, hok]

/-- KRN_SUBMIT that nothing refuses: the job is queued, its slot's image kept (R184, R187). -/
theorem krnSubmit_queues {g : Prog} {row : Nat} (h : Takes s p tag 0x30 t) (hok : krnCheck (begun s.m p tag) p t.entry = .ok (g, row)) :
    krnSubmit s.m p tag = kick (modPol (keepImage (begun s.m p tag) p (fld t.entry 32 0 8)) p (fun q => { q with jobs := q.jobs ++ [
      { tag := tag, slot := fld t.entry 32 0 8, lc := !flg t.entry 33 0, draft := flg t.entry 33 1, items := fld t.entry 36 0 32,
        itemTokens := fld t.entry 40 0 32, done := 0, outSsa := fld t.entry 24 0 64, rowBytes := row, stopping := false, stopTags := [],
        out := [] }] })) p ⟨[], []⟩ := by
  rw [krnSubmit, takes_runs h]
  simp only [hok]

end

/-- Settles O48: each started command by the lemma of its row, the rest by what prefill, settings and missing pages do. -/
theorem generationCommands : Obligations.GenerationCommands := by
  unfold Obligations.GenerationCommands
  refine fun s p tag t => ⟨?step, ?prefill, ?binds, ?stop, ?stopJob, ?spec, ?sampler, ?pagesThere, ?pagesLost, ?submit, ?setting⟩
  case step =>
    intro idx d hv h hr hbusy himp hlife hok
    rw [exec_genStep_working h.1, genStep_joins h hr hbusy himp hlife hok]
  case prefill =>
    intro idx d ss hist hv h hcount hepoch hf hown htok hs hpend hlife
    rw [exec_genPrefillAccept_working h.1, genPrefillAccept_owned h hcount hepoch hf hown htok hs hpend hlife]
  case binds => exact fun m idx d hist hv htok hpages => applyPrefill_binds htok hpages
  case stop =>
    intro idx d h hl
    rw [exec_genStop_working h.1, genStop_live h hl]
  case stopJob =>
    intro j h hj htag
    rw [exec_genStopJob_working h.1, genStopJob_running h hj htag]
  case spec =>
    intro idx d h hl hok
    rw [exec_genSpecConf_working h.1, genSpecConf_live h hl hok]
  case sampler =>
    intro idx d bulk h hhost hl hok
    rw [exec_samplerConf_working h.1, samplerConf_noBulk h hhost hl hok]
  case pagesThere => exact fun m ns f hpages => withPages_there hpages
  case pagesLost => exact fun m ns f n g hn hg hlost => withPages_lost hn hg hlost
  case submit =>
    intro g row h hok
    rw [exec_krnSubmit_working h.1, krnSubmit_queues h hok]
  case setting => exact fun x idx => ⟨fun hstep => setAtBoundary_waits hstep x, fun hstep => setAtBoundary_now hstep x⟩

end Sys2Proof.Machine

/-! PROOFS. Events of generation (O49): strips, recall deadlines, forced passes, token-ring moderation and reseeding, in the case each statement names. -/

namespace Sys2Proof.Machine

-- What an event of generation does in a module at work: its meaning, then what follows every effect.

section
variable {s : State} (hw : s.m.working = true)
include hw

theorem exec_stripComplete_working (p : Fin 16) (a t : Nat) (o : StripOut) (hv : HostGen) :
    exec (.stripComplete p a t o hv) s = after s (stripDone s.m p a t o hv) :=
  work_on (f := fun _ m => stripDone m p a t o hv) hw

theorem exec_recallDeadline_working (p : Fin 16) (id t : Nat) (hv : HostGen) :
    exec (.recallDeadline p id t hv) s = after s (recallDeadline s.m p id t hv) :=
  work_on (f := fun _ m => recallDeadline m p id t hv) hw

theorem exec_forcedPass_working (p : Fin 16) (idx : Nat) (arrs : List Nat) (outs : List StripOut) (hv : HostGen) :
    exec (.forcedPass p idx arrs outs hv) s = after s (forcedPass s.m p idx (arrs.zip outs) hv) :=
  work_on (f := fun _ m => forcedPass m p idx (arrs.zip outs) hv) hw

theorem exec_tokenRingModTimer_working (p : Fin 16) (tag t : Nat) :
    exec (.tokenRingModTimer p tag t) s = after s (tokenRingModTimer s.m p tag t) :=
  work_on (f := fun _ m => tokenRingModTimer m p tag t) hw

theorem exec_drbgReseed_working (p : Fin 16) : exec (.drbgReseed p) s = after s (drbgReseed s.m p) :=
  work_on (f := fun _ m => drbgReseed m p) hw

theorem exec_entropyHealthFail_working : exec .entropyHealthFail s = after s (entropyHealthFail s.m) :=
  work_on (f := fun _ m => entropyHealthFail m) hw

end

section
variable {m : Mod} {p : Fin 16}

/-- A time that the polder counter has reached after a reading has passed. -/
theorem tickPol_passed {t time : Nat} (h : time ≤ max m.pol[p].clk t) : decide ((tickPol m p t).pol[p].clk < time) = false := by
  rw [Fin.getElem_fin, tickPol_pol_same]
  exact decide_eq_false (Nat.not_lt.mpr h)

-- Strips (R171, R172).

section
variable {a : Nat} {sl : ArrSlots} {key : StripKey} (harr : m.pol[p].arrays.get a = some sl) (hrun : sl.run = some key)
include harr hrun

/-- The running strip of an array that no cofferdam holds completes, and the array's next strip runs. -/
theorem stripComplete_runs (hf : arrayFenced m a = false) (hpf : m.pol[p].fenced = false) (t : Nat) (o : StripOut) (hv : HostGen) :
    stripComplete m p a t o hv =
      spill (kick (modPol (runStrip p a key o (tickPol m p t)) p (fun q => { q with arrays := q.arrays.upd a (fun z => { z with
        run := z.nxt, nxt := none, staged := z.staged.filter (fun e => e.1 != key) }) })) p hv) p := by
  have harr' : (tickPol m p t).pol[p].arrays.get a = some sl := by simpa using harr
  have hgo : (arrayFenced (tickPol m p t) a || (tickPol m p t).pol[p].fenced) = false := by
    rw [arrayFenced_congr (tickPol_fence m p t), hf]
    simpa using hpf
  simp only [stripComplete, harr', hrun, hgo, Bool.false_eq_true, if_false]

/-- A strip of a pass that serves no vector query is done when it has completed. -/
theorem stripDone_plain {t : Nat} {o : StripOut} {hv : HostGen}
    (hpass : ∀ x, passOf (stripComplete m p a t o hv).pol[p] key.pass = some x → x.vec = none) :
    stripDone m p a t o hv = stripComplete m p a t o hv := by
  have hkey : (m.pol[p].arrays.get a).bind ArrSlots.run = some key := by rw [harr, Option.bind_some, hrun]
  simp only [stripDone, hkey, Option.bind_some]
  cases hx : passOf (stripComplete m p a t o hv).pol[p] key.pass with
  | none => rfl
  | some x => simp only [Option.map_some, hpass x hx]

end

-- The recall deadline (R214, R215).

/-- A decode pass whose deadline has passed ends its unfinished selections, once. -/
theorem recallDeadline_due {id t : Nat} {x : Pass} (hx : passOf (tickPol m p t).pol[p] id = some x) (hopen : x.deadlineDone = false)
    (hdecode : x.job = none) (hdue : x.start + m.pol[p].recallCfg.deadlineUs * 1000 ≤ max m.pol[p].clk t) (hv : HostGen) :
    recallDeadline m p id t hv = kick (modPass (tickPol m p t) p id (fun x => { x with
      deadlineDone := true, seqs := x.seqs.map (deadlineSeq (tickPol m p t) p) })) p hv := by
  have hpassed : decide ((tickPol m p t).pol[p].clk < x.start + (tickPol m p t).pol[p].recallCfg.deadlineUs * 1000) = false :=
    tickPol_passed (by simpa using hdue)
  simp only [recallDeadline, hx, hopen, hdecode, hpassed, Option.isSome_none, Bool.or_self, Bool.false_eq_true, if_false]

-- Forced passes (R235).

section
variable {ns : List Nat} (h : ∀ n ∈ ns, ∀ g, getPage m p n = some g → present g = true ∧ g.st ≠ .lost)
include h

theorem anyLost_there : anyLost m p ns = false := by
  simp only [anyLost, List.any_eq_false]
  intro n hn
  cases hg : getPage m p n with
  | none => simp
  | some g => simp [(h n hn g hg).2]

theorem allPresent_there : allPresent m p ns = true := by
  simp only [allPresent, List.all_eq_true]
  intro n hn
  cases hg : getPage m p n with
  | none => rfl
  | some g => exact (h n hn g hg).1

end

/-- A forced pass runs and commits when its session can take it, an array serves the polder, its frames are taken and its pages are there; a
Sparse-Recall session has a valid query summary (R60, R209, log entry 70). -/
theorem forcedPass_runs {idx : Nat} {d : Desc} {ss : Sess} {sl : Slot} {toks : List Nat} {step : Nat} {left : List (Nat × List Nat)} {m1 : Mod}
    (hd : desc? m idx = some d) (hs : m.pol[p].sess.get idx = some ss) (hsl : m.pol[p].slots.get d.slot = some sl)
    (hreplay : takeReplay 8 ss.replay = (toks, step, left)) (htoks : toks ≠ []) (hown : d.own = .owned) (hpol : d.pol = p.val)
    (hpend : ss.gen.pendValid = true) (hpf : m.pol[p].fenced = false) (harrs : liveArrays m p ≠ []) (hwarm : d.sparse = false ∨ ss.qsValid = true)
    (hframes : takeStepFrames m p idx d toks.length = .ok m1) (hweights : weightsLost m1.pol[p] d.slot sl.fromCrest = false)
    (hpages : ∀ n ∈ forcedPages m1 p sl.man.main (forcedSeq idx (ss.gen.pendTok :: toks.dropLast) false []) ((m1.pol[p].sess.get idx).getD ss) d,
      ∀ g, getPage m1 p n = some g → present g = true ∧ g.st ≠ .lost) (outs : List (Nat × StripOut)) (hv : HostGen) :
    forcedPass m p idx outs hv =
      kick (runForced m1 p idx d sl.man.main sl (forcedSeq idx (ss.gen.pendTok :: toks.dropLast) false []) step toks left outs) p hv := by
  have hgo : (toks.isEmpty || d.own != .owned || d.pol != p.val || !ss.gen.pendValid || m.pol[p].fenced || (liveArrays m p).isEmpty) = false := by
    simp only [List.isEmpty_eq_false_iff.mpr htoks, hown, hpol, hpend, hpf, List.isEmpty_eq_false_iff.mpr harrs, bne_self_eq_false, Bool.not_true,
      Bool.or_self]
  have hcold : (d.sparse && !ss.qsValid) = false := by
    rcases hwarm with hwarm | hwarm <;> simp [hwarm]
  simp only [forcedPass, hd, hs, hsl, Option.bind_some, hreplay, hgo, hframes, hcold, anyLost_there hpages, hweights, allPresent_there hpages,
    Bool.or_self, Bool.not_true, Bool.false_eq_true, if_false]

-- Token rings and the random source (R241, R245).

/-- The oldest unsignalled entry of a token ring has waited MOD_US. -/
theorem tokenRingModTimer_due {tag t : Nat} {r : Req} (hr : reqOf m.pol[p] tag = some r) (hmod : r.modUs ≠ 0) (hunsig : r.unsig ≠ 0)
    (hdue : r.oldest + r.modUs * 1000 ≤ max m.pol[p].clk t) :
    tokenRingModTimer m p tag t = (
      let m1 := modReq (tickPol m p t) p tag (fun r => { r with unsig := 0 })
      polIrq (pincIf m1 p (polIrqOn m1 p r.vector) Ctr.ringIrq) p r.vector) := by
  have hr' : reqOf (tickPol m p t).pol[p] tag = some r := by simpa [reqOf] using hr
  have hgo : (r.modUs == 0 || r.unsig == 0 || decide ((tickPol m p t).pol[p].clk < r.oldest + r.modUs * 1000)) = false := by
    simp only [beq_eq_false_iff_ne.mpr hmod, beq_eq_false_iff_ne.mpr hunsig, tickPol_passed hdue, Bool.or_self]
  simp only [tokenRingModTimer, hr', hgo, Bool.false_eq_true, if_false]

theorem drbgReseed_due (hdue : 2 ^ 20 ≤ m.pol[p].drbg.reqs) (hok : m.entropyOk = true) :
    drbgReseed m p = pinc (reseed m p) p Ctr.drbgReseed 1 := by
  have hgo : (decide (2 ^ 20 ≤ m.pol[p].drbg.reqs) && m.entropyOk) = true := by rw [decide_eq_true hdue, hok]; rfl
  simp only [drbgReseed, hgo, if_true]

/-- A DRBG seeded from a healthy source has served no request. -/
theorem reseed_healthy_reqs (hok : m.entropyOk = true) : (reseed m p).pol[p].drbg.reqs = 0 := by
  simp [reseed, hok]

end

/-- Settles O49: each event at work, then the lemma of the case its hypotheses name. -/
theorem generationEvents : Obligations.GenerationEvents := by
  unfold Obligations.GenerationEvents
  refine fun s p hw => ⟨?strip, ?running, ?deadline, ?forced, ?moderation, ?reseeded, exec_entropyHealthFail_working hw⟩
  case strip =>
    intro a t o hv sl key harr hrun hf hpf
    refine ⟨stripComplete_runs harr hrun hf hpf t o hv, fun hgone => ?_, fun x hx hvec => ?_⟩
    · rw [exec_stripComplete_working hw, stripDone_plain harr hrun (fun x hx => absurd (hgone.symm.trans hx) nofun)]
    · rw [exec_stripComplete_working hw, stripDone_plain harr hrun (fun y hy => Option.some.inj (hx.symm.trans hy) ▸ hvec)]
  case running => exact fun a key o m => rfl
  case deadline =>
    intro id t hv x hx hopen hdecode hdue
    rw [exec_recallDeadline_working hw, recallDeadline_due hx hopen hdecode hdue]
  case forced =>
    intro idx arrs outs hv d ss sl toks step left m1 hd hs hsl hreplay htoks hown hpol hpend hpf harrs hwarm hframes hweights hpages
    rw [exec_forcedPass_working hw,
      forcedPass_runs hd hs hsl hreplay htoks hown hpol hpend hpf harrs hwarm hframes hweights hpages]
  case moderation =>
    intro tag t r hr hmod hunsig hdue
    rw [exec_tokenRingModTimer_working hw, tokenRingModTimer_due hr hmod hunsig hdue]
  case reseeded =>
    intro hdue hok
    refine ⟨?_, reseed_healthy_reqs hok⟩
    rw [exec_drbgReseed_working hw, drbgReseed_due hdue hok]

end Sys2Proof.Machine

/-! PROOFS. Model slots (O50): what loading, evicting, pinning and unpinning a slot's images do when they start, under the statement's hypotheses. -/

namespace Sys2Proof.Machine

-- What a model command of a module at work does: its meaning, then what follows every effect.

section
variable {s : State} (hw : s.m.working = true) (p : Fin 16) (tag : Nat)
include hw

theorem exec_modelLoad_working (man img : Block) :
    exec (.modelLoad p tag man img) s = after s (vaultUnlock (modelLoad s.m p tag man img) p) :=
  work_on (f := fun _ m => vaultUnlock (modelLoad m p tag man img) p) hw

theorem exec_modelEvict_working : exec (.modelEvict p tag) s = after s (modelEvict s.m p tag) :=
  work_on (f := fun _ m => modelEvict m p tag) hw

theorem exec_modelEvictCrest_working : exec (.modelEvictCrest p tag) s = after s (modelEvictCrest s.m p tag) :=
  work_on (f := fun _ m => modelEvictCrest m p tag) hw

theorem exec_modelPin_working : exec (.modelPin p tag) s = after s (modelPin s.m p tag) :=
  work_on (f := fun _ m => modelPin m p tag) hw

theorem exec_modelUnpin_working : exec (.modelUnpin p tag) s = after s (modelUnpin s.m p tag) :=
  work_on (f := fun _ m => modelUnpin m p tag) hw

end

-- What each command does when it starts.

section
variable {s : State} {p : Fin 16} {tag : Nat} {t : Taken}

/-- MODEL_LOAD of a manifest that passes its checks and names the digest of what was read (R160, R162, R163). -/
theorem modelLoad_verified {man img : Block} (h : Takes s p tag 0x31 t) (hload : loadBad (begun s.m p tag) p t.entry (manifestOf man) = none)
    (hman : manifestFail (manifestOf man) = none) (hdigest : imageDigest man img = (manifestOf man).main.digest) :
    modelLoad s.m p tag man img = (
      match imagePages (begun s.m p tag) p (.weights (fld t.entry 32 0 8)) .berm (imageFrames (manifestOf man)) with
      | .error tier => quotaEnd (begun s.m p tag) p tag tier
      | .ok m1 =>
        let m2 := modPol m1 p (fun q => { q with slots := q.slots.put (fld t.entry 32 0 8) (newSlot t.entry (manifestOf man) img) })
        if flg t.entry 33 0 || flg t.entry 33 1 then buildImage m2 p ⟨tag, fld t.entry 32 0 8, flg t.entry 33 1, true⟩
        else complete m2 p tag (rOk ((manifestOf man).main.imageBytes % 2 ^ 64))) := by
  have hsame : (imageDigest man img != (manifestOf man).main.digest) = false := bne_eq_false_iff_eq.mpr hdigest
  rw [modelLoad, takes_runs h]
  simp only [hload, hman, hsame, Bool.false_eq_true, if_false] <;> rfl

/-- MODEL_EVICT of a slot that nothing names and no command waits for frees both images (R166). -/
theorem modelEvict_unused (h : TakesForm s p tag 0x32 (fun e => !flg e 33 0) t) (hslot : fld t.entry 32 0 8 ≤ 31)
    (hopen : (begun s.m p tag).pol[p].sealed = false) (hhas : (begun s.m p tag).pol[p].slots.has (fld t.entry 32 0 8) = true)
    (hfree : slotInUse (begun s.m p tag) p (fld t.entry 32 0 8) = false)
    (hwaits : ∀ w ∈ (begun s.m p tag).pol[p].modelWaits, w.slot ≠ fld t.entry 32 0 8) :
    modelEvict s.m p tag = complete (freeSlot (begun s.m p tag) p (fld t.entry 32 0 8)) p tag
      (rOk (at8 8 (crestImageFrames (begun s.m p tag).pol[p] (fld t.entry 32 0 8) % 2 ^ 32) +
        at8 12 (((begun s.m p tag).pol[p].pages.filter (fun e => e.2.owner == .weights (fld t.entry 32 0 8))).length % 2 ^ 32))) := by
  have hnoWait : (begun s.m p tag).pol[p].modelWaits.any (fun w => w.slot == fld t.entry 32 0 8) = false := by
    simpa using hwaits
  rw [modelEvict, takesForm_runs h]
  simp only [Nat.not_lt.mpr hslot, decide_false, hopen, hhas, hfree, hnoWait, Bool.not_true, Bool.or_self, Bool.false_eq_true, if_false]

/-- MODEL_EVICT with CREST_ONLY marks a Crest image that no eviction has marked; the slot's step boundary drops it (R166). -/
theorem modelEvictCrest_marks {sl : Slot} (h : TakesForm s p tag 0x32 (fun e => flg e 33 0) t) (hslot : fld t.entry 32 0 8 ≤ 31)
    (hopen : (begun s.m p tag).pol[p].sealed = false) (hsl : (begun s.m p tag).pol[p].slots.get (fld t.entry 32 0 8) = some sl)
    (hcrest : sl.crest = true) (hmark : sl.evictCrest = none) :
    modelEvictCrest s.m p tag = slotBoundary (modPol (begun s.m p tag) p (fun q => { q with
      slots := q.slots.upd (fld t.entry 32 0 8) (fun x => { x with dropAtBoundary := true, evictCrest := some tag }) })) p
      (fld t.entry 32 0 8) := by
  rw [modelEvictCrest, takesForm_runs h]
  simp only [hsl, Nat.not_lt.mpr hslot, decide_false, hopen, hcrest, hmark, Option.isSome_none, Bool.not_true, Bool.or_self, Bool.false_eq_true,
    if_false]

/-- MODEL_PIN of a loaded slot builds its Crest image, then the commands that wait for room look again (R165, R187). -/
theorem modelPin_loaded (h : TakesForm s p tag 0x33 (fun e => flg e 33 0) t) (hslot : fld t.entry 32 0 8 ≤ 31)
    (hhas : (begun s.m p tag).pol[p].slots.has (fld t.entry 32 0 8) = true) :
    modelPin s.m p tag = retryWaits (buildImage (begun s.m p tag) p ⟨tag, fld t.entry 32 0 8, true, false⟩) p := by
  rw [modelPin, takesForm_runs h]
  simp only [Nat.not_lt.mpr hslot, decide_false, hhas, Bool.not_true, Bool.or_self, Bool.false_eq_true, if_false]

/-- MODEL_PIN with PIN 0 of a loaded slot: the frames it answers are those of an image that was pinned (R165). -/
theorem modelUnpin_loaded {sl : Slot} (h : TakesForm s p tag 0x33 (fun e => !flg e 33 0) t)
    (hsl : (begun s.m p tag).pol[p].slots.get (fld t.entry 32 0 8) = some sl) :
    modelUnpin s.m p tag = complete (pinImage (begun s.m p tag) p (fld t.entry 32 0 8) false) p tag
      (rOk (at8 8 ((if sl.pinned then crestImageFrames (begun s.m p tag).pol[p] (fld t.entry 32 0 8) else 0) % 2 ^ 32))) := by
  rw [modelUnpin, takesForm_runs h]
  simp only [hsl]

end

/-- Settles O50: each started command by the lemma of its row. -/
theorem modelCommands : Obligations.ModelCommands := by
  unfold Obligations.ModelCommands
  refine fun s p tag t => ⟨?load, ?evict, ?evictCrest, ?pin, ?unpin⟩
  case load =>
    intro man img mf h hload hman hdigest
    exact (exec_modelLoad_working h.1 p tag man img).trans
      (congrArg (fun m => after s (vaultUnlock m p)) (modelLoad_verified h hload hman hdigest))
  case evict =>
    intro h hslot hopen hhas hfree hwaits
    rw [exec_modelEvict_working h.1, modelEvict_unused h hslot hopen hhas hfree hwaits]
  case evictCrest =>
    intro sl h hslot hopen hsl hcrest hmark
    rw [exec_modelEvictCrest_working h.1, modelEvictCrest_marks h hslot hopen hsl hcrest hmark]
  case pin =>
    intro h hslot hhas
    rw [exec_modelPin_working h.1, modelPin_loaded h hslot hhas]
  case unpin =>
    intro sl h hsl
    rw [exec_modelUnpin_working h.1, modelUnpin_loaded h hsl]

end Sys2Proof.Machine

/-! PROOFS. The sampler unit (O60): each step of R239 keeps tokens of the row, a draw takes one of the tokens kept, and a step's tokens are cut at the
first that ends the request (R237). -/

namespace Sys2Proof.Machine

-- Sorting moves elements and changes none.

theorem insertBy_perm {α : Type} (lt : α → α → Bool) (x : α) (l : List α) : (insertBy lt x l).Perm (x :: l) := by
  induction l with
  | nil => exact .refl _
  | cons y t ih =>
    rw [insertBy]
    split
    · exact .refl _
    · exact (ih.cons y).trans (.swap x y t)

theorem foldl_insertBy_perm {α : Type} (lt : α → α → Bool) (l acc : List α) :
    (l.foldl (fun acc x => insertBy lt x acc) acc).Perm (l ++ acc) := by
  induction l generalizing acc with
  | nil => exact .refl _
  | cons x t ih => exact (ih _).trans (((insertBy_perm lt x acc).append_left t).trans List.perm_middle)

theorem sortBy_perm {α : Type} (lt : α → α → Bool) (l : List α) : (sortBy lt l).Perm l := by
  rw [sortBy]
  simpa using foldl_insertBy_perm lt l []

theorem sortDist_perm (l : List (Nat × F32)) : (sortDist l).Perm l := sortBy_perm _ l

/-- A list of tokens is made of another's and is no longer than it. -/
structure TokensOf (l k : List Nat) : Prop where
  subset : l ⊆ k
  length_le : l.length ≤ k.length

theorem TokensOf.trans {l k j : List Nat} (h : TokensOf l k) (hk : TokensOf k j) : TokensOf l j :=
  ⟨fun _ ht => hk.subset (h.subset ht), Nat.le_trans h.length_le hk.length_le⟩

theorem tokensOf_of_perm {l k : List (Nat × F32)} (h : l.Perm k) : TokensOf (l.map Prod.fst) (k.map Prod.fst) :=
  ⟨(h.map _).subset, Nat.le_of_eq (h.map _).length_eq⟩

theorem tokensOf_of_sublist {l k : List (Nat × F32)} (h : l.Sublist k) : TokensOf (l.map Prod.fst) (k.map Prod.fst) :=
  ⟨(h.map _).subset, (h.map _).length_le⟩

-- What the single steps of R239 do to the tokens of a list.

theorem nucleus_prefix (topP acc : F32) (l : List (Nat × F32)) : nucleus topP acc l <+: l := by
  induction l generalizing acc with
  | nil => exact List.prefix_refl _
  | cons e t ih =>
    simp only [nucleus]
    split
    · exact List.cons_prefix_cons.2 ⟨rfl, ih _⟩
    · exact List.cons_prefix_cons.2 ⟨rfl, List.nil_prefix⟩

@[simp] theorem softmax_length (n : Nat) (l : List F32) : (softmax n l).length = l.length := by
  simp [softmax, softExp]

@[simp] theorem renorm_tokens (l : List (Nat × F32)) : (renorm l).map Prod.fst = l.map Prod.fst := by
  simp [renorm, Function.comp_def]

/-- One step of `argmax`: the greater of the best so far and the next value, the earlier of two equal ones. -/
def keepGreater (best : Option (F32 × Nat)) (e : F32 × Nat) : Option (F32 × Nat) :=
  match best with
  | none => some e
  | some b => if f32Lt b.1 e.1 then some e else best

theorem argmax_eq (z : List F32) : argmax z = (z.zipIdx.foldl keepGreater none).elim 0 (·.2) := rfl

theorem keepGreater_eq_or (best : Option (F32 × Nat)) (e : F32 × Nat) : keepGreater best e = some e ∨ keepGreater best e = best := by
  cases best with
  | none => exact .inl rfl
  | some b =>
    rw [keepGreater]
    split
    · exact .inl rfl
    · exact .inr rfl

theorem foldl_keepGreater_pos_lt (z : List F32) : ∀ b ∈ z.zipIdx.foldl keepGreater none, b.2 < z.length := by
  refine List.foldlRecOn (motive := fun best => ∀ b ∈ best, b.2 < z.length) _ keepGreater (b := none) (by simp) (fun best hbest e he => ?_)
  rcases keepGreater_eq_or best e with heq | heq <;> rw [heq]
  · simpa using List.snd_lt_of_mem_zipIdx he
  · exact hbest

/-- The greatest value stands at a position of the list. -/
theorem argmax_lt {z : List F32} (h : z ≠ []) : argmax z < z.length := by
  have hpos := foldl_keepGreater_pos_lt z
  rw [argmax_eq]
  cases hbest : z.zipIdx.foldl keepGreater none with
  | none => exact List.length_pos_iff.2 h
  | some b => exact hpos b hbest

-- The parts of `distribution`, under names.

/-- A row's logits after steps 1 to 4 of R239. -/
def rowLogits (n vocab : Nat) (s : SampPage) (step : Option Nat) (hist : List Nat) (row : List F32) : List F32 :=
  (row.take vocab).zipIdx.map (fun e => freeNan n e.2 (adjust s step (lastN s.pr.window hist) e.2 e.1))

/-- The tokens that TOP_K leaves of a row's logits, with their logits by temperature. -/
def topTokens (s : SampPage) (z : List F32) : List (Nat × F32) :=
  let live := sortDist ((z.zipIdx.map (fun e => (e.2, f32Div e.1 s.pr.temp))).filter (fun e => e.2 != f32NegInf))
  if s.pr.topK == 0 then live else live.take s.pr.topK

/-- The tokens that TOP_P leaves of a list, with their probabilities. -/
def likelyTokens (n : Nat) (s : SampPage) (keep : List (Nat × F32)) : List (Nat × F32) :=
  let prob := sortDist ((keep.map (·.1)).zip (softmax n (keep.map (·.2))))
  if f32Lt s.pr.topP f32One then nucleus s.pr.topP 0#32 prob else prob

theorem rowLogits_length (n vocab : Nat) (s : SampPage) (step : Option Nat) (hist : List Nat) (row : List F32) :
    (rowLogits n vocab s step hist row).length = min vocab row.length := by
  simp [rowLogits]

/-- What a row that is sampled keeps: its greatest logit at temperature 0, else what TOP_K, TOP_P and MIN_P leave, renormalised. -/
theorem distribution_kept {n vocab : Nat} {s : SampPage} {step : Option Nat} {hist : List Nat} {row : List F32} {d : Dist}
    (h : distribution n vocab s step hist row = some d) :
    rowLogits n vocab s step hist row ≠ [] ∧
      (d.kept = [(argmax (rowLogits n vocab s step hist row), f32One)] ∨
        ∃ c, d.kept = renorm ((likelyTokens n s (topTokens s (rowLogits n vocab s step hist row))).filter c)) := by
  change (if (rowLogits n vocab s step hist row).all (fun x => x == f32NegInf) then none else
    if s.pr.temp.toNat % 2 ^ 31 == 0 then some _ else some _) = some d at h
  split at h
  next => cases h
  next hlive =>
    refine ⟨fun hnil => hlive (by simp [hnil]), ?_⟩
    split at h
    next => cases h; exact .inl rfl
    next => cases h; exact .inr ⟨_, rfl⟩

-- The tokens each part keeps: those it was given, some left out.

theorem topTokens_tokens (s : SampPage) (z : List F32) : TokensOf ((topTokens s z).map Prod.fst) (List.range z.length) := by
  have hlive := (tokensOf_of_perm (sortDist_perm
    ((z.zipIdx.map (fun e => (e.2, f32Div e.1 s.pr.temp))).filter (fun e => e.2 != f32NegInf)))).trans
    (tokensOf_of_sublist List.filter_sublist)
  have hall : (z.zipIdx.map (fun e => (e.2, f32Div e.1 s.pr.temp))).map Prod.fst = List.range z.length := by
    simp [Function.comp_def, List.range_eq_range']
  rw [← hall, topTokens]
  split
  · exact hlive
  · exact (tokensOf_of_sublist (List.take_sublist _ _)).trans hlive

theorem topTokens_length_le {s : SampPage} (h : s.pr.topK ≠ 0) (z : List F32) : (topTokens s z).length ≤ s.pr.topK := by
  rw [topTokens, if_neg (by simpa using h)]
  exact List.length_take_le _ _

theorem likelyTokens_tokens (n : Nat) (s : SampPage) (keep : List (Nat × F32)) :
    TokensOf ((likelyTokens n s keep).map Prod.fst) (keep.map Prod.fst) := by
  have hzip : ((keep.map Prod.fst).zip (softmax n (keep.map Prod.snd))).map Prod.fst = keep.map Prod.fst :=
    List.map_fst_zip (by simp)
  have hprob := tokensOf_of_perm (sortDist_perm ((keep.map Prod.fst).zip (softmax n (keep.map Prod.snd))))
  rw [hzip] at hprob
  rw [likelyTokens]
  split
  · exact (tokensOf_of_sublist (nucleus_prefix _ _ _).sublist).trans hprob
  · exact hprob

/-- What the three cuts and the renormalisation keep of a list of tokens. -/
theorem renorm_filter_likelyTokens_tokens (n : Nat) (s : SampPage) (keep : List (Nat × F32)) (c : Nat × F32 → Bool) :
    TokensOf ((renorm ((likelyTokens n s keep).filter c)).map Prod.fst) (keep.map Prod.fst) := by
  rw [renorm_tokens]
  exact (tokensOf_of_sublist List.filter_sublist).trans (likelyTokens_tokens n s keep)

section
variable {n vocab : Nat} {s : SampPage} {step : Option Nat} {hist : List Nat} {row : List F32} {d : Dist}
  (h : distribution n vocab s step hist row = some d)
include h

/-- Every kept token is a token of the row below VOCAB (R239). -/
theorem distribution_token_lt {e : Nat × F32} (he : e ∈ d.kept) : e.1 < vocab ∧ e.1 < row.length := by
  obtain ⟨hne, hkept⟩ := distribution_kept h
  rw [← Nat.lt_min, ← rowLogits_length n vocab s step hist row]
  rcases hkept with hkept | ⟨c, hkept⟩ <;> rw [hkept] at he
  · rw [List.mem_singleton.1 he]
    exact argmax_lt hne
  · exact List.mem_range.1
      (((renorm_filter_likelyTokens_tokens n s _ c).trans (topTokens_tokens s _)).subset (List.mem_map_of_mem he))

/-- TOP_K bounds the kept tokens where it is not 0 (R239). -/
theorem distribution_length_le (hk : s.pr.topK ≠ 0) : d.kept.length ≤ s.pr.topK := by
  obtain ⟨-, hkept | ⟨c, hkept⟩⟩ := distribution_kept h <;> rw [hkept]
  · exact Nat.one_le_iff_ne_zero.2 hk
  · have hle := (renorm_filter_likelyTokens_tokens n s (topTokens s (rowLogits n vocab s step hist row)) c).length_le
    simp only [List.length_map] at hle
    exact Nat.le_trans hle (topTokens_length_le hk _)

end

-- A draw takes a token of the list (step 13).

theorem pick_mem {u : Num} {acc : F32} {l : List (Nat × F32)} {t : Nat} (h : pick u acc l = some t) : ∃ e ∈ l, e.1 = t := by
  induction l generalizing acc with
  | nil => cases h
  | cons e l ih =>
    simp only [pick] at h
    split at h
    · exact ⟨e, List.mem_cons_self, Option.some.inj h⟩
    · obtain ⟨e', he', ht⟩ := ih h
      exact ⟨e', List.mem_cons_of_mem _ he', ht⟩

theorem pickFree_mem (n : Nat) (u : Num) {l : List (Nat × F32)} (hl : l ≠ []) : ∃ e ∈ l, e.1 = pickFree n u l := by
  rw [pickFree]
  cases hp : pick u 0#32 l with
  | some t => exact pick_mem hp
  | none =>
    have hi : Config.hint n % max 1 l.length < l.length := by
      rw [Nat.max_eq_right (List.length_pos_iff.2 hl)]
      exact Nat.mod_lt _ (List.length_pos_iff.2 hl)
    exact ⟨_, List.getElem_mem hi, by simp [List.getElem?_eq_getElem hi]⟩

theorem sample_greedy {m : Mod} {p : Fin 16} {d : Dist} (h : d.greedy = true) :
    sample m p d = (some ((d.kept.head?.map (·.1)).getD 0), m) :=
  if_pos h

/-- A token sampled above temperature 0 is drawn from the kept ones by a fresh word. -/
theorem sample_drawn {m m1 : Mod} {p : Fin 16} {d : Dist} {t : Nat} (hg : d.greedy = false) (h : sample m p d = (some t, m1)) :
    ∃ w, t = pickFree m.free (wordNum w) d.kept := by
  rw [sample, hg, if_neg Bool.false_ne_true] at h
  split at h
  next => cases h
  next w _ _ => cases h; exact ⟨w, rfl⟩

theorem sample_mem {m m1 : Mod} {p : Fin 16} {d : Dist} {t : Nat} (hne : d.kept ≠ []) (h : sample m p d = (some t, m1)) :
    ∃ e ∈ d.kept, e.1 = t := by
  cases hg : d.greedy with
  | true =>
    rw [sample_greedy hg, List.head?_eq_some_head hne] at h
    cases h
    exact ⟨_, List.head_mem hne, rfl⟩
  | false =>
    obtain ⟨w, rfl⟩ := sample_drawn hg h
    exact pickFree_mem _ _ hne

-- The cut of a step's tokens (R237).

/-- The entry emitted for a token: its flags and, where it ends the request, END. -/
def emitOf (eos : Nat) (stops : List (List Nat)) (left : Nat) (sofar : List Nat) (a : Nat × Nat × Bool) : Emit :=
  let e := eos != 0xFFFFFFFF && a.1 == eos
  let st := stopHit stops (sofar ++ [a.1])
  { tok := a.1, node := a.2.1, draft := a.2.2, eos := e, stop := st,
    last := if left ≤ 1 then some 1 else if e then some 2 else if st.isSome then some 3 else none }

section
variable (eos : Nat) (stops : List (List Nat)) (left : Nat) (sofar : List Nat) (a : Nat × Nat × Bool) (l : List (Nat × Nat × Bool))

theorem cut_cons : cut eos stops left sofar (a :: l) =
    if (emitOf eos stops left sofar a).last.isSome then [emitOf eos stops left sofar a]
    else emitOf eos stops left sofar a :: cut eos stops (left - 1) (sofar ++ [a.1]) l := rfl

@[simp] theorem emitOf_tok : (emitOf eos stops left sofar a).tok = a.1 := rfl

/-- A token that does not end the request leaves room before MAX_TOKENS. -/
theorem one_lt_of_emitOf_last (h : ¬ (emitOf eos stops left sofar a).last.isSome) : 1 < left :=
  Nat.lt_of_not_le fun hle => h (by simp [emitOf, hle])

theorem cut_length_le (hleft : 1 ≤ left) : (cut eos stops left sofar l).length ≤ left := by
  induction l generalizing left sofar with
  | nil => exact Nat.zero_le _
  | cons a l ih =>
    rw [cut_cons]
    split
    next => exact hleft
    next hgo =>
      have hroom := one_lt_of_emitOf_last eos stops left sofar a hgo
      have hrest := ih (left - 1) (sofar ++ [a.1]) (by omega)
      rw [List.length_cons]
      omega

theorem cut_tok_prefix : (cut eos stops left sofar l).map Emit.tok <+: l.map (·.1) := by
  induction l generalizing left sofar with
  | nil => exact List.prefix_refl _
  | cons a l ih =>
    rw [cut_cons]
    split
    · exact List.cons_prefix_cons.2 ⟨rfl, List.nil_prefix⟩
    · exact List.cons_prefix_cons.2 ⟨rfl, ih _ _⟩

/-- Only the last token of the cut ends the request. -/
theorem cut_dropLast_last {x : Emit} (hx : x ∈ (cut eos stops left sofar l).dropLast) : x.last = none := by
  induction l generalizing left sofar with
  | nil => cases hx
  | cons a l ih =>
    rw [cut_cons] at hx
    split at hx
    next => cases hx
    next hgo =>
      cases hrest : cut eos stops (left - 1) (sofar ++ [a.1]) l with
      | nil => simp [hrest] at hx
      | cons y ys =>
        rw [hrest, List.dropLast_cons_cons, ← hrest] at hx
        rcases List.mem_cons.1 hx with rfl | hx
        · exact Option.not_isSome_iff_eq_none.1 hgo
        · exact ih _ _ hx

end

/-- Settles O60: what a row keeps by the token lists of R239's steps, what is drawn by step 13, and the cut by induction on the step's tokens. -/
theorem samplingStaysWithinTheRow : Obligations.SamplingStaysWithinTheRow := by
  unfold Obligations.SamplingStaysWithinTheRow
  refine ⟨?row, ?greedy, ?drawn, ?cut⟩
  case row => exact fun n vocab s step hist row d h => ⟨fun e he => distribution_token_lt h he, distribution_length_le h⟩
  case greedy => exact fun m p d => sample_greedy
  case drawn => exact fun m m1 p d t => sample_mem
  case cut =>
    exact fun eos stops left sofar l hleft =>
      ⟨cut_length_le eos stops left sofar l hleft, cut_tok_prefix eos stops left sofar l, fun _ => cut_dropLast_last eos stops left sofar l⟩

end Sys2Proof.Machine

/-! PROOFS. Vector updates and queries (O54): what each command does when it starts, when the update at the head of a list commits, and what the events
of queues, visits and deadlines do, in the case each statement names. -/

namespace Sys2Proof.Machine

-- What a vector row of a module at work does: its meaning, then what follows every effect.

section
variable {s : State} (hw : s.m.working = true) (p : Fin 16)
include hw

theorem exec_vecDefine_working (tag : Nat) (blk cents : Block) : exec (.vecDefine p tag blk cents) s = after s (vecDefine s.m p tag blk cents) :=
  work_on (f := fun _ m => vecDefine m p tag blk cents) hw

theorem exec_vecInsert_working (tag : Nat) (recs : Block) : exec (.vecInsert p tag recs) s = after s (vecInsert s.m p tag recs) :=
  work_on (f := fun _ m => vecInsert m p tag recs) hw

theorem exec_vecDelete_working (tag : Nat) : exec (.vecDelete p tag) s = after s (vecDelete s.m p tag) :=
  work_on (f := fun _ m => vecDelete m p tag) hw

theorem exec_vecBuild_working (tag : Nat) (recs : Block) : exec (.vecBuild p tag recs) s = after s (vecBuild s.m p tag recs) :=
  work_on (f := fun _ m => vecBuild m p tag recs) hw

theorem exec_vecDropList_working (tag : Nat) : exec (.vecDropList p tag) s = after s (vecDropList s.m p tag) :=
  work_on (f := fun _ m => vecDropList m p tag) hw

theorem exec_vecDropIndex_working (tag : Nat) : exec (.vecDropIndex p tag) s = after s (vecDropIndex s.m p tag) :=
  work_on (f := fun _ m => vecDropIndex m p tag) hw

theorem exec_vecCompact_working (tag : Nat) : exec (.vecCompact p tag) s = after s (vecCompact s.m p tag) :=
  work_on (f := fun _ m => vecCompact m p tag) hw

theorem exec_sealRetry_working : exec (.sealRetry p) s = after s (sealRetry s.m p) :=
  work_on (f := fun _ m => sealRetry m p) hw

theorem exec_vecQuery_working (tag : Nat) (blk : Block) : exec (.vecQuery p tag blk) s = after s (vecQuery s.m p tag blk) :=
  work_on (f := fun _ m => vecQuery m p tag blk) hw

theorem exec_batchTimer_working (t : Nat) : exec (.batchTimer p t) s = after s (startVisits (tickPol s.m p t) p) :=
  work_on (f := fun _ m => batchTimer m p t) hw

theorem exec_visitEnd_working (id t : Nat) (bad : List Nat) : exec (.visitEnd p id t bad) s = after s (visitEnd s.m p id t bad) :=
  work_on (f := fun _ m => visitEnd m p id t bad) hw

theorem exec_queryDeadline_working (tag t : Nat) : exec (.queryDeadline p tag t) s = after s (queryDeadline s.m p tag t) :=
  work_on (f := fun _ m => queryDeadline m p tag t) hw

end

-- The pages a query and a visit read before all others.

/-- The pages of an index's centroid table. -/
def centroidPages (x : VIndex) : List Nat := (List.range (cdiv (x.d.lists * (x.d.codeBits / 8)) 65536)).map (fun k => x.centPg + k)

/-- The pages of the tables that lead a visit to its list: list table, segment table, tombstones. -/
def visitTables (q : Polder) (v : VVisit) (x : VIndex) : List Nat :=
  [x.listPg + 64 * v.list / 65536] ++ (segTabPage q v.index x v.list).toList ++ (listOf x v.list).tombPage.toList

theorem any_pageLost_false {q : Polder} {ns : List Nat} (h : ∀ n ∈ ns, pageLost q n = false) : ns.any (pageLost q) = false :=
  List.any_eq_false.mpr fun n hn => ne_true_of_eq_false (h n hn)

-- What each command does when it starts.

section
variable {s : State} {p : Fin 16} {tag : Nat} {t : Taken}

/-- DEFINE of a new index whose definition is good places its objects, or is refused for want of room (R253 to R256). -/
theorem vecDefine_new {blk : Block} (h : TakesForm s p tag 0x43 (fun e => fld e 33 0 2 == 0) t) (hopen : (begun s.m p tag).pol[p].sealed = false)
    (hnew : idxOf (begun s.m p tag).pol[p] (fld t.entry 32 0 3) = none) (hgood : defBad (defOf blk) = false) (cents : Block) :
    vecDefine s.m p tag blk cents = (
      match placeIndex (begun s.m p tag) p (fld t.entry 32 0 3) (defOf blk) with
      | .error tier => quotaEnd (begun s.m p tag) p tag tier
      | .ok (c, l, r, m1) => complete (modVec m1 p (fun v => { v with
          idx := v.idx.put (fld t.entry 32 0 3) (newIndex (defOf blk) cents c l r) })) p tag (updRes 0 0 0)) := by
  rw [vecDefine, takesForm_runs h]
  simp only [hopen, hnew, hgood, Option.isSome_none, Bool.false_eq_true, if_false] <;> rfl

/-- DROP_INDEX of an index that no query names ends none of them (R267). -/
theorem vecDropIndex_unqueried {i : Nat} {x : VIndex} (h : TakesForm s p tag 0x43 (fun e => fld e 33 0 2 == 3) t)
    (hi : vecIndex (begun s.m p tag) p t.entry = .ok (i, x)) (hfree : ∀ z ∈ (begun s.m p tag).pol[p].vec.queries, z.index ≠ i) :
    vecDropIndex s.m p tag = settleDrop (modIdx (begun s.m p tag) p i (fun x => { x with dropping := some tag })) p i := by
  have hnone : ((modIdx (begun s.m p tag) p i (fun x => { x with dropping := some tag })).pol[p].vec.queries.filter
      (fun z => z.index == i && !z.started)) = [] := by
    rw [List.filter_eq_nil_iff]
    intro z hz
    have hz' : z ∈ (begun s.m p tag).pol[p].vec.queries := by simpa [modIdx, modVec] using hz
    simp [hfree z hz']
  rw [vecDropIndex, takesForm_runs h]
  simp only [hi, hnone, List.map_nil, List.foldl_nil]

section
variable {i l : Nat} {x : VIndex} (hl : vecList (begun s.m p tag) p t.entry = .ok (i, x, l))
include hl

/-- VEC_INSERT of at most 65,536 records that have serials and room in the module puts its plan on the way (R262). -/
theorem vecInsert_planned {recs : Block} {m1 : Mod} (h : Takes s p tag 0x41 t) (hcount : fld t.entry 40 0 32 ≤ 65536)
    (hserial : (listOf x l).next + fld t.entry 40 0 32 ≤ 2 ^ 32 - 1)
    (hroom : (begun s.m p tag).ctr.rd Ctr.itemsLive + pendingItems (begun s.m p tag) + fld t.entry 40 0 32 ≤ 200000000000)
    (hplan : insPlan (begun s.m p tag) p i x l tag (fld t.entry 40 0 32) (recsOf x.d (fld t.entry 40 0 32) recs) = .ok m1) :
    vecInsert s.m p tag recs = settleList m1 p i l := by
  rw [vecInsert, takes_runs h]
  simp only [hl, Nat.not_lt.mpr hcount, Nat.not_lt.mpr hserial, Nat.not_lt.mpr hroom, hplan, decide_false, Bool.or_self, Bool.false_eq_true, if_false]

/-- VEC_BUILD_LIST with ACTION BUILD, within the same bounds for at most 16,777,216 records (R267). -/
theorem vecBuild_planned {recs : Block} {m1 : Mod} (h : TakesForm s p tag 0x43 (fun e => fld e 33 0 2 == 1) t)
    (hcount : fld t.entry 40 0 32 ≤ 16777216) (hserial : (listOf x l).next + fld t.entry 40 0 32 ≤ 2 ^ 32 - 1)
    (hroom : (begun s.m p tag).ctr.rd Ctr.itemsLive + pendingItems (begun s.m p tag) + fld t.entry 40 0 32 ≤ 200000000000)
    (hplan : buildPlan (begun s.m p tag) p i x l tag (fld t.entry 40 0 32) (recsOf x.d (fld t.entry 40 0 32) recs) = .ok m1) :
    vecBuild s.m p tag recs = settleList m1 p i l := by
  rw [vecBuild, takesForm_runs h]
  simp only [hl, Nat.not_lt.mpr hcount, Nat.not_lt.mpr hserial, Nat.not_lt.mpr hroom, hplan, decide_false, Bool.or_self, Bool.false_eq_true, if_false]

/-- VEC_DELETE of at most 65,536 serials whose tombstone finds room beside those of the list (R263). -/
theorem vecDelete_planned {m1 : Mod} (h : Takes s p tag 0x42 t) (hcount : fld t.entry 44 0 32 ≤ 65536)
    (htombs : (listOf x l).tombs.length + ((listOf x l).upds.filter (fun u => u.kind == .del)).length + 1 ≤ 4096)
    (hplan : delPlan (begun s.m p tag) p i x l tag (fld t.entry 40 0 32) (fld t.entry 44 0 32) = .ok m1) :
    vecDelete s.m p tag = settleList m1 p i l := by
  rw [vecDelete, takes_runs h]
  simp only [hl, Nat.not_lt.mpr hcount, Nat.not_lt.mpr htombs, hplan, if_false]

/-- VEC_BUILD_LIST with ACTION DROP_LIST whose entry the index log takes (R267). -/
theorem vecDropList_logged {us : List Nat} {m1 : Mod} (h : TakesForm s p tag 0x43 (fun e => fld e 33 0 2 == 2) t)
    (hlog : logAppend (begun s.m p tag) p i ⟨l, false, 0, nextVer (listOf x l), 64⟩ = .ok (us, m1)) :
    vecDropList s.m p tag =
      settleList (modList m1 p i l (fun y => { y with upds := y.upds ++ [⟨some tag, .drop, us, 0, 0, []⟩] })) p i l := by
  rw [vecDropList, takesForm_runs h]
  simp only [hl, hlog]

/-- VEC_COMPACT that names one list queues its compaction there (R260, R266). -/
theorem vecCompact_oneList (h : Takes s p tag 0x44 t) (hone : fld t.entry 36 0 32 ≠ 0xFFFFFFFF) :
    vecCompact s.m p tag =
      settleList (modList (modIdx (begun s.m p tag) p i (fun x => { x with alls := x.alls ++ [⟨tag, [l], true, 0, 0⟩] })) p i l
        (fun y => { y with upds := y.upds ++ [⟨some tag, .compact, [], 0, 0, []⟩] })) p i l := by
  have hnotAll : (fld t.entry 36 0 32 == 0xFFFFFFFF) = false := beq_eq_false_iff_ne.mpr hone
  rw [vecCompact, takes_runs h]
  simp only [hnotAll, hl, Except.map, Bool.not_false, List.isEmpty_cons, Bool.false_eq_true, if_false, List.foldl_cons, List.foldl_nil]

end

/-- VEC_QUERY that nothing refuses, with its centroid table readable, is ranked by a strip pass (R270 to R275). -/
theorem vecQuery_ranked {blk : Block} {i : Nat} {x : VIndex} (h : Takes s p tag 0x40 t)
    (hi : vecIndex (begun s.m p tag) p t.entry = .ok (i, x)) (hgood : queryBad t.entry x (qblockOf x.d blk) = none)
    (hread : ∀ n ∈ centroidPages x, pageLost (begun s.m p tag).pol[p] n = false) :
    vecQuery s.m p tag blk = (
      let z := newQuery tag t.entry i (qblockOf x.d blk) (begun s.m p tag).pol[p].clk
      vecPass ((centroidPages x).foldl (fun m n => accessPage m p n)
        (modVec (begun s.m p tag) p (fun v => { v with queries := v.queries ++ [z] }))) p z (some i)
        (cdiv x.d.lists 64 * cdiv x.d.codeBits 4096 * 64) 1) := by
  unfold centroidPages at hread ⊢
  rw [vecQuery, takes_runs h]
  simp only [hi, hgood, any_pageLost_false hread, Bool.false_eq_true, if_false]

end

-- Seals and commits (R261, R262, R265).

section
variable {m : Mod} {p : Fin 16} {i l : Nat} {x : VIndex}

theorem sealRetry_oneList {y : VList} (hidx : m.pol[p].vec.idx = [(i, x)]) (hlists : x.lists = [(l, y)]) : sealRetry m p = startSeals m p i l := by
  simp only [sealRetry, hidx, hlists, List.map_cons, List.map_nil, List.foldl_cons, List.foldl_nil]

section
variable {u : VUpd} {rest : List VUpd} (hi : idxOf m.pol[p] i = some x) (hupds : (listOf x l).upds = u :: rest)
include hi hupds

/-- An insert whose units are all acknowledged commits: it leaves the queue, the list's version rises by one, its command hears of it, and
the seals that now can start do so. -/
theorem commitHead_insert (hkind : u.kind = .ins) (hacked : ∀ k ∈ u.units, unitAcked m k = true) :
    commitHead m p i l = (true, startSeals (tell (liveAdd (pinc (modList (modList m p i l (fun y => { y with upds := rest })) p i l
      (fun y => { y with ver := y.ver + 1, committed := y.committed + u.count })) p Ctr.vecInserted u.count) u.count) p u.tag
      (updRes u.first ((listOf x l).ver + 1) u.count)) p i l) := by
  have hall : u.units.all (unitAcked m) = true := List.all_eq_true.mpr hacked
  simp only [commitHead, hi, hupds, hall, hkind, Bool.not_true, Bool.false_eq_true, if_false]

/-- An update with a unit not yet acknowledged stays at the head of its list. -/
theorem commitHead_waits (hwait : ∃ k ∈ u.units, unitAcked m k = false) : commitHead m p i l = (false, m) := by
  have hnotAll : u.units.all (unitAcked m) = false := List.all_eq_false.mpr (by simpa using hwait)
  simp only [commitHead, hi, hupds, hnotAll, Bool.not_false, if_true]

end

end

-- Visits (R276 to R281).

section
variable {m : Mod} {p : Fin 16}

theorem nextQueue_none {q : Polder} (h : ∀ e ∈ q.vec.queues, queueReady q e.1 e.2 = false) : nextQueue q = none := by
  have hready : q.vec.queues.filter (fun e => queueReady q e.1 e.2) = [] :=
    List.filter_eq_nil_iff.mpr fun e he => ne_true_of_eq_false (h e he)
  simp only [nextQueue, hready, List.filter_nil, List.isEmpty_nil, if_true, List.foldl_nil]

theorem startVisits_noneReady (h : ∀ e ∈ m.pol[p].vec.queues, queueReady m.pol[p] e.1 e.2 = false) : startVisits m p = m := by
  simp only [startVisits, startVisitsN, nextQueue_none h, ite_self]

theorem startVisits_fenced (h : m.pol[p].fenced = true) : startVisits m p = m := if_pos h

/-- The end of a visit that served no query and scanned no segment, with its tables readable: it is counted, and the next visits start. -/
theorem visitEnd_empty {id t : Nat} {v : VVisit} {x : VIndex} (hv : (tickPol m p t).pol[p].vec.visits.find? (fun v => v.id == id) = some v)
    (hopen : m.pol[p].fenced = false) (hx : idxOf (tickPol m p t).pol[p] v.index = some x) (hqueries : v.queries = []) (hsegs : v.segs = [])
    (htail : v.tail = []) (hread : ∀ n ∈ visitTables (tickPol m p t).pol[p] v x, pageLost (tickPol m p t).pol[p] n = false) (bad : List Nat) :
    visitEnd m p id t bad = settleIndex (vecSweep (startVisits (pinc (pinc (pinc (modVec (tickPol m p t) p
      (fun w => { w with visits := w.visits.filter (fun z => z.id != id) })) p Ctr.visits 1) p Ctr.visitQueries 0) p Ctr.scanRecords 0) p) p v.index)
      p v.index := by
  have hopen' : (tickPol m p t).pol[p].fenced = false := by simpa using hopen
  unfold visitTables at hread
  simp only [visitEnd, hv, hopen', hx, any_pageLost_false hread, hqueries, hsegs, htail, Bool.false_eq_true, if_false, List.filter_nil, List.flatMap_nil,
    List.append_nil, List.length_nil, List.foldl_nil]

/-- A query that waits in queues at its deadline leaves them, and its round may be over (R280). -/
theorem queryDeadline_due {tag t : Nat} {z : VQuery} {d : Nat} (hz : queryOf (tickPol m p t).pol[p] tag = some z) (hd : z.deadline = some d)
    (hdue : d ≤ max m.pol[p].clk t) (hphase : z.phase = .visiting) (hqueued : z.queued ≠ []) :
    queryDeadline m p tag t = settleIndex (roundOver (modVec (modQuery (tickPol m p t) p tag
      (fun z => { z with unvisited := true, queued := [] })) p (fun v => { v with
        queues := (v.queues.map (fun e => (e.1, e.2.filter (fun w => w.1 != tag)))).filter (fun e => !e.2.isEmpty) })) p tag) p z.index := by
  have hgo : (z.deadline.elim true (fun d => decide ((tickPol m p t).pol[p].clk < d)) || z.phase != .visiting || z.queued.isEmpty) = false := by
    simp only [hd, Option.elim_some, tickPol_passed hdue, hphase, bne_self_eq_false, List.isEmpty_eq_false_iff.mpr hqueued, Bool.or_self]
  simp only [queryDeadline, hz, hgo, Bool.false_eq_true, if_false]

end

/-- Without filter and bound every record examined is found, and takes its place among the candidates (R277). -/
theorem examine_unfiltered (d : VDef) (l : Nat) {z : VQuery} (it : VItem) (hfilter : z.filter = none) (hdist : z.maxDist = 0xFFFF) :
    examine d l z it = { z with found := z.found + 1, heap := (insertBy hitLt
      ⟨hamming d z.blk.code it.r.code, l, it.serial, it.r.id, it.rslot⟩ z.heap).take z.keep } := by
  simp only [examine, hfilter, hdist, Option.elim_none, bne_self_eq_false, Bool.false_and, Bool.false_eq_true, if_false]

/-- Settles O54: each started command and each event at work, then the lemma of the case its hypotheses name. -/
theorem vectorCommands : Obligations.VectorCommands := by
  unfold Obligations.VectorCommands
  refine ⟨fun s p tag t => ⟨?define, ?insert, ?delete, ?build, ?dropList, ?dropIndex, ?compact, ?sealed, ?commits, ?waits⟩,
    fun s p hw => ⟨?query, exec_batchTimer_working hw p, fun m => startVisits_noneReady, fun m => startVisits_fenced, ?visitEnd, ?deadline, ?examined⟩⟩
  case define =>
    intro blk cents d h hopen hnew hgood
    exact (exec_vecDefine_working h.1 p tag blk cents).trans (congrArg (after s) (vecDefine_new h hopen hnew hgood cents))
  case insert =>
    intro recs i x l m1 h hl hcount hserial hroom hplan
    rw [exec_vecInsert_working h.1, vecInsert_planned hl h hcount hserial hroom hplan]
  case delete =>
    intro i x l m1 h hl hcount htombs hplan
    rw [exec_vecDelete_working h.1, vecDelete_planned hl h hcount htombs hplan]
  case build =>
    intro recs i x l m1 h hl hcount hserial hroom hplan
    rw [exec_vecBuild_working h.1, vecBuild_planned hl h hcount hserial hroom hplan]
  case dropList =>
    intro i x l us m1 h hl hlog
    rw [exec_vecDropList_working h.1, vecDropList_logged hl h hlog]
  case dropIndex =>
    intro i x h hi hfree
    rw [exec_vecDropIndex_working h.1, vecDropIndex_unqueried h hi hfree]
  case compact =>
    intro i x l h hone hl
    rw [exec_vecCompact_working h.1, vecCompact_oneList hl h hone]
  case sealed =>
    intro i x l y hw hidx hlists
    rw [exec_sealRetry_working hw, sealRetry_oneList hidx hlists]
  case commits => exact fun i x l u rest hi hupds hkind hacked => commitHead_insert hi hupds hkind hacked
  case waits => exact fun i x l u rest hi hupds hwait => commitHead_waits hi hupds hwait
  case query =>
    intro tag t blk i x m z cents h hi hgood hread
    exact (exec_vecQuery_working hw p tag blk).trans (congrArg (after s) (vecQuery_ranked h hi hgood hread))
  case visitEnd =>
    intro id t bad v x hv hopen hx hqueries hsegs htail hread
    rw [exec_visitEnd_working hw, visitEnd_empty hv hopen hx hqueries hsegs htail hread]
  case deadline =>
    intro tag t z d hz hd hdue hphase hqueued
    rw [exec_queryDeadline_working hw, queryDeadline_due hz hd hdue hphase hqueued]
  case examined =>
    intro d l z it hfilter hdist
    rw [examine_unfiltered d l it hfilter hdist]
    exact ⟨rfl, List.length_take_le _ _, rfl⟩

end Sys2Proof.Machine

/-! PROOFS. Checkpoints and replicas (O55): what each started checkpoint command, each event of a copy, a restore or a reclaim, and each replica message
does, case by case. -/

namespace Sys2Proof.Machine

-- What a checkpoint row of a module at work does: its meaning, then what follows every effect.

section
variable {s : State} (hw : s.m.working = true) (p : Fin 16)
include hw

theorem exec_ckptBegin_working (tag : Nat) : exec (.ckptBegin p tag) s = after s (ckptBegin s.m p tag) :=
  work_on (f := fun _ m => ckptBegin m p tag) hw

theorem exec_ckptExport_working (tag : Nat) : exec (.ckptExport p tag) s = after s (ckptExport s.m p tag) :=
  work_on (f := fun _ m => ckptExport m p tag) hw

theorem exec_ckptCommit_working (tag : Nat) : exec (.ckptCommit p tag) s = after s (ckptCommit s.m p tag) :=
  work_on (f := fun _ m => ckptCommit m p tag) hw

theorem exec_ckptRestore_working (tag : Nat) (stream : Block) : exec (.ckptRestore p tag stream) s = after s (ckptRestore s.m p tag stream) :=
  work_on (f := fun _ m => ckptRestore m p tag stream) hw

theorem exec_ckptDrop_working (tag : Nat) : exec (.ckptDrop p tag) s = after s (ckptDrop s.m p tag) :=
  work_on (f := fun _ m => ckptDrop m p tag) hw

theorem exec_ckptCopyDone_working (sid : Nat) : exec (.ckptCopyDone p sid) s = after s (ckCopyDone s.m p sid) :=
  work_on (f := fun _ m => ckCopyDone m p sid) hw

theorem exec_replicaReclaim_working (t : Nat) : exec (.replicaReclaim p t) s = after s (replicaReclaim s.m p t) :=
  work_on (f := fun _ m => replicaReclaim m p t) hw

theorem exec_restoreLoadDone_working (idx : Nat) : exec (.restoreLoadDone p idx) s = after s (restoreLoadDone s.m p idx) :=
  work_on (f := fun _ m => restoreLoadDone m p idx) hw

end

-- What the row of a replica message does when the message has arrived.

section
variable {s : State} (hw : s.m.working = true) {src srcPol : Nat} {p : Fin 16}
include hw

theorem exec_replDigests_arrived (ha : Arrived s.m src srcPol p.val 0 0x0E) (sid epoch seq : Nat) (ds : List Nat) :
    exec (.replDigests src srcPol p sid epoch seq ds) s = after s (recvReplDigests (unlaned s.m src 0) src srcPol p sid epoch seq ds) :=
  work_arrived hw ha (fun m => recvReplDigests m src srcPol p sid epoch seq ds)

theorem exec_replLacks_arrived (ha : Arrived s.m src srcPol p.val 0 0x0F) (bits : List Bool) :
    exec (.replLacks src srcPol p bits) s = after s (recvReplLacks (unlaned s.m src 0) src srcPol p bits) :=
  work_arrived hw ha (fun m => recvReplLacks m src srcPol p bits)

theorem exec_replChunk_arrived (ha : Arrived s.m src srcPol p.val 1 0x21) (digest bytes : Nat) (pay : CkPay) :
    exec (.replChunk src srcPol p digest bytes pay) s = after s (recvReplChunk (unlaned s.m src 1) src srcPol p digest bytes pay) :=
  work_arrived hw ha (fun m => recvReplChunk m src srcPol p digest bytes pay)

theorem exec_replRecords_arrived (ha : Arrived s.m src srcPol p.val 1 0x22) (sid epoch seq : Nat) (rs : List CkRec) :
    exec (.replRecords src srcPol p sid epoch seq rs) s = after s (recvReplRecords (unlaned s.m src 1) src srcPol p sid epoch seq rs) :=
  work_arrived hw ha (fun m => recvReplRecords m src srcPol p sid epoch seq rs)

theorem exec_replCommit_arrived (ha : Arrived s.m src srcPol p.val 0 0x10) (c : Ck) :
    exec (.replCommit src srcPol p c) s = after s (recvReplCommit (unlaned s.m src 0) src srcPol p c) :=
  work_arrived hw ha (fun m => recvReplCommit m src srcPol p c)

theorem exec_replAck_arrived (ha : Arrived s.m src srcPol p.val 0 0x11) (sid epoch seq : Nat) (failed : Bool) :
    exec (.replAck src srcPol p sid epoch seq failed) s = after s (recvReplAck (unlaned s.m src 0) src srcPol p sid epoch seq failed) :=
  work_arrived hw ha (fun m => recvReplAck m src srcPol p sid epoch seq failed)

end

-- What the checks of these rows read stays when the descriptor is read through the cache.

section
variable (m : Mod) (p : Fin 16) (idx : Nat)

theorem cacheUse_ck : (cacheUse m p idx).pol[p].ck = m.pol[p].ck := cacheUse_keeps (·.ck) (fun _ _ _ => rfl) m p idx

theorem cacheUse_sec : (cacheUse m p idx).pol[p].sec = m.pol[p].sec := cacheUse_keeps (·.sec) (fun _ _ _ => rfl) m p idx

theorem cacheUse_sealed : (cacheUse m p idx).pol[p].sealed = m.pol[p].sealed := cacheUse_keeps (·.sealed) (fun _ _ _ => rfl) m p idx

theorem cacheUse_ckBusy (sid : Nat) : ckBusy (cacheUse m p idx).pol[p] sid = ckBusy m.pol[p] sid :=
  cacheUse_keeps (ckBusy · sid) (fun _ _ _ => rfl) m p idx

theorem cacheUse_ckJobOf (sid : Nat) : ckJobOf (cacheUse m p idx).pol[p] sid = ckJobOf m.pol[p] sid :=
  cacheUse_keeps (ckJobOf · sid) (fun _ _ _ => rfl) m p idx

end

-- CKPT_BEGIN, exports and CKPT_COMMIT on the session their handle names (R294, R298, R306).

/-- Checkpoint commands are accepted in ACTIVE and PARKED (R97). -/
theorem life_accepted {d : Desc} (h : d.life = .active ∨ d.life = .parked) : (d.life != .active && d.life != .parked) = false := by
  rcases h with h | h <;> simp [h]

/-- A session that is neither arriving nor being restored may be checkpointed (R294). -/
theorem own_accepted {d : Desc} (himp : d.own ≠ .importing) (hres : d.own ≠ .restoring) : (d.own == .importing || d.own == .restoring) = false := by
  simp [himp, hres]

section
variable {m : Mod} {p : Fin 16} {t : Taken} {idx : Nat} {d : Desc} (hr : resolve m p t.entry = .ok (idx, d)) (himp : d.own ≠ .importing)
  (hres : d.own ≠ .restoring) (hlife : d.life = .active ∨ d.life = .parked)
include hr himp hres hlife

/-- A checkpoint that nothing refuses when it is submitted waits for the step boundary; only one for the local store needs the store's index,
and only exports a host address. -/
theorem ckBeginGo_accepted (hbusy : ckBusy m.pol[p] d.sid = false) (hlock : m.pol[p].sec.locked = false)
    (hform : flg t.entry 28 2 = false ∧ m.pol[p].ck.store.rebuilt = true ∨
      flg t.entry 28 2 = true ∧ m.pol[p].sealed = false ∧ fld t.entry 32 0 6 = 0) :
    ckBeginGo m p t = atBoundary (cacheUse m p idx) p idx t.tag .ckpt (fun m => ckBeginNow m p idx t.tag) := by
  have hsealed : (flg t.entry 28 2 && m.pol[p].sealed) = false := by
    rcases hform with ⟨hhost, -⟩ | ⟨-, hopen, -⟩
    · rw [hhost, Bool.false_and]
    · rw [hopen, Bool.and_false]
  have haddr : (flg t.entry 28 2 && fld t.entry 32 0 6 != 0) = false := by
    rcases hform with ⟨hhost, -⟩ | ⟨-, -, hzero⟩
    · rw [hhost, Bool.false_and]
    · rw [hzero, bne_self_eq_false, Bool.and_false]
  have hstore : (!m.pol[p].ck.store.rebuilt && !flg t.entry 28 2) = false := by
    rcases hform with ⟨-, hindex⟩ | ⟨hhost, -⟩
    · rw [hindex, Bool.not_true, Bool.false_and]
    · rw [hhost, Bool.not_true, Bool.and_false]
  simp only [ckBeginGo, hr, own_accepted himp hres, life_accepted hlife, cacheUse_sealed, cacheUse_ckBusy, cacheUse_sec, cacheUse_ck, hsealed, haddr,
    hbusy, hlock, hstore, Bool.false_eq_true, if_false]

end

section
variable {s : State} {p : Fin 16} {tag : Nat} {t : Taken} {idx : Nat} {d : Desc}

section
variable (hr : resolve (begun s.m p tag) p t.entry = .ok (idx, d)) (himp : d.own ≠ .importing) (hres : d.own ≠ .restoring)
  (hlife : d.life = .active ∨ d.life = .parked)
include hr himp hres hlife

theorem ckptBegin_accepted (h : TakesForm s p tag 0x60 (fun e => !flg e 28 2) t) (hbusy : ckBusy (begun s.m p tag).pol[p] d.sid = false)
    (hlock : (begun s.m p tag).pol[p].sec.locked = false) (hstore : (begun s.m p tag).pol[p].ck.store.rebuilt = true) :
    ckptBegin s.m p tag = atBoundary (cacheUse (begun s.m p tag) p idx) p idx tag .ckpt (fun m => ckBeginNow m p idx tag) := by
  have hlocal : flg t.entry 28 2 = false := by simpa using h.2.2
  rw [ckptBegin, takesForm_runs h, ckBeginGo_accepted hr himp hres hlife hbusy hlock (.inl ⟨hlocal, hstore⟩), takesForm_tag h]

theorem ckptExport_accepted (h : TakesForm s p tag 0x60 (fun e => flg e 28 2) t) (hopen : (begun s.m p tag).pol[p].sealed = false)
    (haddr : fld t.entry 32 0 6 = 0) (hbusy : ckBusy (begun s.m p tag).pol[p] d.sid = false)
    (hlock : (begun s.m p tag).pol[p].sec.locked = false) :
    ckptExport s.m p tag = atBoundary (cacheUse (begun s.m p tag) p idx) p idx tag .ckpt (fun m => ckBeginNow m p idx tag) := by
  rw [ckptExport, takesForm_runs h, ckBeginGo_accepted hr himp hres hlife hbusy hlock (.inr ⟨h.2.2, hopen, haddr⟩), takesForm_tag h]

/-- CKPT_COMMIT of the checkpoint in progress that its SEQ names answers when that one's commits are settled. -/
theorem ckptCommit_joins {j : CkJob} (h : Takes s p tag 0x61 t) (hj : ckJobOf (begun s.m p tag).pol[p] d.sid = some j)
    (hseq : j.ck.seq = fld t.entry 28 0 32) (hfree : j.commit = none) (hlocal : j.host = none) :
    ckptCommit s.m p tag =
      ckFinish (modJob (cacheUse (begun s.m p tag) p idx) p d.sid (fun j => { j with commit := some tag })) p d.sid := by
  have hnamed : (j.ck.seq != fld t.entry 28 0 32 || j.commit.isSome || j.host.isSome) = false := by
    rw [hseq, hfree, hlocal, bne_self_eq_false]; rfl
  rw [ckptCommit, takes_runs h]
  simp only [hr, own_accepted himp hres, life_accepted hlife, cacheUse_ckJobOf, hj, hnamed, Bool.false_eq_true, if_false]

end

-- CKPT_DROP (R299, R301) and CKPT_RESTORE (R302).

/-- Only a restore in progress reads a checkpoint. -/
theorem restoreReads_none {q : Polder} (h : q.ck.restores = []) (c : Ck) : restoreReads q c = false := by
  rw [restoreReads, h, List.any_nil]

/-- A drop of a local checkpoint that no restore reads takes its descendants with it; its session has no checkpoint in progress and no entry in the
polder. -/
theorem ckptDrop_named {c : Ck} {st : CkStore} {named : List Ck} (h : Takes s p tag 0x63 t) (hone : flg t.entry 32 0 = false)
    (hlocal : flg t.entry 32 1 = false) (hst : (begun s.m p tag).pol[p].ck.store = st) (hindex : st.rebuilt = true)
    (hfind : findCk st (fld t.entry 16 0 64) (fld t.entry 24 0 32) (fld t.entry 28 0 32) = some c)
    (hjob : ckJobOf (begun s.m p tag).pol[p] (fld t.entry 16 0 64) = none) (hrest : (begun s.m p tag).pol[p].ck.restores = [])
    (hdesc : descendants st (st.cks.length + 1) [c] = named) (hnamed : named ≠ [])
    (hsid : findSid (modCk (begun s.m p tag) p (fun k => { k with store := removeCks st named })) p.val (fld t.entry 16 0 64) = none) :
    ckptDrop s.m p tag = (
      let m1 := modCk (begun s.m p tag) p (fun k => { k with store := removeCks st named })
      complete (storeGauge ((fitStore m1 p).toOption.getD m1) p) p tag
        (rOk (at8 4 ((chunkBytes st - chunkBytes (removeCks st named)) / 1024 % 2 ^ 32) + at8 12 (named.length % 2 ^ 32)))) := by
  have hread : named.any (fun c => restoreReads (begun s.m p tag).pol[p] c) = false :=
    List.any_eq_false.mpr fun x _ => ne_true_of_eq_false (restoreReads_none hrest x)
  rw [ckptDrop, takes_runs h]
  simp only [hone, hlocal, hst, hindex, hfind, hjob, hdesc, hread, hsid, List.isEmpty_eq_false_iff.mpr hnamed, Option.map_some, Option.getD_some,
    Option.filter_none, Option.isSome_none, Bool.not_true, Bool.false_and, Bool.false_eq_true, if_false, b2n, Nat.add_zero]

/-- A restore by handle of a session at rest waits for its step boundary, with the stream its command brought. -/
theorem ckptRestore_byHandle (h : Takes s p tag 0x62 t) (hpump : pumpFenced (begun s.m p tag) p = false) (hform : flg t.entry 36 2 = false)
    (hr : resolve (begun s.m p tag) p t.entry = .ok (idx, d)) (hbusy : busyOwn d = false) (hlife : d.life = .active ∨ d.life = .parked)
    (stream : Block) :
    ckptRestore s.m p tag stream = atBoundary (modCk (setJob (cacheUse (begun s.m p tag) p idx) idx t.job) p (fun c => { c with
      streams := c.streams ++ [(tag, stream)] })) p idx tag .restore (fun m => restoreWaited m p idx tag) := by
  rw [ckptRestore, takes_runs h]
  simp only [hpump, hform, hr, hbusy, life_accepted hlife, Bool.false_eq_true, if_false]

/-- A restore by SESSION_ID of a session this module does not hold starts at once. -/
theorem ckptRestore_bySid (h : Takes s p tag 0x62 t) (hpump : pumpFenced (begun s.m p tag) p = false) (hform : flg t.entry 36 2 = true)
    (hl : lookupSid (begun s.m p tag) p (fld t.entry 16 0 64) = .ok none) (hf : findSidAny (begun s.m p tag) (fld t.entry 16 0 64) = none)
    (stream : Block) : ckptRestore s.m p tag stream = restoreNow (begun s.m p tag) p t stream none (fld t.entry 16 0 64) := by
  rw [ckptRestore, takes_runs h]
  simp only [hpump, hform, hl, hf, Option.isSome_none, Bool.false_eq_true, if_false, if_true]

end

-- CKPT_COPY_DONE (R295, R298, R306).

section
variable {m : Mod} {p : Fin 16} {sid : Nat} {j : CkJob} (hj : ckJobOf m.pol[p] sid = some j) (hlocal : j.localDone = false)
  (hbegin : j.beginAcked = true)
include hj hlocal hbegin

/-- A LOST page of the copy set abandons the checkpoint. -/
theorem ckCopyDone_lost (hlost : j.lost = true) : ckCopyDone m p sid = ckAbandon m p sid (rSt stTierLost) := by
  simp only [ckCopyDone, hj, hlocal, hbegin, hlost, Bool.not_true, Bool.or_self, Bool.false_eq_true, if_false, if_true]

section
variable (hlost : j.lost = false) (hfits : j.refused = none) (hunits : j.units = [])
include hlost hfits hunits

/-- The stream of a checkpoint for the host is written once its pages are read. -/
theorem ckCopyDone_export {st : Nat × Nat} (hhost : j.host = some st) :
    ckCopyDone m p sid = (
      let img := streamImage (selfId m) p.val { j.ck with hosted := true }
      let m1 := hostServe (emit (toeReads (pinc m p Ctr.ckptReadBytes j.readBytes) p (j.copying.map (·.1))) (.host st.1 img.length (ofBytes img))) p
        img.length
      ckFinish (modJob (ckOpEnd (modJob m1 p sid (fun j => { j with localDone := true, copying := [], engine := false })) p j) p sid
        (fun j => { j with auto := true })) p sid) := by
  simp only [ckCopyDone, hj, hlocal, hbegin, hlost, hfits, hunits, hhost, List.isEmpty_nil, Bool.not_true, Bool.or_self, Bool.false_eq_true, if_false]

/-- A checkpoint whose chunks and records are all acknowledged joins the local store and commits there. -/
theorem ckCopyDone_commits (hhost : j.host = none) :
    ckCopyDone m p sid = ckCommitted (modCk (toeReads (pinc m p Ctr.ckptReadBytes j.readBytes) p (j.copying.map (·.1))) p (fun c => { c with
      store := { c.store with
        cks := c.store.cks ++ [j.ck], begins := c.store.begins.filter (fun b => b.1 != sid || decide (j.ck.seq ≤ b.2.1)) } })) p sid j j.newBytes := by
  simp only [ckCopyDone, hj, hlocal, hbegin, hlost, hfits, hunits, hhost, List.isEmpty_nil, Bool.not_true, Bool.or_self, Bool.false_eq_true, if_false]

end

end

-- REPLICA_RECLAIM (R299) and RESTORE_LOAD_DONE (R304).

section
variable {m : Mod} {p : Fin 16}

/-- No uncommitted replica is reclaimed before 600 s without a record. -/
theorem replicaReclaim_early {u : Nat} (h : ∀ x ∈ m.pol[p].ck.ins, max m.pol[p].clk u < x.last + 600000000000) :
    replicaReclaim m p u = tickPol m p u := by
  have hnone : (tickPol m p u).pol[p].ck.ins.filter (fun x => decide (x.last + 600 * 1000000000 ≤ (tickPol m p u).pol[p].clk)) = [] := by
    rw [Fin.getElem_fin, tickPol_pol_same]
    exact List.filter_eq_nil_iff.mpr fun x hx => by simpa using h x hx
  rw [replicaReclaim, hnone, List.foldl_nil]

theorem replicaReclaim_due {u : Nat} {x : ReplIn} (hone : m.pol[p].ck.ins = [x]) (hdue : x.last + 600000000000 ≤ max m.pol[p].clk u) :
    replicaReclaim m p u = replReclaimOne (tickPol m p u) p x := by
  have hall : (tickPol m p u).pol[p].ck.ins.filter (fun x => decide (x.last + 600 * 1000000000 ≤ (tickPol m p u).pol[p].clk)) = [x] := by
    rw [Fin.getElem_fin, tickPol_pol_same]
    have hover : decide (x.last + 600 * 1000000000 ≤ max m.pol[p].clk u) = true := by simpa using hdue
    exact (congrArg _ hone).trans (List.filter_cons_of_pos hover)
  rw [replicaReclaim, hall, List.foldl_cons, List.foldl_nil]

/-- The load of a restore that has its session's ownership, in a polder that holds no state of the session yet. -/
theorem restoreLoadDone_fresh {idx : Nat} {r : Restore} {d : Desc} {sl : Slot}
    (hr : m.pol[p].ck.restores.find? (fun r => r.idx == idx && r.owned && !r.loaded && r.adopted.isNone) = some r) (hd : desc? m idx = some d)
    (hsl : m.pol[p].slots.get r.slot = some sl) (hs : m.pol[p].sess.get idx = none) :
    restoreLoadDone m p idx = (
      match loadSession m p idx r.ck.cls r.ck.sparse sl.man.main r.ck.ctxMax r.ck.tokens (restoreGet m p r) r.recs with
      | .error tier => if tier == errWait then beginRoom m p else restoreFail (countRefused m p tier) p idx r (rQuota tier)
      | .ok none => restoreFail m p idx r (rSt stTierLost)
      | .ok (some m1) => restoreLoaded (readChunks m1 p ((r.recs.filter (fun x => x.kind != 5)).map CkRec.digest)) p idx r d) := by
  simp only [restoreLoadDone, hr, hd, hsl, hs, Option.isSome_none, Bool.false_eq_true, if_false] <;> rfl

end

-- Replicas at their source (R297, R298).

section
variable {m : Mod} {p : Fin 16} {src srcPol : Nat}

/-- A target that lacks no chunk of its batch is shipped none. -/
theorem recvReplLacks_none {bits : List Bool} {j : CkJob} {r : ReplJob} (hj : replJobOf m.pol[p] src srcPol .offered = some (j, r))
    (hbits : ∀ b ∈ bits, b = false) :
    recvReplLacks m src srcPol p bits = replAcked (modRepl m p j.ck.sid src srcPol (fun r => { r with st := .shipping })) src := by
  have hds (l : List Nat) : (l.zip bits).filter (fun x => x.2) = [] :=
    List.filter_eq_nil_iff.mpr fun x hx => by simp [hbits x.2 (List.of_mem_zip hx).2]
  simp only [recvReplLacks, hj, hds, List.map_nil, List.foldl_nil]

section
variable {sid epoch seq : Nat} {j : CkJob} (hj : ckJobOf m.pol[p] sid = some j) (hepoch : j.ck.epoch = epoch) (hseq : j.ck.seq = seq)
  (htarget : ∃ r ∈ j.repl, r.mod = src ∧ r.pol = srcPol)
include hj hepoch hseq htarget

theorem recvReplAck_target (failed : Bool) :
    recvReplAck m src srcPol p sid epoch seq failed = if failed then replFail m p sid src srcPol else
      ckFinish (pinc (modRepl m p sid src srcPol (fun r => { r with st := .done })) p Ctr.replCommitted 1) p sid := by
  have hany : j.repl.any (fun r => r.mod == src && r.pol == srcPol) = true := by simpa using htarget
  simp only [recvReplAck, hj, hepoch, hseq, hany, bne_self_eq_false, Bool.not_true, Bool.or_self, Bool.false_eq_true, if_false]

end

-- Replicas at their target (R297, R299).

/-- A polder with no open replica opens one, and answers with the digests that its store for the source lacks. -/
theorem recvReplDigests_opens (hc : m.pol[p].composed = true) (hstore : (replStore m.pol[p] (replKey src srcPol)).rebuilt = true)
    (hins : m.pol[p].ck.ins = []) (sid epoch seq : Nat) (ds : List Nat) :
    recvReplDigests m src srcPol p sid epoch seq ds = send (putReplStore (modCk m p (fun c => { c with ins := c.ins ++ [
      { src := replKey src srcPol, sid := sid, epoch := epoch, seq := seq, digests := ds, held := ds, recs := [], last := m.pol[p].clk, retries := []
        failed := false, commit := none }] })) p (replKey src srcPol) (replStore m.pol[p] (replKey src srcPol))) src srcPol p.val
      (.replLacks (ds.map (fun d => !(replStore m.pol[p] (replKey src srcPol)).chunks.any (fun c => c.digest == d)))) := by
  simp only [recvReplDigests, hc, hstore, hins, List.any_nil, Bool.not_true, Bool.or_self, Bool.false_eq_true, if_false]

/-- A chunk that the store lacks and whose digest holds is stored for the replica opened last. -/
theorem recvReplChunk_stores {digest : Nat} {pay : CkPay} {x : ReplIn} {us : List Nat} {m2 : Mod} {bytes : Nat}
    (hx : (m.pol[p].ck.ins.filter (fun x => x.src == replKey src srcPol)).getLast? = some x) (hdigest : payDigest pay = digest)
    (hnew : ∀ c ∈ (replStore m.pol[p] (replKey src srcPol)).chunks, c.digest ≠ digest)
    (hwrite : writeStore (putReplStore (modCk m p (fun c => { c with
        ins := updWhere c.ins (fun y => y == x) (fun y => { y with last := m.pol[p].clk }) })) p
      (replKey src srcPol) { replStore m.pol[p] (replKey src srcPol) with
        chunks := (replStore m.pol[p] (replKey src srcPol)).chunks ++ [{ digest := digest, pay := pay, bytes := bytes, refs := 0 }] }) p = .ok (us, m2)) :
    recvReplChunk m src srcPol p digest bytes pay = storeGauge m2 p := by
  have hlacks : (replStore m.pol[p] (replKey src srcPol)).chunks.any (fun c => c.digest == digest) = false := by simpa using hnew
  simp only [recvReplChunk, hx, hdigest, bne_self_eq_false, hlacks, hwrite, Bool.false_eq_true, if_false]

/-- What takes a pair apart hands its parts on. Stated for any such eliminator, because reducing the model's own match in place makes the kernel
evaluate the write of the store that follows it. -/
theorem pairElim_apply {α β γ : Type} {F : α × β → (α → β → γ) → γ} (z : α × β) (f : α → β → γ) (hF : ∀ a b g, F (a, b) g = g a b) :
    F z f = f z.1 z.2 := hF z.1 z.2 f

/-- Records whose chunks the store holds are stored with their references. -/
theorem recvReplRecords_stores {sid epoch seq : Nat} {rs : List CkRec} {x : ReplIn} {us : List Nat} {m2 : Mod}
    (hx : m.pol[p].ck.ins.find? (fun x => x.src == replKey src srcPol && x.sid == sid && x.epoch == epoch && x.seq == seq) = some x)
    (hheld : ∀ r ∈ rs, ∃ c ∈ (replStore m.pol[p] (replKey src srcPol)).chunks, c.digest = r.digest)
    (hwrite : writeStore (putReplStore (modCk m p (fun c => { c with
        ins := updWhere c.ins (fun y => y == x) (fun y => { y with recs := y.recs ++ rs, last := m.pol[p].clk }) })) p (replKey src srcPol)
      (addChunks (replStore m.pol[p] (replKey src srcPol)) rs).2) p = .ok (us, m2)) :
    recvReplRecords m src srcPol p sid epoch seq rs = storeGauge m2 p := by
  have hall : ¬ (!rs.all (fun r => (replStore m.pol[p] (replKey src srcPol)).chunks.any (fun c => c.digest == r.digest))) = true := by
    simpa using hheld
  rw [recvReplRecords, hx]
  refine (if_neg hall).trans ((pairElim_apply _ _ fun _ _ _ => rfl).trans ?_)
  simp only [hwrite]

/-- A commit record whose records' digest holds is stored, and what can commit does. -/
theorem recvReplCommit_stores {c : Ck} {x : ReplIn} {us : List Nat} {m2 : Mod}
    (hx : m.pol[p].ck.ins.find? (fun x => x.src == replKey src srcPol && x.sid == c.sid && x.epoch == c.epoch && x.seq == c.seq) = some x)
    (hrecs : recsDigest x.sid x.epoch x.seq x.recs = c.recsDigest)
    (hwrite : writeStore (modCk m p (fun k => { k with ins := updWhere k.ins (fun y => y == x) (fun y => { y with commit := some c }) })) p =
      .ok (us, m2)) :
    recvReplCommit m src srcPol p c = replCommits m2 p := by
  simp only [recvReplCommit, hx, hrecs, bne_self_eq_false, hwrite, Bool.false_eq_true, if_false]

end

section
variable {m : Mod} {p : Fin 16}

theorem replCommits_waits (h : storeAcked m p = false) : replCommits m p = m := by
  simp only [replCommits, h, Bool.not_false, if_true]

theorem replCommits_single {x : ReplIn} {c : Ck} (hacked : storeAcked m p = true) (hone : m.pol[p].ck.ins = [x]) (hc : x.commit = some c) :
    replCommits m p = replCommitted m p x c := by
  have hin : [x].contains x = true := List.contains_iff_mem.mpr (List.mem_singleton.mpr rfl)
  simp only [replCommits, hacked, hone, List.foldl_cons, List.foldl_nil, hc, hin, Bool.not_true, Bool.false_eq_true, if_false, if_true]

/-- Changes of the checkpoint state that agree on the one the polder has make the same module. -/
theorem modCk_congr {f g : CkState → CkState} (h : f m.pol[p].ck = g m.pol[p].ck) : modCk m p f = modCk m p g := by
  simp only [modCk, modPol, h]

theorem modCk_pol_ck (m : Mod) (p : Fin 16) (f : CkState → CkState) : (modCk m p f).pol[p].ck = f m.pol[p].ck := by
  rw [modCk, Fin.getElem_fin, modPol_pol_same]; rfl

theorem putReplStore_ins (m : Mod) (p : Fin 16) (key : Nat) (st : CkStore) : (putReplStore m p key st).pol[p].ck.ins = m.pol[p].ck.ins := by
  rw [putReplStore, modCk_pol_ck]

/-- A polder whose only open replica leaves has none open. -/
theorem modCk_closes {x : ReplIn} (hone : m.pol[p].ck.ins = [x]) :
    modCk m p (fun k => { k with ins := k.ins.filter (fun y => y != x) }) = modCk m p (fun k => { k with ins := [] }) := by
  have hnone : [x].filter (fun y => y != x) = [] := by simp
  exact modCk_congr (by rw [hone, hnone])

/-- The only open replica of a polder joins the source's store when it commits, and no other is reclaimed with it. -/
theorem replCommitted_single {x : ReplIn} (hone : m.pol[p].ck.ins = [x]) (c : Ck) :
    replCommitted m p x c = send (storeGauge (modCk (putReplStore m p x.src
        { replStore m.pol[p] x.src with cks := (replStore m.pol[p] x.src).cks ++ [{ c with recs := x.recs }] }) p (fun k => { k with ins := [] })) p)
      (x.src / 16) (x.src % 16) p.val (.replAck c.sid c.epoch c.seq false) := by
  have hclosed := modCk_closes ((putReplStore_ins m p x.src
    { replStore m.pol[p] x.src with cks := (replStore m.pol[p] x.src).cks ++ [{ c with recs := x.recs }] }).trans hone)
  simp only [replCommitted, hclosed, modCk_pol_ck, List.filter_nil, List.foldl_nil]

end

/-- Settles O55: each started command, each event and each message delivered to its consumer, then the lemma of the case its hypotheses name. -/
theorem checkpointsAndReplicas : Obligations.CheckpointsAndReplicas := by
  unfold Obligations.CheckpointsAndReplicas
  refine ⟨fun s p tag t => ⟨?begins, ?exports, ?commits, ?drop, ?restoreHandle, ?restoreSid, ?copyExport, ?copyCommits, ?copyLost, ?reclaimEarly,
      ?reclaimDue, ?load⟩,
    fun s src srcPol p hw => ⟨?digests, ?lacks, ?lacksNone, ?chunk, ?records, ?commitRecord, fun m x c => replCommits_single, fun m => replCommits_waits,
      fun m x c hone => replCommitted_single hone c, ?ack⟩⟩
  case begins =>
    intro idx d h hr himp hres hlife hbusy hlock hstore
    rw [exec_ckptBegin_working h.1, ckptBegin_accepted hr himp hres hlife h hbusy hlock hstore]
  case exports =>
    intro idx d h hr himp hres hlife hopen haddr hbusy hlock
    rw [exec_ckptExport_working h.1, ckptExport_accepted hr himp hres hlife h hopen haddr hbusy hlock]
  case commits =>
    intro idx d j h hr himp hres hlife hj hseq hfree hlocal
    rw [exec_ckptCommit_working h.1, ckptCommit_joins hr himp hres hlife h hj hseq hfree hlocal]
  case drop =>
    intro c h hone hlocal hindex hfind hjob hrest hsid hnamed
    rw [exec_ckptDrop_working h.1, ckptDrop_named h hone hlocal rfl hindex hfind hjob hrest rfl hnamed hsid]
  case restoreHandle =>
    intro idx d stream h hpump hform hr hbusy hlife
    rw [exec_ckptRestore_working h.1, ckptRestore_byHandle h hpump hform hr hbusy hlife]
  case restoreSid =>
    intro stream h hpump hform hl hf
    rw [exec_ckptRestore_working h.1, ckptRestore_bySid h hpump hform hl hf]
  case copyExport =>
    intro sid j st hw hj hlocal hbegin hlost hfits hunits hhost
    rw [exec_ckptCopyDone_working hw, ckCopyDone_export hj hlocal hbegin hlost hfits hunits hhost]
  case copyCommits =>
    intro sid j hw hj hlocal hbegin hlost hfits hunits hhost
    rw [exec_ckptCopyDone_working hw, ckCopyDone_commits hj hlocal hbegin hlost hfits hunits hhost]
  case copyLost =>
    intro sid j hw hj hlocal hbegin hlost
    rw [exec_ckptCopyDone_working hw, ckCopyDone_lost hj hlocal hbegin hlost]
  case reclaimEarly =>
    intro u hw hearly
    rw [exec_replicaReclaim_working hw, replicaReclaim_early hearly]
  case reclaimDue =>
    intro u x hw hone hdue
    rw [exec_replicaReclaim_working hw, replicaReclaim_due hone hdue]
  case load =>
    intro idx r d sl hw hr hd hsl hs
    exact (exec_restoreLoadDone_working hw p idx).trans (congrArg (after s) (restoreLoadDone_fresh hr hd hsl hs))
  case digests =>
    intro sid epoch seq ds m ha hc hstore hins
    rw [exec_replDigests_arrived hw ha, recvReplDigests_opens hc hstore hins]
  case lacks =>
    intro bits m ha
    exact exec_replLacks_arrived hw ha bits
  case lacksNone => exact fun m bits j r hj hbits => recvReplLacks_none hj hbits
  case chunk =>
    intro digest bytes pay x us m2 m ha hx hdigest hnew hwrite
    rw [exec_replChunk_arrived hw ha, recvReplChunk_stores hx hdigest hnew hwrite]
  case records =>
    intro sid epoch seq rs x us m2 m ha hx hheld hwrite
    rw [exec_replRecords_arrived hw ha, recvReplRecords_stores hx hheld hwrite]
  case commitRecord =>
    intro c x us m2 m ha hx hrecs hwrite
    rw [exec_replCommit_arrived hw ha, recvReplCommit_stores hx hrecs hwrite]
  case ack =>
    intro sid epoch seq j m ha hj hepoch hseq htarget
    have hack := recvReplAck_target hj hepoch hseq htarget
    rw [exec_replAck_arrived hw ha, exec_replAck_arrived hw ha, hack, hack]
    exact ⟨rfl, rfl⟩

end Sys2Proof.Machine

/-! PROOFS. Policers (O36, O37): the colour a unit gets and what it takes, the bounds of the buckets, and the committed rate kept over any traffic. -/

namespace Sys2Proof.Machine

-- The colours (R314).

theorem colourOf_red {pl : Policer} {need : Nat} (h : pl.tp < need) (pre : Bool) : colourOf pl need pre = 2 := if_pos h

theorem colourOf_yellow {pl : Policer} {need : Nat} {pre : Bool} (hp : need ≤ pl.tp) (h : pl.tc < need ∨ pre = true) : colourOf pl need pre = 1 := by
  have hmark : (pre || decide (pl.tc < need)) = true := by simpa using h.symm
  rw [colourOf, if_neg (Nat.not_lt.mpr hp), if_pos hmark]

theorem colourOf_green {pl : Policer} {need : Nat} (hp : need ≤ pl.tp) (hc : need ≤ pl.tc) : colourOf pl need false = 0 := by
  have hmark : ¬ (false || decide (pl.tc < need)) = true := by simpa using hc
  rw [colourOf, if_neg (Nat.not_lt.mpr hp), if_neg hmark]

/-- A unit is green only where the committed bucket holds its need. -/
theorem need_le_of_colourOf_green {pl : Policer} {need : Nat} {pre : Bool} (h : colourOf pl need pre = 0) : need ≤ pl.tc := by
  refine Nat.le_of_not_lt fun hlow => ?_
  rcases Nat.lt_or_ge pl.tp need with hp | hp
  · exact absurd ((colourOf_red hp pre).symm.trans h) (by decide)
  · exact absurd ((colourOf_yellow hp (.inl hlow)).symm.trans h) (by decide)

-- A test (R314, R315).

/-- An enabled policer's test: the unit's colour and its action, and the tokens the colour takes from a unit that is not held. -/
theorem police_enabled {pl : Policer} (hen : pl.set.en = true) (need : Nat) (pre : Bool) :
    police pl need pre = (
      let c := colourOf pl need (pre && pl.set.aware)
      (c, actionOf pl c, if actionOf pl c = 2 then pl else takeTokens pl need c)) := by
  simp only [police, hen, Bool.not_true, Bool.false_eq_true, if_false, beq_iff_eq]
  split <;> rfl

theorem police_disabled {pl : Policer} (hen : pl.set.en = false) (need : Nat) (pre : Bool) : police pl need pre = (0, 0, pl) := by
  simp only [police, hen, Bool.not_false, if_true]

/-- A test leaves the settings, and takes tokens only. -/
theorem police_takes (pl : Policer) (need : Nat) (pre : Bool) :
    (police pl need pre).2.2.set = pl.set ∧ (police pl need pre).2.2.tc ≤ pl.tc ∧ (police pl need pre).2.2.tp ≤ pl.tp := by
  have htake (c : Nat) : (takeTokens pl need c).set = pl.set ∧ (takeTokens pl need c).tc ≤ pl.tc ∧ (takeTokens pl need c).tp ≤ pl.tp := by
    unfold takeTokens
    split
    · exact ⟨rfl, Nat.sub_le _ _, Nat.sub_le _ _⟩
    · exact ⟨rfl, Nat.le_refl _, Nat.sub_le _ _⟩
    · exact ⟨rfl, Nat.le_refl _, Nat.le_refl _⟩
  cases hen : pl.set.en with
  | false => rw [police_disabled hen]; exact ⟨rfl, Nat.le_refl _, Nat.le_refl _⟩
  | true =>
    rw [police_enabled hen]
    dsimp only
    split
    · exact ⟨rfl, Nat.le_refl _, Nat.le_refl _⟩
    · exact htake _

/-- What is green has been paid from the committed bucket. -/
theorem police_green_pays {pl : Policer} {need : Nat} {pre : Bool} (hen : pl.set.en = true) (hg : (police pl need pre).1 = 0) :
    (police pl need pre).2.2.tc + need = pl.tc := by
  rw [police_enabled hen] at hg ⊢
  dsimp only at hg ⊢
  rw [hg]
  exact Nat.sub_add_cancel (need_le_of_colourOf_green hg)

section
variable {pl : Policer} {need : Nat} {pre : Bool} (hen : pl.set.en = true)
include hen

theorem police_red (hp : pl.tp < need) : (police pl need pre).1 = 2 ∧ (police pl need pre).2.2 = pl := by
  rw [police_enabled hen, colourOf_red hp]
  exact ⟨rfl, ite_self pl⟩

theorem police_yellow (hp : need ≤ pl.tp) (hy : pl.tc < need ∨ (pre = true ∧ pl.set.aware = true)) :
    police pl need pre = (1, pl.set.yAct, if pl.set.yAct = 2 then pl else { pl with tp := pl.tp - need }) := by
  have hmark : pl.tc < need ∨ (pre && pl.set.aware) = true := by simpa using hy
  rw [police_enabled hen, colourOf_yellow hp hmark]
  rfl

theorem police_green (hp : need ≤ pl.tp) (hc : need ≤ pl.tc) (hg : pre = false ∨ pl.set.aware = false) :
    police pl need pre = (0, 0, { pl with tp := pl.tp - need, tc := pl.tc - need }) := by
  have hunmarked : (pre && pl.set.aware) = false := Bool.and_eq_false_iff.mpr hg
  rw [police_enabled hen, hunmarked, colourOf_green hp hc]
  rfl

end

-- The bounds of the buckets (R314, R317).

theorem refillK_bounded {i : Nat} {pl : Policer} (h : pl.bounded i) (k : Nat) : (refillK i k pl).bounded i := by
  unfold refillK
  split
  · exact ⟨Nat.min_le_right _ _, Nat.min_le_right _ _⟩
  · exact h

theorem police_bounded {i : Nat} {pl : Policer} (h : pl.bounded i) (need : Nat) (pre : Bool) : (police pl need pre).2.2.bounded i := by
  obtain ⟨hset, htc, htp⟩ := police_takes pl need pre
  unfold Policer.bounded
  rw [hset]
  exact ⟨Nat.le_trans htc h.1, Nat.le_trans htp h.2⟩

theorem applyPol_bounded (i : Nat) (pl : Policer) (s : PolSet) (fill : Bool) : (applyPol i pl s fill).bounded i := by
  have hcut (full : Bool) (x c : Nat) : (if full then c else min x c) ≤ c := by
    cases full with
    | true => exact Nat.le_refl _
    | false => exact Nat.min_le_right _ _
  exact ⟨hcut _ _ _, hcut _ _ _⟩

/-- Settles O36: the bounds by what each operation does to the buckets, the colours by the colour test's three outcomes. -/
theorem policerColoursAndBounds : Obligations.PolicerColoursAndBounds := by
  unfold Obligations.PolicerColoursAndBounds
  refine ⟨fun i k need pre pl h => ⟨refillK_bounded h k, police_bounded h need pre, applyPol_bounded i pl⟩,
    fun pl need pre hen => ⟨police_red hen, ?yellow, police_green hen⟩⟩
  case yellow =>
    intro hp hy
    rw [police_yellow hen hp hy]
    exact ⟨rfl, fun hact => if_neg hact, fun hact => if_pos hact⟩

-- The committed rate (R314): green is paid from the committed bucket, which only its first contents and CIR fill.

/-- What was green, and what the committed bucket still holds, is at most some first contents and CIR for each refill. -/
def CommittedWithin (first : Nat) (set : PolSet) (x : Policer × Nat × Nat) : Prop :=
  x.1.set = set ∧ x.2.1 + x.1.tc ≤ first + x.2.2 * set.cir

section
variable {first g n : Nat} {set : PolSet} {pl : Policer}

theorem refillK_set (i k : Nat) (pl : Policer) : (refillK i k pl).set = pl.set := by
  unfold refillK
  split <;> rfl

theorem refillK_tc_le (i k : Nat) (pl : Policer) : (refillK i k pl).tc ≤ pl.tc + k * pl.set.cir := by
  unfold refillK
  split
  · exact Nat.min_le_left _ _
  · exact Nat.le_add_right _ _

theorem committedWithin_refill (h : CommittedWithin first set (pl, g, n)) (i k : Nat) : CommittedWithin first set (refillK i k pl, g, n + k) := by
  obtain ⟨rfl, hsum⟩ := h
  refine ⟨refillK_set i k pl, ?_⟩
  calc g + (refillK i k pl).tc ≤ g + (pl.tc + k * pl.set.cir) := Nat.add_le_add_left (refillK_tc_le i k pl) g
    _ = g + pl.tc + k * pl.set.cir := (Nat.add_assoc ..).symm
    _ ≤ first + n * pl.set.cir + k * pl.set.cir := Nat.add_le_add_right hsum _
    _ = first + (n + k) * pl.set.cir := by rw [Nat.add_mul, Nat.add_assoc]

theorem committedWithin_unit (hen : set.en = true) (h : CommittedWithin first set (pl, g, n)) (need : Nat) :
    CommittedWithin first set ((police pl need false).2.2, if (police pl need false).1 = 0 then g + need else g, n) := by
  obtain ⟨rfl, hsum⟩ := h
  obtain ⟨hset, htc, _⟩ := police_takes pl need false
  refine ⟨hset, Nat.le_trans ?_ hsum⟩
  dsimp only
  split
  next hgreen =>
    have hpaid := police_green_pays (pl := pl) hen hgreen
    omega
  next => exact Nat.add_le_add_left htc g

theorem committedWithin_policed (hen : set.en = true) (i : Nat) (l : List PolEvent) {x : Policer × Nat × Nat} (h : CommittedWithin first set x) :
    CommittedWithin first set (policed i l x) := by
  induction l generalizing x with
  | nil => exact h
  | cons e l ih =>
    obtain ⟨pl, g, n⟩ := x
    cases e with
    | refill k => exact ih (committedWithin_refill h i k)
    | unit need => exact ih (committedWithin_unit hen h need)

end

/-- Settles O37: by induction on the traffic, green and the committed bucket together stay within the burst and CIR for each refill. -/
theorem committedRateIsKept : Obligations.CommittedRateIsKept := by
  intro i l pl hen hbound
  have hfirst : CommittedWithin (pl.set.cbs * subUnits i) pl.set (pl, 0, 0) := ⟨rfl, by simpa using hbound.1⟩
  exact Nat.le_trans (Nat.le_add_right _ _) (committedWithin_policed hen i l hfirst).2

end Sys2Proof.Machine

/-! PROOFS. Traffic settings (O31): what the policer, weight and sluice commands do when a mailbox has accepted them, and on which cycle start a list
takes over. -/

namespace Sys2Proof.Machine

-- What a traffic command of a module at work does: its meaning, then what follows every effect.

section
variable {s : State} (hw : s.m.working = true) (b : Box)
include hw

theorem exec_policerSet_working : exec (.policerSet b) s = after s (policerSet s.m b) :=
  work_on (f := fun _ m => policerSet m b) hw

theorem exec_policerDisable_working : exec (.policerDisable b) s = after s (policerDisable s.m b) :=
  work_on (f := fun _ m => policerDisable m b) hw

theorem exec_wfqSet_working : exec (.wfqSet b) s = after s (keepCfg b s.m (wfqSet s.m b)) :=
  work_on (f := fun _ m => keepCfg b m (wfqSet m b)) hw

theorem exec_sluiceLoad_working (list : Block) : exec (.sluiceLoad b list) s = after s (keepCfg b s.m (sluiceLoad s.m b list)) :=
  work_on (f := fun _ m => keepCfg b m (sluiceLoad m b list)) hw

theorem exec_sluiceRemove_working : exec (.sluiceRemove b) s = after s (keepCfg b s.m (sluiceRemove s.m b)) :=
  work_on (f := fun _ m => keepCfg b m (sluiceRemove m b)) hw

end

/-- An accepted mailbox command of an opcode with several rows runs in the row of its form. -/
theorem accepts_runsIf {s : State} {b : Box} {op : Nat} {form : Block → Bool} (h : Accepts s b op) (hform : form (argOf s b) = true)
    (f : Block → Mod → Mod) : mbxRowIf s.m b op form f = f (argOf s b) (mbxBegun s.m b) :=
  (if_pos hform).trans (accepts_runs h f)

-- Policers (R316, R317).

section
variable {s : State} {b : Box} (h : Accepts s b 0x8B)
include h

theorem policerSet_accepted (hform : flg (argOf s b) 1 3 = true) (hok : polBad (mbxBegun s.m b) (argOf s b) = false) :
    policerSet s.m b = polPend (mbxBegun s.m b) (argOf s b) (polSetOf (argOf s b)) (flg (argOf s b) 1 5) := by
  rw [policerSet, accepts_runsIf h hform, hok, if_neg Bool.false_ne_true]

theorem policerDisable_accepted (hform : flg (argOf s b) 1 3 = false) (hok : polBadTarget (mbxBegun s.m b) (argOf s b) = false) :
    policerDisable s.m b = polPend (mbxBegun s.m b) (argOf s b)
      { (mbxBegun s.m b).pol[pn (fld (argOf s b) 0 0 8)].polic[polArg (argOf s b)].set with en := false } (flg (argOf s b) 1 5) := by
  have hdisable : (!flg (argOf s b) 1 3) = true := by simpa using hform
  rw [policerDisable, accepts_runsIf h hdisable, hok, if_neg Bool.false_ne_true]

end

-- Weights (R320).

section
variable {a : Block}

/-- The sixteen weights of a WFQ_SET, each with its polder. -/
def weightsOf (a : Block) : List (Nat × Nat) := ((List.range 16).map (fun p => fld a (4 + p) 0 8)).zipIdx

theorem zipIdx_weights (a : Block) : ((List.range 16).map (fun p => fld a (4 + p) 0 8)).zipIdx = weightsOf a := rfl

/-- Polders given no weight keep theirs. -/
theorem foldl_weightless (f : Mod → Nat × Nat → Mod) (m : Mod) (l : List Nat) :
    (l.map (fun p => (0, p))).foldl (fun m e => if e.1 == 0 then m else f m e) m = m := by
  induction l with
  | nil => rfl
  | cons p l ih => exact ih

variable (hw : fld a 4 0 8 ≠ 0) (hrest : ∀ i, 1 ≤ i → i < 16 → fld a (4 + i) 0 8 = 0)
include hrest

theorem weightsOf_first : weightsOf a = (fld a 4 0 8, 0) :: (List.range' 1 15).map (fun p => (0, p)) := by
  have hpairs : weightsOf a = (fld a 4 0 8, 0) :: (List.range' 1 15).map (fun p => (fld a (4 + p) 0 8, p)) := rfl
  rw [hpairs]
  refine congrArg _ (List.map_congr_left fun p hp => ?_)
  obtain ⟨hlow, hhigh⟩ := List.mem_range'_1.mp hp
  rw [hrest p hlow hhigh]

include hw

/-- Where only polder 0 is given a weight, only polder 0 can make the command wrong. -/
theorem any_weightsOf_first (c : Nat → Bool) : (weightsOf a).any (fun e => e.1 != 0 && c e.2) = c 0 := by
  simp [weightsOf_first hrest, bne_iff_ne.mpr hw, Function.comp_def]

/-- Where only polder 0 is given a weight, only polder 0's is set. -/
theorem foldl_weightsOf_first (f : Mod → Nat × Nat → Mod) (m : Mod) :
    (weightsOf a).foldl (fun m e => if e.1 == 0 then m else f m e) m = f m (fld a 4 0 8, 0) := by
  rw [weightsOf_first hrest, List.foldl_cons, foldl_weightless]
  exact if_neg (by simpa using hw)

end

theorem wfqSet_first {s : State} {b : Box} (h : Accepts s b 0x8C) (harb : fld (argOf s b) 0 0 4 ≤ 8) (hw : fld (argOf s b) 4 0 8 ≠ 0)
    (hrest : ∀ i, 1 ≤ i → i < 16 → fld (argOf s b) (4 + i) 0 8 = 0) (hc : (mbxBegun s.m b).pol[(0 : Fin 16)].composed = true) :
    wfqSet s.m b = mbxDone (modPol (mbxBegun s.m b) 0 (fun q => { q with
      wts := q.wts.put (fld (argOf s b) 0 0 4) (fld (argOf s b) 4 0 8) })) b stOk 0 := by
  have hone : (fld (argOf s b) 0 0 4 == 15) = false := beq_eq_false_iff_ne.mpr (by omega)
  have hok : (decide (8 < fld (argOf s b) 0 0 4) && fld (argOf s b) 0 0 4 != 15 ||
      (weightsOf (argOf s b)).any (fun e => e.1 != 0 && !(mbxBegun s.m b).pol[pn e.2].composed)) = false := by
    have hpol : (!(mbxBegun s.m b).pol[pn 0].composed) = false := congrArg not hc
    rw [any_weightsOf_first hw hrest (fun p => !(mbxBegun s.m b).pol[pn p].composed), hpol, decide_eq_false (Nat.not_lt.mpr harb)]
    rfl
  rw [wfqSet, accepts_runs h]
  simp only [zipIdx_weights, hok, hone, Bool.false_eq_true, if_false]
  rw [foldl_weightsOf_first hw hrest]
  rfl

-- Sluice tables (R322, R325).

theorem sluiceLoad_accepted {s : State} {b : Box} {list : Block} (h : Accepts s b 0x8A) (hform : flg (argOf s b) 1 0 = true)
    (hok : sluiceBad (mbxBegun s.m b) (argOf s b) (sluiceEntries list (min 256 (fld (argOf s b) 2 0 16))) = false) :
    sluiceLoad s.m b list = (
      let a := argOf s b
      let m1 := sluiceDue (mbxBegun s.m b) (portArg a)
      let c := firstStart (fld a 16 0 64) (fld a 4 0 32) (m1.net.ports[portArg a].clk + 100000)
      mbxDone (scheduleList m1 (portArg a) c (some
        { base := fld a 16 0 64, cycle := fld a 4 0 32, ext := fld a 8 0 32, entries := sluiceEntries list (min 256 (fld a 2 0 16)) })) b stOk c) := by
  rw [sluiceLoad, accepts_runsIf h hform]
  simp only [hok, Bool.false_eq_true, if_false]

theorem sluiceRemove_accepted {s : State} {b : Box} {x : Sluice} (h : Accepts s b 0x8A) (hform : flg (argOf s b) 1 0 = false)
    (hlink : fencedBit (mbxBegun s.m b).fence.link (portArg (argOf s b)).val = false)
    (hx : (sluiceDue (mbxBegun s.m b) (portArg (argOf s b))).net.ports[portArg (argOf s b)].sluice = some x) :
    sluiceRemove s.m b = (
      let m1 := sluiceDue (mbxBegun s.m b) (portArg (argOf s b))
      let c := firstStart x.base x.cycle (m1.net.ports[portArg (argOf s b)].clk + 100000)
      mbxDone (scheduleList m1 (portArg (argOf s b)) c none) b stOk c) := by
  have hremove : (!flg (argOf s b) 1 0) = true := by simpa using hform
  rw [sluiceRemove, accepts_runsIf h hremove]
  simp only [hlink, hx, Bool.false_eq_true, if_false]

-- The cycle start a list takes over at (R325).

section
variable {base cycle t : Nat}

theorem le_cdiv_mul (h : 0 < cycle) (a : Nat) : a ≤ cdiv a cycle * cycle := by
  have hnext := Nat.lt_div_mul_add (a := a + cycle - 1) h
  rw [cdiv]
  omega

theorem cdiv_mul_lt (h : 0 < cycle) (a : Nat) : cdiv a cycle * cycle < a + cycle := by
  have hle := Nat.div_mul_le_self (a + cycle - 1) cycle
  rw [cdiv]
  omega

theorem firstStart_ahead (h : t ≤ base) (cycle : Nat) : firstStart base cycle t = base := if_pos h

theorem firstStart_passed (hc : 0 < cycle) (h : base < t) : firstStart base cycle t = base + cdiv (t - base) cycle * cycle := by
  rw [firstStart, if_neg (Nat.not_le.mpr h), Nat.max_eq_right hc]

/-- A list's change is on one of its cycle starts, at or after the instant asked for, and on the first such start. -/
theorem firstStart_spec (hc : 0 < cycle) :
    t ≤ firstStart base cycle t ∧ base ≤ firstStart base cycle t ∧ (firstStart base cycle t - base) % cycle = 0 ∧
    (base < t → firstStart base cycle t < t + cycle) := by
  rcases Nat.lt_or_ge base t with hpast | hahead
  · rw [firstStart_passed hc hpast]
    have hle := le_cdiv_mul hc (t - base)
    have hlt := cdiv_mul_lt hc (t - base)
    refine ⟨by omega, Nat.le_add_right _ _, ?_, fun _ => by omega⟩
    rw [Nat.add_sub_cancel_left, Nat.mul_mod_left]
  · rw [firstStart_ahead hahead, Nat.sub_self]
    exact ⟨hahead, Nat.le_refl _, Nat.zero_mod _, fun hpast => absurd hpast (Nat.not_lt.mpr hahead)⟩

end

/-- Settles O31: each accepted command by the lemma of its row, the instant of a change by the cycle start it falls on. -/
theorem trafficSettingCommands : Obligations.TrafficSettingCommands := by
  unfold Obligations.TrafficSettingCommands
  refine ⟨fun s b => ⟨?set, ?disable, ?weight, ?load, ?remove⟩, fun base cycle t => firstStart_spec⟩
  case set =>
    intro h hform hok
    rw [exec_policerSet_working h.1, policerSet_accepted h hform hok]
  case disable =>
    intro h hform hok
    rw [exec_policerDisable_working h.1, policerDisable_accepted h hform hok]
  case weight =>
    intro h harb hw hrest hc
    rw [exec_wfqSet_working h.1, wfqSet_first h harb hw hrest hc]
  case load =>
    intro list h hform hok
    rw [exec_sluiceLoad_working h.1, sluiceLoad_accepted h hform hok]
  case remove =>
    intro x h hform hlink hx
    rw [exec_sluiceRemove_working h.1, sluiceRemove_accepted h hform hlink hx]

end Sys2Proof.Machine

/-! PROOFS. Frames, gates and refills (O35): which received frames are accepted, what a refill leaves in each policer, and what a port does at its entry
boundaries, list changes and frame ends. -/

namespace Sys2Proof.Machine

-- What an event row of the ports and policers does in a module at work: its meaning, then what follows every effect.

section
variable {s : State} (hw : s.m.working = true) (k : Fin 4)
include hw

theorem exec_ingressFrame_working (w : Wire) (used size : Nat) : exec (.ingressFrame k w used size) s = after s (ingressFrame s.m k w used size) :=
  work_on (f := fun _ m => ingressFrame m k w used size) hw

theorem exec_mkaFrame_working (agreed : Bool) : exec (.mkaFrame k agreed) s = after s (mkaFrame s.m k agreed) :=
  work_on (f := fun _ m => mkaFrame m k agreed) hw

theorem exec_neighbourFrame_working (addr : Nat) : exec (.neighbourFrame k addr) s = after s (neighbourFrame s.m k addr) :=
  work_on (f := fun _ m => neighbourFrame m k addr) hw

theorem exec_policerRefill_working (p : Fin 16) (t : Nat) : exec (.policerRefill p t) s = after s (keepCfg .mgmt s.m (policerRefill s.m p t)) :=
  work_on (f := fun _ m => keepCfg .mgmt m (policerRefill m p t)) hw

theorem exec_sluiceEntry_working (t : Nat) : exec (.sluiceEntry k t) s = after s (sluiceEntry s.m k t) :=
  work_on (f := fun _ m => sluiceEntry m k t) hw

theorem exec_sluiceChange_working (t : Nat) : exec (.sluiceChange k t) s = after s (sluiceChange s.m k t) :=
  work_on (f := fun _ m => sluiceChange m k t) hw

theorem exec_frameTxDone_working (t : Nat) : exec (.frameTxDone k t) s = after s (frameTxDone s.m k t) :=
  work_on (f := fun _ m => frameTxDone m k t) hw

end

-- Frames received (R315, R458, R459).

section
variable {m : Mod} {k : Fin 4} (hup : m.net.ports[k].up = true)
include hup

section
variable {w : Wire} (hlink : fencedBit m.fence.link k.val = false) (hcul : w.culvert = true) (hdst : w.dst = selfId m) (hlen : w.len ≤ maxL m k)
include hlink hcul hdst hlen

/-- A port that is up and not fenced discards no culvert frame for this module that fits. -/
theorem ingress_taken :
    (!m.net.ports[k].up || fencedBit m.fence.link k.val || !w.culvert || w.dst != selfId m || decide (maxL m k < w.len)) = false := by
  simp only [hup, hlink, hcul, hdst, bne_self_eq_false, decide_eq_false (Nat.not_lt.mpr hlen)]
  rfl

theorem ingressFrame_moduleLevel (hf : w.ftype = 0) (hty : moduleLevel w.ty = true) (used size : Nat) :
    ingressFrame m k w used size = { m with net := { m.net with rx := m.net.rx ++ [(k.val, w)] } } := by
  have hown : (w.ftype == 2 || (w.ftype == 0 && moduleLevel w.ty)) = true := by rw [hf, hty]; rfl
  simp only [ingressFrame, ingress_taken hup hlink hcul hdst hlen, hown, Bool.false_eq_true, if_false, if_true]

/-- A frame for a polder that may have it, whose policers are off, is green, and accepted where the receive buffer has room. -/
theorem ingressFrame_unpoliced (hf : w.ftype = 0) (hty : moduleLevel w.ty = false) (hc : m.pol[pn w.dstPol].composed = true)
    (hfence : m.pol[pn w.dstPol].fenced = false) (hport : bit m.pol[pn w.dstPol].ethPorts k.val = true)
    (hoff : ∀ i : Fin 6, m.pol[pn w.dstPol].polic[i].set.en = false) {used size : Nat} (hroom : used < size) :
    ingressFrame m k w used size = (
      let i := polIdx 2 (if bit (portBoard m k).lcPcp w.pcp then .lc else .be)
      let m1 := pinc (modPol m (pn w.dstPol) (fun q => { q with polic := q.polic.set i m.pol[pn w.dstPol].polic[i] })) (pn w.dstPol) (Ctr.polGreen i) w.len
      { m1 with net := { m1.net with rx := m1.net.rx ++ [(k.val, w)] } }) := by
  have hown : (w.ftype == 2 || (w.ftype == 0 && moduleLevel w.ty)) = false := by rw [hf, hty]; rfl
  have hpol : (!m.pol[pn w.dstPol].composed || m.pol[pn w.dstPol].fenced || !bit m.pol[pn w.dstPol].ethPorts k.val) = false := by
    rw [hc, hfence, hport]; rfl
  simp only [ingressFrame, ingress_taken hup hlink hcul hdst hlen, hown, hpol, police_disabled (hoff _), decide_eq_false (Nat.not_le.mpr hroom),
    Bool.false_eq_true, if_false]
  rfl

end

theorem mkaFrame_agreed (hsec : (portBoard m k).macsec = true) : mkaFrame m k true = modPort m k (fun po => { po with secured := true }) := by
  simp only [mkaFrame, hup, hsec, Bool.and_self, if_true]

theorem neighbourFrame_answered {addr : Nat} (hlink : fencedBit m.fence.link k.val = false) (hboard : m.net.board.isSome = true) (hne : addr ≠ 0)
    (haddr : addr = (portBoard m k).ipv4) : neighbourFrame m k addr = emit m (.neighbour k.val addr (portBoard m k).mac) := by
  have hours : (addr == (portBoard m k).ipv4) = true := beq_iff_eq.mpr haddr
  simp only [neighbourFrame, hup, hlink, hboard, bne_iff_ne.mpr hne, hours, Bool.not_false, Bool.and_self, Bool.true_or, if_true]

end

-- Refills (R314, R317).

/-- A policer of a slice brought to refill n from refill `was`, with the count of updates applied. -/
def refillOne (was n : Nat) (a : Vector Policer 6 × Nat) (i : Nat) : Vector Policer 6 × Nat :=
  let f : Fin 6 := ⟨i % 6, Nat.mod_lt _ (by decide)⟩
  (a.1.set f (refillTo i was n a.1[f]).2, a.2 + b2n (refillTo i was n a.1[f]).1)

/-- The first policers of a slice brought to refill n. -/
def refillFirst (was n : Nat) (pls : Vector Policer 6) (j : Nat) : Vector Policer 6 × Nat := (List.range j).foldl (refillOne was n) (pls, 0)

theorem refillFirst_succ (was n : Nat) (pls : Vector Policer 6) (j : Nat) :
    refillFirst was n pls (j + 1) = refillOne was n (refillFirst was n pls j) j := by
  simp only [refillFirst, List.range_succ, List.foldl_append, List.foldl_cons, List.foldl_nil]

theorem refillOne_get (was n : Nat) (a : Vector Policer 6) (x : Nat) (i j : Fin 6) :
    (refillOne was n (a, x) j.val).1[i] = if i.val = j.val then (refillTo j.val was n a[j]).2 else a[i] := by
  have hindex : j.val % 6 = j.val := Nat.mod_eq_of_lt j.isLt
  simp only [refillOne, hindex, Fin.getElem_fin, Vector.getElem_set, eq_comm (a := j.val) (b := i.val)]

/-- Each policer among the first is refilled once, and the others stay. -/
theorem refillFirst_get (was n : Nat) (pls : Vector Policer 6) {j : Nat} (hj : j ≤ 6) (i : Fin 6) :
    (refillFirst was n pls j).1[i] = if i.val < j then (refillTo i.val was n pls[i]).2 else pls[i] := by
  induction j generalizing i with
  | zero => rfl
  | succ j ih =>
    have hprev := ih (Nat.le_of_succ_le hj)
    have hone := refillOne_get was n (refillFirst was n pls j).1 (refillFirst was n pls j).2 i ⟨j, hj⟩
    rw [refillFirst_succ, hone, hprev, hprev]
    rcases Nat.lt_trichotomy i.val j with hlt | heq | hgt
    · rw [if_neg (Nat.ne_of_lt hlt), if_pos hlt, if_pos (Nat.lt_succ_of_lt hlt)]
    · obtain rfl : i = ⟨j, hj⟩ := Fin.ext heq
      rw [if_pos rfl, if_neg (Nat.lt_irrefl j), if_pos (Nat.lt_succ_self j)]
    · rw [if_neg (Nat.ne_of_gt hgt), if_neg (Nat.lt_asymm hgt), if_neg (by omega)]

/-- The polder's policers after the refill that its counter has come to. -/
def refilled (m : Mod) (p : Fin 16) : Mod :=
  modPol m p (fun q => { q with polic := (refillFirst m.pol[p].refill (m.pol[p].clk / 1000) m.pol[p].polic 6).1, refill := m.pol[p].clk / 1000 })

section
variable {m : Mod} {p : Fin 16} {t : Nat}

theorem policerRefill_due (hc : m.pol[p].composed = true) (hn : m.pol[p].refill < max m.pol[p].clk t / 1000) (hmbx : (getMbx m .mgmt).busy = false) :
    policerRefill m p t = kickPort (kickPort (kickPort (kickPort (refilled (tickPol m p t) p) 0) 1) 2) 3 := by
  have hgo : (decide ((tickPol m p t).pol[p].clk / 1000 ≤ (tickPol m p t).pol[p].refill) || !(tickPol m p t).pol[p].composed) = false := by
    simp only [Fin.getElem_fin, tickPol_pol_same, Bool.or_eq_false_iff, decide_eq_false_iff_not, Bool.not_eq_false']
    exact ⟨Nat.not_le.mpr hn, hc⟩
  have hbusy : (getMbx (refilled (tickPol m p t) p) .mgmt).busy = false := hmbx
  have hidle (x y : Bool) : ¬ (x && (getMbx (refilled (tickPol m p t) p) .mgmt).busy && y) = true := by simp [hbusy]
  rw [policerRefill]
  dsimp only
  rw [hgo, if_neg Bool.false_ne_true]
  exact congrArg (fun m2 => kickPort (kickPort (kickPort (kickPort m2 0) 1) 2) 3) (if_neg (hidle _ _))

theorem refilled_refill : (refilled (tickPol m p t) p).pol[p].refill = max m.pol[p].clk t / 1000 := by
  simp [refilled]

theorem refilled_polic (i : Fin 6) :
    (refilled (tickPol m p t) p).pol[p].polic[i] = (refillTo i.val m.pol[p].refill (max m.pol[p].clk t / 1000) m.pol[p].polic[i]).2 := by
  simp only [refilled, Fin.getElem_fin, modPol_pol_same, tickPol_pol_same]
  exact (refillFirst_get _ _ _ (Nat.le_refl 6) i).trans (if_pos i.isLt)

theorem refilled_pol_other {q : Fin 16} (h : q ≠ p) : (refilled (tickPol m p t) p).pol[q] = m.pol[q] :=
  (modPol_pol_other _ p q _ h).trans (modPol_pol_other m p q _ h)

end

-- Gates and the end of a frame (R321, R324, R325).

section
variable {m : Mod} {k : Fin 4} {t : Nat}

theorem tickPort_same (m : Mod) (k : Fin 4) (t : Nat) : (tickPort m k t).net.ports[k] = { m.net.ports[k] with clk := max m.net.ports[k].clk t } :=
  modPort_same m k _

theorem sluiceDue_none (h : m.net.ports[k].change = none) : sluiceDue m k = m := by
  simp only [sluiceDue, h]

theorem sluiceDue_due {c : Nat} {l : Option Sluice} (h : m.net.ports[k].change = some (c, l)) (hdue : c ≤ m.net.ports[k].clk) :
    sluiceDue m k = minc (modPort m k (fun po => { po with
      sluice := l, change := none, gates := if l.isNone then 255 else po.gates })) (Ctr.sluChanges k.val) (b2n l.isSome) := by
  simp only [sluiceDue, h, if_neg (Nat.not_lt.mpr hdue)]

theorem sluiceEntry_unchanged (h : m.net.ports[k].change = none) : sluiceEntry m k t = kickPort (setGates (tickPort m k t) k) k := by
  have hnone : (tickPort m k t).net.ports[k].change = none := by rw [tickPort_same, h]
  rw [sluiceEntry, sluiceDue_none hnone]

theorem sluiceChange_due {c : Nat} {l : Option Sluice} (h : m.net.ports[k].change = some (c, l)) (hdue : c ≤ max m.net.ports[k].clk t) :
    sluiceChange m k t = kickPort (setGates (minc (modPort (tickPort m k t) k (fun po => { po with
      sluice := l, change := none, gates := if l.isNone then 255 else po.gates })) (Ctr.sluChanges k.val) (b2n l.isSome)) k) k := by
  have hloaded : (tickPort m k t).net.ports[k].change = some (c, l) := by rw [tickPort_same, h]
  have hpast : c ≤ (tickPort m k t).net.ports[k].clk := by rw [tickPort_same]; exact hdue
  simp only [sluiceChange, hloaded, Option.elim_some, decide_eq_false (Nat.not_lt.mpr hpast), Bool.false_eq_true, if_false, sluiceDue_due hloaded hpast]

theorem frameTxDone_ends {x : EgrFrame × Nat} (h : m.net.ports[k].flight = some x) (hend : x.2 ≤ max m.net.ports[k].clk t) :
    frameTxDone m k t = kickPort (modPort (tickPort m k t) k (fun po => { po with flight := none, lastEnd := x.2 })) k := by
  have hsent : (tickPort m k t).net.ports[k].flight = some x := by rw [tickPort_same, h]
  have hpast : x.2 ≤ (tickPort m k t).net.ports[k].clk := by rw [tickPort_same]; exact hend
  simp only [frameTxDone, hsent, if_neg (Nat.not_lt.mpr hpast)]

end

/-- Settles O35: each event at work, then the lemma of the case its hypotheses name. -/
theorem framesGatesAndRefills : Obligations.FramesGatesAndRefills := by
  unfold Obligations.FramesGatesAndRefills
  refine ⟨fun s k hw hup => ⟨?moduleLevel, ?unpoliced, ?mka, ?neighbour⟩, ?refill, ?entry, ?change, ?sent⟩
  case moduleLevel =>
    intro w used size hlink hcul hdst hlen hf hty
    rw [exec_ingressFrame_working hw, ingressFrame_moduleLevel hup hlink hcul hdst hlen hf hty]
  case unpoliced =>
    intro w used size hlink hcul hdst hlen hf hty hc hfence hport hoff hroom
    rw [exec_ingressFrame_working hw, ingressFrame_unpoliced hup hlink hcul hdst hlen hf hty hc hfence hport hoff hroom]
  case mka =>
    intro hsec
    rw [exec_mkaFrame_working hw, mkaFrame_agreed hup hsec]
  case neighbour =>
    intro addr hlink hboard hne haddr
    rw [exec_neighbourFrame_working hw, neighbourFrame_answered hup hlink hboard hne haddr]
  case refill =>
    intro s p t hw hc hn hmbx
    refine ⟨refilled (tickPol s.m p t) p, ?_, refilled_refill, refilled_polic, fun q hq => refilled_pol_other hq⟩
    rw [exec_policerRefill_working hw, policerRefill_due hc hn hmbx]
  case entry =>
    intro s k t hw hnone
    rw [exec_sluiceEntry_working hw, sluiceEntry_unchanged hnone]
  case change =>
    intro s k t c l hw hloaded hdue
    rw [exec_sluiceChange_working hw, sluiceChange_due hloaded hdue]
  case sent =>
    intro s k t x hw hsent hend
    rw [exec_frameTxDone_working hw, frameTxDone_ends hsent hend]

end Sys2Proof.Machine

/-! PROOFS. Power settings (O32): a valid POWER_BUDGET or CLAMP_RELEASE that a mailbox has accepted joins the commands the next control interval
applies. -/

namespace Sys2Proof.Machine

/-- A valid argument waits for the next control interval (R337). -/
theorem takeBudget_waits {m : Mod} {b : Box} {a : Block} (hhot : releaseHot m a = false) (hok : budgetBad m b a = false) :
    takeBudget m b a = modPw m (fun x => { x with cmds := x.cmds ++ [(b, a)] }) := by
  rw [takeBudget, hhot, hok, if_neg Bool.false_ne_true, if_neg Bool.false_ne_true]

-- What a power command of a module at work does: its meaning, then what follows every effect.

section
variable {s : State} (hw : s.m.working = true) (b : Box)
include hw

theorem exec_powerBudget_working : exec (.powerBudget b) s = after s (powerBudget s.m b) :=
  work_on (f := fun _ m => powerBudget m b) hw

theorem exec_powerBudgetPolder_working : exec (.powerBudgetPolder b) s = after s (powerBudgetPolder s.m b) :=
  work_on (f := fun _ m => powerBudgetPolder m b) hw

theorem exec_clampRelease_working : exec (.clampRelease b) s = after s (clampRelease s.m b) :=
  work_on (f := fun _ m => clampRelease m b) hw

end

-- The three forms of the opcode: each takes the accepted argument (R333, R337).

section
variable {s : State} {b : Box} (h : Accepts s b 0x88)
include h

theorem powerBudget_accepted (hscope : flg (argOf s b) 0 0 = false) (hrelease : flg (argOf s b) 0 1 = false) :
    powerBudget s.m b = takeBudget (mbxBegun s.m b) b (argOf s b) :=
  accepts_runsIf h (by rw [hscope, hrelease]; rfl) _

theorem powerBudgetPolder_accepted (hscope : flg (argOf s b) 0 0 = true) (hrelease : flg (argOf s b) 0 1 = false) :
    powerBudgetPolder s.m b = takeBudget (mbxBegun s.m b) b (argOf s b) :=
  accepts_runsIf h (by rw [hscope, hrelease]; rfl) _

theorem clampRelease_accepted (hrelease : flg (argOf s b) 0 1 = true) :
    clampRelease s.m b = takeBudget (mbxBegun s.m b) b (argOf s b) :=
  accepts_runsIf h hrelease _

end

/-- Settles O32: each form takes its argument, and a valid argument waits. -/
theorem powerBudgetCommands : Obligations.PowerBudgetCommands := by
  unfold Obligations.PowerBudgetCommands
  intro s b m a h hhot hok
  have hw : s.m.working = true := h.1
  refine ⟨?moduleScope, ?polderScope, ?release⟩
  case moduleScope =>
    intro hscope hrelease
    rw [exec_powerBudget_working hw, powerBudget_accepted h hscope hrelease, takeBudget_waits hhot hok]
  case polderScope =>
    intro hscope hrelease
    rw [exec_powerBudgetPolder_working hw, powerBudgetPolder_accepted h hscope hrelease, takeBudget_waits hhot hok]
  case release =>
    intro hrelease
    rw [exec_clampRelease_working hw, clampRelease_accepted h hrelease, takeBudget_waits hhot hok]

end Sys2Proof.Machine

/-! PROOFS. Fuses (O3 to O5): the bits each step of a start and of an activation can blow, every other command leaving all of them, and the registers
right after reset. -/

namespace Sys2Proof.Machine

-- More and more bits blown (R351).

namespace FusesKeep

theorem refl (f : Fuses) : FusesKeep f f := ⟨rfl, rfl, rfl, rfl, fun _ h => h, fun _ h => h⟩

theorem trans {f g h : Fuses} (hfg : FusesKeep f g) (hgh : FusesKeep g h) : FusesKeep f h where
  uds := hgh.uds.trans hfg.uds
  keyHash := hgh.keyHash.trans hfg.keyHash
  debugLock := hgh.debugLock.trans hfg.debugLock
  serial := hgh.serial.trans hfg.serial
  revoke n hn := hgh.revoke n (hfg.revoke n hn)
  svnMin n hn := hgh.svnMin n (hfg.svnMin n hn)

/-- Steps that each only blow fuses only blow fuses in a row. -/
theorem foldl {α β : Type} {step : Fuses × β → α → Fuses × β} (hstep : ∀ s a, FusesKeep s.1 (step s a).1) (l : List α) (s : Fuses × β) :
    FusesKeep s.1 (l.foldl step s).1 :=
  List.foldlRecOn l step (motive := fun t => FusesKeep s.1 t.1) (.refl _) fun t ht a _ => ht.trans (hstep t a)

end FusesKeep

theorem bit_eq_testBit (v n : Nat) : bit v n = v.testBit n := by
  rw [Nat.testBit_eq_decide_div_mod_eq, ← Nat.shiftRight_eq_div_pow]
  rfl

theorem bit_or_left {v n : Nat} (w : Nat) (h : bit v n = true) : bit (v ||| w) n = true := by
  rw [bit_eq_testBit] at h ⊢
  rw [Nat.testBit_or, h, Bool.true_or]

/-- What blows fuses sets bits of FW_SVN_MIN and KEY_REVOKE and clears none. -/
theorem blowFuses_keeps (fz : Fuses) (r : FuseReq) : FusesKeep fz (blowFuses fz r) :=
  ⟨rfl, rfl, rfl, rfl, fun _ => bit_or_left _, fun _ => bit_or_left _⟩

-- Starts (R482, R503).

theorem secureBoot_keeps (fz : Fuses) (m : Mod) : FusesKeep fz (secureBoot fz m).1 := by
  unfold secureBoot
  dsimp only
  split
  · next a _ =>
    dsimp only
    split
    · next r _ =>
      split
      · exact blowFuses_keeps fz r
      · exact .refl fz
    · exact .refl fz
  · split <;> exact .refl fz

/-- Of the stages of a start only secure boot can blow fuses. -/
theorem startStage_keeps (b : BootIn) (cold : Bool) (s : Fuses × Mod) (n : Nat) : FusesKeep s.1 (startStage b cold s n).1 := by
  unfold startStage
  dsimp only
  split
  · exact .refl _
  · split
    case h_2 => exact secureBoot_keeps s.1 s.2
    all_goals exact .refl _

theorem runStages_keeps (b : BootIn) (cold : Bool) (upTo : Nat) (s : Fuses × Mod) : FusesKeep s.1 (runStages b cold upTo s).1 := by
  refine FusesKeep.foldl (fun s n => ?_) _ s
  split
  · exact startStage_keeps b cold s n
  · exact .refl _

theorem coldStart_keeps (fz : Fuses) (m : Mod) (b : BootIn) (upTo : Nat) : FusesKeep fz (coldStart fz m b upTo).1 := by
  unfold coldStart
  dsimp only
  split
  · exact .refl fz
  · split
    · exact runStages_keeps b true upTo (fz, m)
    · split
      · exact .refl fz
      · exact runStages_keeps _ true upTo (fz, _)

theorem mrstRelease_keeps (fz : Fuses) (m : Mod) (b : BootIn) (upTo : Nat) : FusesKeep fz (mrstRelease fz m b upTo).1 := by
  unfold mrstRelease
  dsimp only
  split
  · exact .refl fz
  · split
    · exact .refl fz
    · exact coldStart_keeps fz _ b upTo

theorem warmReset_keeps (fz : Fuses) (m : Mod) (b : BootIn) (upTo : Nat) : FusesKeep fz (warmReset fz m b upTo).1 := by
  unfold warmReset
  dsimp only
  split
  · exact .refl fz
  · split
    · exact .refl fz
    · exact runStages_keeps _ false upTo (fz, _)

-- Activations (R502, Table 17-11).

/-- Of the steps of an activation only step 4 blows fuses. -/
theorem activateStep_keeps (b : Box) (a : Block) (good : Bool) (s : Fuses × Mod) (n : Nat) : FusesKeep s.1 (activateStep b a good s n).1 := by
  unfold activateStep
  dsimp only
  split
  case h_3 => split <;> exact .refl _
  case h_4 => exact blowFuses_keeps s.1 _
  all_goals exact .refl _

/-- The steps of one row, from the one after the last step done. -/
theorem activateRun_keeps (b : Box) (a : Block) (good : Bool) (last step : Nat) (fz : Fuses) (m : Mod) :
    FusesKeep fz (((List.range 5).map (fun i => i + 1)).foldl (fun s k =>
      if last < k && k ≤ max 1 step && (k == 1 || s.2.sys.fw.act.isSome) then activateStep b a good s k else s) (fz, m)).1 := by
  refine FusesKeep.foldl (fun s k => ?_) _ (fz, m)
  split
  · exact activateStep_keeps b a good s k
  · exact .refl _

theorem fwActivate_keeps (fz : Fuses) (m : Mod) (b : Box) (step : Nat) (good : Bool) : FusesKeep fz (fwActivate (fz, m) b step good).1 := by
  unfold fwActivate
  dsimp only
  split
  · split
    · exact activateRun_keeps ..
    · exact .refl fz
  · split
    · exact .refl fz
    · split
      · exact .refl fz
      · split
        · exact .refl fz
        · exact activateRun_keeps ..

-- Commands.

/-- The commands that can blow fuses: the starts and an activation. -/
def canBlow : Instr → Bool
  | .coldStart .. | .mrstLRelease .. | .warmReset .. | .fwUpdateActivate .. => true
  | _ => false

/-- Every other command answers a next state that differs in the module alone. -/
theorem exec_module_only {c : Instr} (h : canBlow c = false) (s : State) : ∃ m, exec c s = withMod s m := by
  cases c
  case coldStart | mrstLRelease | warmReset | fwUpdateActivate => cases h
  all_goals exact ⟨_, rfl⟩

theorem exec_fuses_unchanged {c : Instr} (h : canBlow c = false) {s t : State} (hexec : exec c s = .next t) : t.fuses = s.fuses := by
  obtain ⟨m, hm⟩ := exec_module_only h s
  cases hm.symm.trans hexec
  rfl

section
variable {s t : State} {f : Fuses → Mod → Fuses × Mod} (hf : ∀ z m, FusesKeep z (f z m).1)
include hf

theorem workF_keeps (h : workF s f = .next t) : FusesKeep s.fuses t.fuses := by
  unfold workF at h
  cases h
  split
  · exact hf s.fuses s.m
  · exact .refl _

theorem alwaysF_keeps (h : alwaysF s f = .next t) : FusesKeep s.fuses t.fuses := by
  cases h
  exact hf s.fuses s.m

end

theorem exec_keeps_fuses {c : Instr} {s t : State} (h : exec c s = .next t) : FusesKeep s.fuses t.fuses := by
  cases hc : canBlow c
  case false => exact exec_fuses_unchanged hc h ▸ .refl _
  case true =>
    cases c
    case coldStart b upTo => exact alwaysF_keeps (fun z m => coldStart_keeps z m b upTo) h
    case mrstLRelease b upTo => exact alwaysF_keeps (fun z m => mrstRelease_keeps z m b upTo) h
    case warmReset b upTo => exact workF_keeps (fun z m => warmReset_keeps z m b upTo) h
    case fwUpdateActivate b step good => exact workF_keeps (fun z m => fwActivate_keeps z m b step good) h
    all_goals cases hc

/-- Settles O5: a step with nothing waiting changes nothing; otherwise the front command only blows fuses. -/
theorem blownFusesStayBlown : Obligations.BlownFusesStayBlown := by
  unfold Obligations.BlownFusesStayBlown
  intro f s t hkeep hstep
  unfold step at hstep
  split at hstep
  · cases hstep
    exact hkeep
  · next c rest _ => exact hkeep.trans (exec_keeps_fuses (s := { s with pending := rest }) hstep)

/-- Settles O4: a command that is no start and no activation replaces the module alone. -/
theorem onlyStartsAndActivationChangeFuses : Obligations.OnlyStartsAndActivationChangeFuses := by
  unfold Obligations.OnlyStartsAndActivationChangeFuses
  intro c s t hexec hcold hrelease hwarm hactivate
  have hc : canBlow c = false := by
    unfold canBlow
    split
    · next b u => exact absurd rfl (hcold b u)
    · next b u => exact absurd rfl (hrelease b u)
    · next b u => exact absurd rfl (hwarm b u)
    · next b n g => exact absurd rfl (hactivate b n g)
    · rfl
  exact exec_fuses_unchanged hc hexec

/-- Settles O3: the registers read at the reset state, and no fuse blown since delivery. -/
theorem resetRegisterValues : Obligations.ResetRegisterValues := by
  unfold Obligations.ResetRegisterValues
  refine ⟨⟨rfl, rfl, fun fz => ⟨rfl, rfl, rfl, rfl, rfl⟩, ?status, ?caps, ?faults, ?wmb, ?conf, ?priv, rfl, ?mailboxes, ?polders⟩, FusesKeep.refl _⟩
  case status => decide +kernel
  case caps => decide +kernel
  case faults => decide +kernel
  case wmb => decide +kernel
  case conf => decide +kernel
  case priv => decide +kernel
  case mailboxes =>
    intro b
    cases b with
    | mgmt => decide +kernel
    | pol p =>
      revert p
      decide +kernel
  case polders => decide +kernel

end Sys2Proof.Machine

/-! PROOFS. Keys and quotes (O29): a quote of the module, the rotation of a polder's key at rest, and a bounce setup that verifies or is refused. -/

namespace Sys2Proof.Machine

-- What a key command of a module at work does: its meaning, then what follows every effect.

section
variable {s : State} (hw : s.m.working = true) (b : Box)
include hw

theorem exec_attestQuote_working : exec (.attestQuote b) s = after s (attestQuote s.fuses s.m b) :=
  work_on (f := fun z m => attestQuote z m b) hw

theorem exec_keyRotateAtRest_working : exec (.keyRotateAtRest b) s = after s (keyRotateAtRest s.m b) :=
  work_on (f := fun _ m => keyRotateAtRest m b) hw

theorem exec_keyRotateBounce_working (x : Block) : exec (.keyRotateBounce b x) s = after s (keyRotateBounce s.m b x) :=
  work_on (f := fun _ m => keyRotateBounce m b x) hw

end

@[simp] theorem mbxBegun_entropyOk (m : Mod) (b : Box) : (mbxBegun m b).entropyOk = m.entropyOk := modMbx_entropyOk m b _

@[simp] theorem mbxBegun_sys (m : Mod) (b : Box) : (mbxBegun m b).sys = m.sys := modMbx_sys m b _

-- Quotes (R360).

theorem attestQuote_module {s : State} (h : Accepts s .mgmt 0x86) (hpol : fld (argOf s .mgmt) 0 0 8 = 0xFF)
    (halign : fld (argOf s .mgmt) 8 0 64 % 64 = 0) (hlen : 7688 ≤ fld (argOf s .mgmt) 16 0 32) (hact : s.m.sys.fw.act = none) :
    attestQuote s.fuses s.m .mgmt = (
      let m := mbxBegun s.m .mgmt
      let a := argOf s .mgmt
      let r := signQuote m (akSeed s.fuses m) (quoteOf s.fuses m none (fld a 32 0 256))
      mbxDone (emit r.2 (.host (fld a 8 0 64) 7688 (quoteBytes r.1))) .mgmt stOk (at8 16 7688)) := by
  rw [attestQuote, accepts_runs h]
  simp [hpol, halign, Nat.not_lt.mpr hlen, hact]

-- The key at rest (R365) and the bounce keys (R374).

/-- A polder with a fresh key in the slot CURRENT was not in, the key before it PREVIOUS, and its vault entry written again. -/
def keyRotated (m : Mod) (p : Fin 16) : Mod :=
  let cur := 1 - keyselOf m.pol[p] % 2
  let r := takeKeyPair (wfqServe m p 8 1)
  pinc (vaultWrite (modPol r.2 p (fun q => { q with
    keyEpoch := (q.keyEpoch + 1) % 2 ^ 32
    sec := { q.sec with
      keysel := Tri.mk1 (cur + 2 + 4), key0 := if cur == 0 then r.1 else q.sec.key0, key1 := if cur == 1 then r.1 else q.sec.key1 } })) p)
    p Ctr.keyRotations 1

/-- A sealed polder with the bounce keys of a shared secret: both directions' keys, the next BB_EPOCH, every counter at zero, the window and a fresh
KEM key. -/
def bounceKeyed (m : Mod) (p : Fin 16) (base len ss : Nat) : Mod :=
  modPol (takeRandom (wfqServe m p 8 1)).2 p (fun q => { q with
    sqs := q.sqs.map (fun z => { z with lastCtr := 0 })
    sec := { q.sec with
      h2m := sha3Label "CS1600-BB-H2M" [(32, ss), (32, kemDigest q)], m2h := sha3Label "CS1600-BB-M2H" [(32, ss), (32, kemDigest q)]
      bbEpoch := (q.sec.bbEpoch + 1) % 2 ^ 32, bbBase := base, bbLen := len, m2hCtr := 0, kem := (takeRandom (wfqServe m p 8 1)).1 } })

section
variable {s : State} {b : Box} (h : Accepts s b 0x87) {p : Fin 16} (hp : argPolder (mbxBegun s.m b) (argOf s b) = some p)
  (hrandom : s.m.entropyOk = true)
include h hp hrandom

theorem keyRotateAtRest_accepted (hform : flg (argOf s b) 1 0 = false) (hprev : bit (keyselOf (mbxBegun s.m b).pol[p]) 1 = false) :
    keyRotateAtRest s.m b =
      mbxDone (keyRotated (mbxBegun s.m b) p) b stOk (at8 16 (keyRotated (mbxBegun s.m b) p).pol[p].keyEpoch + at8 20 1) := by
  have hrest : (!flg (argOf s b) 1 0) = true := congrArg not hform
  rw [keyRotateAtRest, accepts_runsIf h hrest]
  simp only [hp, hprev, mbxBegun_entropyOk, hrandom, Bool.not_true, Bool.false_eq_true, if_false]
  rfl

/-- A setup of the tenant's, with a window of the right form, is refused or installs its keys by its signature and its ciphertext alone. -/
theorem keyRotateBounce_accepted (hform : flg (argOf s b) 1 0 = true) (hbase : fld (argOf s b) 16 0 64 % 4096 = 0)
    (halign : fld (argOf s b) 24 0 64 % 4096 = 0) (hmin : 65536 ≤ fld (argOf s b) 24 0 64) (hmax : fld (argOf s b) 24 0 64 ≤ 2 ^ 34)
    (hsealed : (mbxBegun s.m b).pol[p].sealed = true) {x : Block} (htenant : sha3Of [(1312, setupKey x)] = (mbxBegun s.m b).pol[p].tenant) :
    keyRotateBounce s.m b x =
      if Config.mldsaVerify (setupKey x) (bounceMsg (mbxBegun s.m b).pol[p] p x (fld (argOf s b) 16 0 64) (fld (argOf s b) 24 0 64)) (setupSig x) then
        (Config.kemDecap (mbxBegun s.m b).pol[p].sec.kem (setupCt x)).elim
          (mbxDone (pinc (mbxBegun s.m b) p Ctr.bbSetupFail 1) b stBadCmd 0)
          (fun ss =>
            let m2 := bounceKeyed (mbxBegun s.m b) p (fld (argOf s b) 16 0 64) (fld (argOf s b) 24 0 64) ss
            mbxDone (pinc m2 p Ctr.bbSetup 1) b stOk (at8 16 m2.pol[p].sec.bbEpoch))
      else mbxDone (pinc (mbxBegun s.m b) p Ctr.bbSetupFail 1) b stBadCmd 0 := by
  have hwindow : (fld (argOf s b) 16 0 64 % 4096 != 0 || fld (argOf s b) 24 0 64 % 4096 != 0 || decide (fld (argOf s b) 24 0 64 < 65536) ||
      decide (2 ^ 34 < fld (argOf s b) 24 0 64)) = false := by
    simp only [hbase, halign, decide_eq_false (Nat.not_lt.mpr hmin), decide_eq_false (Nat.not_lt.mpr hmax)]
    rfl
  rw [keyRotateBounce, accepts_runsIf h hform]
  simp only [hp, hwindow, mbxBegun_entropyOk, hrandom, hsealed, htenant, bne_self_eq_false, Bool.not_true, Bool.false_or, Bool.false_eq_true, if_false]
  generalize Config.mldsaVerify _ _ _ = verifies
  cases verifies
  case false => rfl
  case true => cases Config.kemDecap (mbxBegun s.m b).pol[p].sec.kem (setupCt x) <;> rfl

end

/-- Settles O29: each accepted command by the lemma of its row. -/
theorem keyAndQuoteCommands : Obligations.KeyAndQuoteCommands := by
  unfold Obligations.KeyAndQuoteCommands
  refine fun s b => ⟨?quote, ?atRest, ?bounce⟩
  case quote =>
    rintro rfl h hpol halign hlen hact
    rw [exec_attestQuote_working h.1, attestQuote_module h hpol halign hlen hact]
  case atRest =>
    intro p h hform hp hprev hrandom
    rw [exec_keyRotateAtRest_working h.1, keyRotateAtRest_accepted h hp hrandom hform hprev]
    rfl
  case bounce =>
    intro p x h hform hp hbase halign hmin hmax hrandom hsealed htenant
    rw [exec_keyRotateBounce_working h.1, keyRotateBounce_accepted h hp hrandom hform hbase halign hmin hmax hsealed htenant]
    cases Config.kemDecap (mbxBegun s.m b).pol[p].sec.kem (setupCt x) <;> rfl

end Sys2Proof.Machine

/-! PROOFS. Culvert and transfer keys (O58): received frames, acknowledgements, resends and idle lanes, and how a transfer key is agreed, renewed and
given up, case by case. -/

namespace Sys2Proof.Machine

-- What an event of culvert and of the transfer keys does in a module at work: its meaning, then what follows every effect.

section
variable {s : State} (hw : s.m.working = true)
include hw

theorem exec_culvertData_working (t : Nat) : exec (.culvertData t) s = after s (culvertData s.m t) :=
  work_on (f := fun _ m => culvertData m t) hw

theorem exec_culvertAck_working (t : Nat) : exec (.culvertAck t) s = after s (culvertAck s.m t) :=
  work_on (f := fun _ m => culvertAck m t) hw

theorem exec_culvertAckTimer_working (src lane t : Nat) : exec (.culvertAckTimer src lane t) s = after s (culvertAckTimer s.m src lane t) :=
  work_on (f := fun _ m => culvertAckTimer m src lane t) hw

theorem exec_culvertResendTimer_working (dst lane psn t : Nat) :
    exec (.culvertResendTimer dst lane psn t) s = after s (culvertResendTimer s.m dst lane psn t) :=
  work_on (f := fun _ m => culvertResendTimer m dst lane psn t) hw

theorem exec_keepaliveTimer_working (dst lane t : Nat) : exec (.keepaliveTimer dst lane t) s = after s (keepaliveTimer s.m dst lane t) :=
  work_on (f := fun _ m => keepaliveTimer m dst lane t) hw

theorem exec_keepalive_arrived {src : Nat} (ha : Arrived s.m src 0 0 0 0x0D) : exec (.keepalive src) s = after s (heard (unlaned s.m src 0) src) :=
  work_arrived hw ha (fun m => heard m src)

variable (p : Fin 16)

theorem exec_tkHello_working (src srcPol : Nat) (q : Quote) (ct : Nat) (verifies : Bool) :
    exec (.tkHello src srcPol p q ct verifies) s = after s (tkHello s.fuses s.m src srcPol p q ct verifies) :=
  work_on (f := fun z m => tkHello z m src srcPol p q ct verifies) hw

theorem exec_tkRenew_working (mod pol t : Nat) : exec (.tkRenew p mod pol t) s = after s (tkRenew s.fuses s.m p mod pol t) :=
  work_on (f := fun z m => tkRenew z m p mod pol t) hw

theorem exec_tkExpire_working (mod pol t : Nat) : exec (.tkExpire p mod pol t) s = after s (tkExpire s.m p mod pol t) :=
  work_on (f := fun _ m => tkExpire m p mod pol t) hw

theorem exec_tkPreviousDiscard_working (mod pol t : Nat) :
    exec (.tkPreviousDiscard p mod pol t) s = after s (tkPreviousDiscard s.m p mod pol t) :=
  work_on (f := fun _ m => tkPreviousDiscard m p mod pol t) hw

end

-- Frames and lanes (R466).

section
variable {m0 : Mod} {t : Nat}

/-- A frame whose CHECK fails is taken and goes. -/
theorem culvertData_unchecked {port : Nat} {w : Wire} {m : Mod} (hrx : takeRx (tickHvl m0 t) 0 = some ((port, w), m)) (hcheck : w.check = false) :
    culvertData m0 t = m := by
  simp only [culvertData, hrx, hcheck, Bool.not_false, Bool.true_or, if_true]

theorem culvertAck_unchecked {port : Nat} {w : Wire} {m : Mod} (hrx : takeRx (tickHvl m0 t) 1 = some ((port, w), m)) (hcheck : w.check = false) :
    culvertAck m0 t = m := by
  simp only [culvertAck, hrx, hcheck, Bool.not_false, if_true]

theorem laneOf_tickHvl (m : Mod) (t key : Nat) : laneOf (tickHvl m t) key = laneOf m key := rfl

theorem culvertAckTimer_waiting {src lane o : Nat} (hold : (laneOf m0 (laneKey src (lane % 2))).oldest = some o) :
    culvertAckTimer m0 src lane t = if o + 10000 ≤ max m0.hvl t then sendAck (tickHvl m0 t) (laneKey src (lane % 2)) else tickHvl m0 t := by
  rw [culvertAckTimer]
  simp only [laneOf_tickHvl, hold]
  rfl

theorem culvertResendTimer_due {dst lane psn : Nat} {f : CulFrame}
    (hfind : (laneOf m0 (laneKey dst (lane % 2))).unacked.find? (fun f => f.psn == psn) = some f) (hdue : f.sentAt + f.timer ≤ max m0.hvl t) :
    culvertResendTimer m0 dst lane psn t = resend (tickHvl m0 t) (laneKey dst (lane % 2)) [psn] (fun x => min 10000000 (2 * x)) := by
  simp only [culvertResendTimer, laneOf_tickHvl, hfind, tickHvl_hvl, hdue, if_true]

theorem keepaliveTimer_idle {dst lane : Nat} {l : Lane} (hlane : m0.net.lanes.get (laneKey dst (lane % 2)) = some l) (hacked : l.unacked = [])
    (hqueue : l.queue = []) (hdue : l.lastTx + msNs m0.own.peerDeadMs / 4 ≤ max m0.hvl t) :
    keepaliveTimer m0 dst lane t =
      send (putLane (tickHvl m0 t) (laneKey dst (lane % 2)) { l with lastTx := max m0.hvl t }) dst 0 0 .keepalive := by
  simp only [keepaliveTimer, tickHvl_net, hlane, hacked, hqueue, tickHvl_own, tickHvl_hvl, hdue, List.isEmpty_nil, decide_true, Bool.and_self, if_true]

end

-- How a transfer key is agreed (R375).

section
variable {fz : Fuses} {m : Mod} {src srcPol : Nat} {p : Fin 16} (ha : Arrived m src srcPol p.val 0 0x0C)
  (hc : (unlaned m src 0).pol[p].composed = true)
include ha hc

theorem tkHello_refused {q : Quote} {ok : Bool} (hquote : quoteOk (unlaned m src 0) p q ok = false) (ct : Nat) :
    tkHello fz m src srcPol p q ct ok =
      pinc (putTk (unlaned m src 0) p src srcPol { tkOf (unlaned m src 0) p src srcPol with helloSent := false }) p Ctr.tkRefused 1 := by
  rw [tkHello, deliver_arrived ha]
  simp only [hc, hquote, Bool.not_true, Bool.not_false, Bool.false_eq_true, if_false, if_true]

/-- A first hello where this side has sent none. -/
theorem tkHello_first {q : Quote} (hquote : quoteOk (unlaned m src 0) p q true = true) (hnew : (tkOf (unlaned m src 0) p src srcPol).helloSent = false) :
    tkHello fz m src srcPol p q 0 true = (
      let e := Config.kemEncap q.kemKey (takeRandom (unlaned m src 0)).1
      tkInstall (sendHello fz (takeRandom (unlaned m src 0)).2 p src srcPol e.1) p src srcPol e.2) := by
  rw [tkHello, deliver_arrived ha]
  simp only [hc, hquote, hnew, Bool.not_true, Bool.false_and, Bool.false_eq_true, beq_self_eq_true, if_false, if_true]

end

-- How long a transfer key serves (R376).

section
variable {m : Mod} {p : Fin 16} {mod pol t : Nat}

theorem tkOf_tickHvl (m : Mod) (p : Fin 16) (mod pol t : Nat) : tkOf (tickHvl m t) p mod pol = tkOf m p mod pol := rfl

theorem tkRenew_due {fz : Fuses} (hc : m.pol[p].composed = true) (hsealed : m.pol[p].sealed = true) (hid : m.front.modId.isSome = true)
    (hlive : (tkOf m p mod pol).live = true) (hnew : (tkOf m p mod pol).helloSent = false)
    (hdue : (tkOf m p mod pol).since + 82800000000000 ≤ max m.hvl t) :
    tkRenew fz m p mod pol t =
      sendHello fz (putTk (tickHvl m t) p mod pol { tkOf m p mod pol with helloSent := true }) p mod pol 0 := by
  simp only [tkRenew, tkOf_tickHvl, tickHvl_pol, tickHvl_front, tickHvl_hvl, hc, hsealed, hid, hlive, hnew, hdue, decide_true, Bool.not_false,
    Bool.true_or, Bool.and_self, if_true]

/-- A key of 24 h in a polder without checkpoints in progress. -/
theorem tkExpire_due (hlive : (tkOf m p mod pol).live = true) (hdue : (tkOf m p mod pol).since + 86400000000000 ≤ max m.hvl t)
    (hjobs : m.pol[p].ck.jobs = []) :
    tkExpire m p mod pol t = putTk (tickHvl m t) p mod pol { tkOf m p mod pol with live := false, key := 0, prev := none, prevKey := 0 } := by
  have hnone (k : Tk) : (putTk (tickHvl m t) p mod pol k).pol[p].ck.jobs = [] := by simpa [putTk] using hjobs
  simp only [tkExpire, tkOf_tickHvl, tickHvl_hvl, hlive, hdue, hnone, decide_true, Bool.true_or, Bool.and_self, if_true, List.filter_nil, List.foldl_nil]

theorem tkExpire_early (hage : max m.hvl t < (tkOf m p mod pol).since + 86400000000000) (hsent : (tkOf m p mod pol).sent < 2 ^ 32)
    (hrecv : (tkOf m p mod pol).recv < 2 ^ 32) : tkExpire m p mod pol t = tickHvl m t := by
  simp only [tkExpire, tkOf_tickHvl, tickHvl_hvl, Nat.not_le.mpr hage, Nat.not_le.mpr hsent, Nat.not_le.mpr hrecv, decide_false, Bool.or_self,
    Bool.and_false, Bool.false_eq_true, if_false]

theorem tkPreviousDiscard_due {d : Nat} (hprev : (tkOf m p mod pol).prev = some d) (hdue : d ≤ max m.hvl t) :
    tkPreviousDiscard m p mod pol t = putTk (tickHvl m t) p mod pol { tkOf m p mod pol with prev := none, prevKey := 0 } := by
  simp only [tkPreviousDiscard, tkOf_tickHvl, tickHvl_hvl, hprev, hdue, decide_true, Bool.true_or, if_true]

end

/-- Settles O58: each event at work or message delivered, then the lemma of the case its hypotheses name. -/
theorem culvertAndTransferKeys : Obligations.CulvertAndTransferKeys := by
  unfold Obligations.CulvertAndTransferKeys
  refine ⟨fun s hw => ⟨?unchecked, ?frameNew, ?frameAgain, ?acked, ?ackTimer, ?resent, ?idle, ?keepalive⟩,
    fun s p hw => ⟨?refused, ?first, ?renew, ?expire, ?early, ?discard⟩⟩
  case unchecked =>
    intro t ft port w m hrx hcheck
    constructor
    · rintro rfl
      rw [exec_culvertData_working hw, culvertData_unchecked hrx hcheck]
    · rintro rfl
      rw [exec_culvertAck_working hw, culvertAck_unchecked hrx hcheck]
  case frameNew =>
    intro t port w m l n hrx hcheck hty hlane hpsn hnew
    rw [exec_culvertData_working hw, culvertData_new hrx hcheck hty hlane hpsn hnew]
  case frameAgain =>
    intro t port w m l n hrx hcheck hty hlane hpsn hseen hfew
    rw [exec_culvertData_working hw, culvertData_taken hrx hcheck hty hlane hpsn hseen hfew]
  case acked =>
    intro t port w m l ap hrx hcheck hece hlane hsome hack hle hall
    rw [exec_culvertAck_working hw, culvertAck_all hrx hcheck hece hlane hsome hack hle hall]
  case ackTimer =>
    intro src lane t o hold
    rw [exec_culvertAckTimer_working hw, culvertAckTimer_waiting hold]
  case resent =>
    intro dst lane psn t f hfind hdue
    rw [exec_culvertResendTimer_working hw, culvertResendTimer_due hfind hdue]
  case idle =>
    intro dst lane t l hlane hacked hqueue hdue
    rw [exec_keepaliveTimer_working hw, keepaliveTimer_idle hlane hacked hqueue hdue]
  case keepalive => exact fun src ha => exec_keepalive_arrived hw ha
  case refused =>
    intro src srcPol q ct ok _ ha hc hquote
    rw [exec_tkHello_working hw, tkHello_refused ha hc hquote]
  case first =>
    intro src srcPol q _ ha hc hquote hnew
    rw [exec_tkHello_working hw, tkHello_first ha hc hquote hnew]
  case renew =>
    intro mod pol t hc hsealed hid hlive hnew hdue
    rw [exec_tkRenew_working hw, tkRenew_due hc hsealed hid hlive hnew hdue]
  case expire =>
    intro mod pol t hlive hdue hjobs
    rw [exec_tkExpire_working hw, tkExpire_due hlive hdue hjobs]
  case early =>
    intro mod pol t hage hsent hrecv
    rw [exec_tkExpire_working hw, tkExpire_early hage hsent hrecv]
  case discard =>
    intro mod pol t d hprev hdue
    rw [exec_tkPreviousDiscard_working hw, tkPreviousDiscard_due hprev hdue]

end Sys2Proof.Machine

/-! PROOFS. The queue and the idle module (O1, O2, O7): a step of the front command, that every command completes and leaves the queue, and which
commands a module without power, or held in reset, takes. -/

namespace Sys2Proof.Machine

/-- A command that can blow fuses at work leaves the queue, as every other does. -/
theorem workF_next (s : State) (f : Fuses → Mod → Fuses × Mod) : ∃ t, workF s f = .next t ∧ t.pending = s.pending := by
  refine ⟨_, rfl, ?_⟩
  split <;> rfl

theorem alwaysF_next (s : State) (f : Fuses → Mod → Fuses × Mod) : ∃ t, alwaysF s f = .next t ∧ t.pending = s.pending := ⟨_, rfl, rfl⟩

/-- Settles O1: the two equations of the step function. -/
theorem stepRunsTheFrontCommand : Obligations.StepRunsTheFrontCommand := by
  unfold Obligations.StepRunsTheFrontCommand
  refine ⟨fun c rest s => rfl, fun s h => ?_⟩
  unfold step
  rw [h]

/-- Settles O2: a command that can blow fuses is a start or work on fuses and module; every other replaces the module alone. -/
theorem everyCommandCompletesAndLeavesTheQueue : Obligations.EveryCommandCompletesAndLeavesTheQueue := by
  unfold Obligations.EveryCommandCompletesAndLeavesTheQueue
  intro c s
  cases hc : canBlow c
  case false =>
    obtain ⟨m, hm⟩ := exec_module_only hc s
    exact ⟨_, hm, rfl⟩
  case true =>
    cases c
    case coldStart b upTo => exact alwaysF_next s (fun z m => coldStart z m b upTo)
    case mrstLRelease b upTo => exact alwaysF_next s (fun z m => mrstRelease z m b upTo)
    case warmReset b upTo => exact workF_next s (fun z m => warmReset z m b upTo)
    case fwUpdateActivate b step good => exact workF_next s (fun z m => fwActivate (z, m) b step good)
    all_goals cases hc

/-- The commands of power, pins, resets and the test port: they act whatever the module does (R479, R511, R517). -/
def actsIdle : Instr → Bool
  | .coldStart .. | .mrstLRelease .. | .powerFailure | .powerFailProgramsDone | .moduleReset | .hvlRst | .hvlRstLRelease .. | .bypass | .idcode
  | .samplePreload | .extest | .extestPulse | .extestTrain | .clamp | .highz => true
  | _ => false

/-- A step that replaces the module of a module at work alone leaves an idle module. -/
theorem next_of_working {s : State} {o : Host.Outcome State Fault Refusal} (hidle : s.m.working = false)
    (h : ∃ m, o = .next { s with m := if s.m.working then settled s.m m else s.m }) : o = .next s := by
  obtain ⟨m, rfl⟩ := h
  simp [hidle]

/-- Every other command leaves a module without power, or held in reset, as it is. -/
theorem exec_idle {c : Instr} (h : actsIdle c = false) {s : State} (hidle : s.m.working = false) : exec c s = .next s := by
  cases c
  case warmReset b upTo => exact workF_off (f := fun z m => warmReset z m b upTo) hidle
  case fwUpdateActivate b step good => exact workF_off (f := fun z m => fwActivate (z, m) b step good) hidle
  case coldStart | mrstLRelease | powerFailure | powerFailProgramsDone | moduleReset | hvlRst | hvlRstLRelease | bypass | idcode | samplePreload | extest
      | extestPulse | extestTrain | clamp | highz => cases h
  all_goals exact next_of_working hidle ⟨_, rfl⟩

/-- Settles O7: the command is none of those that act on an idle module. -/
theorem idleModuleKeepsItsState : Obligations.IdleModuleKeepsItsState := by
  unfold Obligations.IdleModuleKeepsItsState
  intro c s hidle hcold hrelease hfail hdone hreset hhvl hhvlRelease hbypass hidcode hsample hextest hpulse htrain hclamp hhighz
  refine exec_idle ?_ hidle
  unfold actsIdle
  split
  · next b u => exact absurd rfl (hcold b u)
  · next b u => exact absurd rfl (hrelease b u)
  · exact absurd rfl hfail
  · exact absurd rfl hdone
  · exact absurd rfl hreset
  · exact absurd rfl hhvl
  · next g => exact absurd rfl (hhvlRelease g)
  · exact absurd rfl hbypass
  · exact absurd rfl hidcode
  · exact absurd rfl hsample
  · exact absurd rfl hextest
  · exact absurd rfl hpulse
  · exact absurd rfl htrain
  · exact absurd rfl hclamp
  · exact absurd rfl hhighz
  · rfl

end Sys2Proof.Machine

/-! PROOFS. Faults that fence (O40): when a fault closes a cofferdam and what each fencing event does to its unit. -/

namespace Sys2Proof.Machine

-- What each event does in a module at work: its meaning, then what follows every effect.

section
variable {s : State} (hw : s.m.working = true)
include hw

theorem exec_bermDeviceFault_working (i cause t : Nat) : exec (.bermDeviceFault i cause t) s = after s (bermDeviceFault s.fuses s.m i cause t) :=
  work_on (f := fun z m => bermDeviceFault z m i cause t) hw

theorem exec_bermTrainingCheck_working (c : Clocks) (bad : Nat) :
    exec (.bermTrainingCheck c bad) s = after s (bermTrainingCheck s.fuses s.m c.hvl c.wd bad) :=
  work_on (f := fun z m => bermTrainingCheck z m c.hvl c.wd bad) hw

theorem exec_toeChannelFault_working (ch cause : Nat) : exec (.toeChannelFault ch cause) s = after s (toeChannelFault s.fuses s.m ch cause) :=
  work_on (f := fun z m => toeChannelFault z m ch cause) hw

theorem exec_lockstepMismatch_working (k : Nat) : exec (.lockstepMismatch k) s = after s (lockstepMismatch s.fuses s.m k) :=
  work_on (f := fun z m => lockstepMismatch z m k) hw

theorem exec_heartbeatLoss_working (k : Nat) (c : Clocks) : exec (.heartbeatLoss k c) s = after s (heartbeatLoss s.fuses s.m k c.hvl c.wd) :=
  work_on (f := fun z m => heartbeatLoss z m k c.hvl c.wd) hw

theorem exec_phaseFault_working (i : Nat) : exec (.phaseFault i) s = after s (phaseFault s.fuses s.m i) :=
  work_on (f := fun z m => phaseFault z m i) hw

theorem exec_vcoreDomainFault_working (g : Nat) : exec (.vcoreDomainFault g) s = after s (vcoreDomainFault s.fuses s.m g) :=
  work_on (f := fun z m => vcoreDomainFault z m g) hw

theorem exec_hvlLaneLoss_working (half : Nat) : exec (.hvlLaneLoss half) s = after s (hvlLaneLoss s.fuses s.m half) :=
  work_on (f := fun z m => hvlLaneLoss z m half) hw

theorem exec_ethPortFault_working (k : Nat) : exec (.ethPortFault k) s = after s (ethPortFault s.fuses s.m k) :=
  work_on (f := fun z m => ethPortFault z m k) hw

theorem exec_sensorImplausible_working (i : Nat) (d : Block) : exec (.sensorImplausible i d) s = after s (sensorImplausible s.fuses s.m i d) :=
  work_on (f := fun z m => sensorImplausible z m i d) hw

end

-- When a fault closes a cofferdam (R385).

section
variable {fz : Fuses} {m : Mod} {ty i : Nat}

/-- Over a unit of a type that fences, outside any cofferdam. -/
theorem faultFence_closes (hi : i < unitCount ty) (hf : unitFenced m ty i = false) (fault : Nat) (d : Block) :
    faultFence fz m ty i fault d = closeFence fz (logFault m ty i fault 4 false d) ty i := by
  simp only [faultFence, decide_eq_false (Nat.not_le.mpr hi), hf, Bool.or_self, Bool.false_eq_true, if_false]

theorem faultFence_fenced (hf : unitFenced m ty i = true) (fault : Nat) (d : Block) : faultFence fz m ty i fault d = m := by
  simp only [faultFence, hf, Bool.or_true, if_true]

end

-- What a fencing event does to its unit (R383, R388).

section
variable {fz : Fuses} {m : Mod} {k t wt : Nat}

/-- A training check that no device fails, 100 ms of the warden's oscillator after the one before. -/
theorem bermTrainingCheck_passed (hdue : wdPassed (tickWd (tickHvl m t) wt) m.sys.wd.trainAt 100000000 = true) :
    bermTrainingCheck fz m t wt 0 = modWd (tickWd (tickHvl m t) wt) (fun w => { w with trainAt := w.ticks }) := by
  have hnow : wdPassed (tickWd (tickHvl m t) wt) (tickWd (tickHvl m t) wt).sys.wd.trainAt 100000000 = true := hdue
  have hbad : bitsOf 0 16 = [] := by decide
  simp only [bermTrainingCheck, hnow, hbad, List.foldl_nil, Bool.not_true, Bool.false_eq_true, if_false]

/-- Two results of a running pair that differ. -/
theorem lockstepMismatch_fences (hk : k < 4) (hf : unitFenced m 0x06 k = false) :
    lockstepMismatch fz m k = faultFence fz (minc (spend m (armHit 3 0 k false)) (Ctr.lockstepMismatch k) 1) 0x06 k fLockstep 0 := by
  simp only [lockstepMismatch, decide_eq_false (Nat.not_le.mpr hk), hf, Bool.or_self, Bool.false_eq_true, if_false]

/-- A running pair that falls silent. -/
theorem heartbeatLoss_fences (hk : k < 4) (hf : unitFenced m 0x06 k = false) :
    heartbeatLoss fz m k t wt =
      faultFence fz (modWd (tickWd (tickHvl m t) wt) (fun w => { w with silent := setBit w.silent k true })) 0x06 k fTimeout 0 := by
  have hnow : unitFenced (tickWd (tickHvl m t) wt) 0x06 k = false := hf
  simp only [heartbeatLoss, decide_eq_false (Nat.not_le.mpr hk), hnow, Bool.or_self, Bool.false_eq_true, if_false]

end

/-- Settles O40: when a fault closes a cofferdam, then each event at work by its own case. -/
theorem fencingFaultsCloseTheCofferdam : Obligations.FencingFaultsCloseTheCofferdam := by
  unfold Obligations.FencingFaultsCloseTheCofferdam
  refine ⟨fun fz m ty i fault d hi hf => faultFence_closes hi hf fault d, fun fz m ty i fault d hf => faultFence_fenced hf fault d,
    fun s hw => ⟨?device, ?training, ?channel, ?lockstep, ?heartbeat, ?phase, ?domain, ?lane, ?port, ?sensor⟩⟩
  case device => exact fun i t => exec_bermDeviceFault_working hw i 1 t
  case training =>
    intro t wt hdue
    rw [exec_bermTrainingCheck_working hw, bermTrainingCheck_passed hdue]
  case channel => exact fun ch => exec_toeChannelFault_working hw ch 0
  case lockstep =>
    intro k hk hf
    rw [exec_lockstepMismatch_working hw, lockstepMismatch_fences hk hf]
  case heartbeat =>
    intro k t wt hk hf
    rw [exec_heartbeatLoss_working hw, heartbeatLoss_fences hk hf]
  case phase => exact exec_phaseFault_working hw
  case domain => exact exec_vcoreDomainFault_working hw
  case lane => exact exec_hvlLaneLoss_working hw
  case port => exact exec_ethPortFault_working hw
  case sensor => exact exec_sensorImplausible_working hw

end Sys2Proof.Machine

/-! PROOFS. Rings (O19 to O21): doorbells, ring configuration and waiting events, with what a change of one polder leaves of every
other part of the module. -/

namespace Sys2Proof.Machine

-- What a change of one polder leaves: every other polder and the units that serve the whole module.

/-- A step from `m` to `m'` within one polder: outputs, counters, arbiters and clocks of the module aside, only that polder differs. -/
structure OnlyPolder (p : Fin 16) (m m' : Mod) : Prop where
  pol : ∀ q : Fin 16, q ≠ p → m'.pol[q] = m.pol[q]
  dir : m'.dir = m.dir
  fence : m'.fence = m.fence
  ftl : m'.ftl = m.ftl
  peers : m'.peers = m.peers
  jr : m'.jr = m.jr
  sys : m'.sys = m.sys
  front : m'.front = m.front

namespace OnlyPolder

variable {p : Fin 16} {m m' m'' : Mod}

theorem refl (p : Fin 16) (m : Mod) : OnlyPolder p m m := ⟨fun _ _ => rfl, rfl, rfl, rfl, rfl, rfl, rfl, rfl⟩

theorem trans (h : OnlyPolder p m m') (h' : OnlyPolder p m' m'') : OnlyPolder p m m'' where
  pol q hq := (h'.pol q hq).trans (h.pol q hq)
  dir := h'.dir.trans h.dir
  fence := h'.fence.trans h.fence
  ftl := h'.ftl.trans h.ftl
  peers := h'.peers.trans h.peers
  jr := h'.jr.trans h.jr
  sys := h'.sys.trans h.sys
  front := h'.front.trans h.front

/-- A step that leaves every polder and every unit of the module. -/
theorem of_pol_eq (hpol : m'.pol = m.pol) (hdir : m'.dir = m.dir) (hfence : m'.fence = m.fence) (hftl : m'.ftl = m.ftl) (hpeers : m'.peers = m.peers)
    (hjr : m'.jr = m.jr) (hsys : m'.sys = m.sys) (hfront : m'.front = m.front) : OnlyPolder p m m' :=
  ⟨fun _ _ => by rw [hpol], hdir, hfence, hftl, hpeers, hjr, hsys, hfront⟩

theorem modPol (p : Fin 16) (m : Mod) (f : Polder → Polder) : OnlyPolder p m (modPol m p f) :=
  ⟨fun q hq => modPol_pol_other m p q f hq, rfl, rfl, rfl, rfl, rfl, rfl, rfl⟩

theorem pinc (p : Fin 16) (m : Mod) (k n : Nat) : OnlyPolder p m (pinc m p k n) := modPol p m _

theorem pincIf (p : Fin 16) (m : Mod) (c : Bool) (k : Nat) : OnlyPolder p m (pincIf m p c k) := by
  unfold Machine.pincIf
  split
  · exact modPol p m _
  · exact refl p m

theorem minc (p : Fin 16) (m : Mod) (k n : Nat) : OnlyPolder p m (minc m k n) := of_pol_eq rfl rfl rfl rfl rfl rfl rfl rfl

theorem emit (p : Fin 16) (m : Mod) (x : Out) : OnlyPolder p m (emit m x) := of_pol_eq rfl rfl rfl rfl rfl rfl rfl rfl

theorem polIrq (p q : Fin 16) (m : Mod) (v : Nat) : OnlyPolder p m (polIrq m q v) := by
  unfold Machine.polIrq
  split
  · exact emit p m _
  · exact refl p m

theorem wfqServe (p : Fin 16) (m : Mod) (arb len : Nat) : OnlyPolder p m (wfqServe m p arb len) :=
  ⟨fun q hq => modPol_pol_other _ p q _ hq, rfl, rfl, rfl, rfl, rfl, rfl, rfl⟩

/-- An entry posted to a ring of the polder. -/
theorem postCq (p c : Fin 16) (m : Mod) (mk : Nat → Cq → CqEntry) : OnlyPolder p m (postCq m p c mk) := by
  simp only [Machine.postCq]
  split
  · exact ((((modPol p m _).trans (modPol p _ _)).trans (wfqServe p _ _ _)).trans (emit p _ _)).trans ((pincIf p _ _ _).trans (polIrq p p _ _))
  · exact (((modPol p m _).trans (modPol p _ _)).trans (wfqServe p _ _ _)).trans (emit p _ _)

theorem complete (p : Fin 16) (m : Mod) (tag : Nat) (r : Res) : OnlyPolder p m (complete m p tag r) := by
  unfold Machine.complete
  split
  · exact refl p m
  · exact ((modPol p m _).trans (pincIf p _ _ _)).trans (postCq p _ _ _)

theorem postEvent (p : Fin 16) (m : Mod) (e : Event) : OnlyPolder p m (postEvent m p e) := by
  unfold Machine.postEvent
  exact (pinc p m _ _).trans (postCq p 0 _ _)

theorem flushEventsN (p : Fin 16) (n : Nat) (m : Mod) : OnlyPolder p m (flushEventsN m p n) := by
  induction n generalizing m with
  | zero => exact refl p m
  | succ n ih =>
    rw [Machine.flushEventsN]
    split
    · exact refl p m
    · next e rest _ =>
      simp only
      split
      · exact ((modPol p m _).trans (modPol p _ _)).trans (ih _)
      · split
        · exact ((modPol p m _).trans (postEvent p _ e)).trans (ih _)
        · exact refl p m

theorem flushEvents (p : Fin 16) (m : Mod) : OnlyPolder p m (flushEvents m p) := flushEventsN p _ m

end OnlyPolder

-- What each ring command of a module at work does: its meaning, then what follows every effect.

section
variable {s : State} (hw : s.m.working = true) (p : Fin 16)
include hw

theorem exec_sqTailWrite_working (r : Fin 16) (v : Nat) (pr : Priv) : exec (.sqTailWrite p r v pr) s = after s (sqTailWrite s.m p r v pr) :=
  work_on (f := fun _ m => sqTailWrite m p r v pr) hw

theorem exec_cqHeadWrite_working (c : Fin 16) (v : Nat) (pr : Priv) : exec (.cqHeadWrite p c v pr) s = after s (cqHeadWrite s.m p c v pr) :=
  work_on (f := fun _ m => cqHeadWrite m p c v pr) hw

theorem exec_sqCtrlWrite_working (r : Fin 16) (v : Nat) (pr : Priv) : exec (.sqCtrlWrite p r v pr) s = after s (sqCtrlWrite s.m p r v pr) :=
  work_on (f := fun _ m => sqCtrlWrite m p r v pr) hw

theorem exec_cqCtrlWrite_working (c : Fin 16) (v : Nat) (pr : Priv) : exec (.cqCtrlWrite p c v pr) s = after s (cqCtrlWrite s.m p c v pr) :=
  work_on (f := fun _ m => cqCtrlWrite m p c v pr) hw

theorem exec_eventPost_working : exec (.eventPost p) s = after s (eventPost s.m p) := work_on (f := fun _ m => eventPost m p) hw

theorem exec_cqModTimer_working (c : Fin 16) (t : Nat) : exec (.cqModTimer p c t) s = after s (cqModTimer s.m p c t) :=
  work_on (f := fun _ m => cqModTimer m p c t) hw

theorem exec_ringIntake_working (t : Nat) (heads : List HeadEntry) (hv : HostGen) :
    exec (.ringIntake p t heads hv) s = after s (kick (ringIntake s.m p t heads) p hv) :=
  work_on (f := fun _ m => kick (ringIntake m p t heads) p hv) hw

end

-- Ring indices (R413).

theorem le_advance16 (old v : Nat) : old ≤ advance16 old v := Nat.le_add_right _ _

theorem advance16_lt (old v : Nat) : advance16 old v < old + 65536 := by
  unfold advance16
  omega

theorem advance16_mod (old v : Nat) : advance16 old v % 65536 = v % 65536 := by
  unfold advance16
  omega

-- Doorbells and configuration (R412, R413, R415, R444).

section
variable {m : Mod} {p r : Fin 16} {v : Nat} {pr : Priv} (hok : polWriteOk m p pr = true)
include hok

/-- A write that POLDER_PRIV lets pass. -/
theorem polWrite_ok (f : Mod → Mod) : polWrite m p pr f = f m := by
  simp only [polWrite, hok, if_true]

theorem sqTailWrite_fits (h : advance16 m.pol[p].sqs[r].tail v - m.pol[p].sqs[r].head ≤ m.pol[p].sqs[r].depth) :
    sqTailWrite m p r v pr = modSq m p r (fun x => { x with tail := advance16 m.pol[p].sqs[r].tail v }) := by
  rw [sqTailWrite, polWrite_ok hok]
  exact if_neg (Nat.not_lt.mpr h)

theorem sqTailWrite_overfills (h : m.pol[p].sqs[r].depth < advance16 m.pol[p].sqs[r].tail v - m.pol[p].sqs[r].head) :
    sqTailWrite m p r v pr = pinc m p Ctr.dblErr 1 := by
  rw [sqTailWrite, polWrite_ok hok]
  exact if_pos h

theorem cqHeadWrite_frees (h : advance16 m.pol[p].cqs[r].head v ≤ m.pol[p].cqs[r].posted) :
    cqHeadWrite m p r v pr = flushEvents (modCq m p r (fun x => { x with head := advance16 m.pol[p].cqs[r].head v })) p := by
  rw [cqHeadWrite, polWrite_ok hok]
  exact if_neg (Nat.not_lt.mpr h)

theorem cqHeadWrite_beyond (h : m.pol[p].cqs[r].posted < advance16 m.pol[p].cqs[r].head v) : cqHeadWrite m p r v pr = pinc m p Ctr.dblErr 1 := by
  rw [cqHeadWrite, polWrite_ok hok]
  exact if_pos h

/-- A disabled submission ring takes a legal configuration that keeps its binding. -/
theorem sqCtrlWrite_disabled (hen : m.pol[p].sqs[r].en = false) (hcq : m.pol[p].sqs[r].cq = v / 16 % 16) (hlo : 4 ≤ v % 16) (hhi : v % 16 ≤ 12)
    (hbase : m.pol[p].sqs[r].base % 4096 = 0) (hc : m.pol[p].cqs[pn (v / 16 % 16)].en = true) :
    sqCtrlWrite m p r v pr = modSq m p r (fun x => { x with order := v % 16, cq := v / 16 % 16, en := bit v 8 }) := by
  rw [sqCtrlWrite, polWrite_ok hok]
  simp only [hen, hcq, bne_self_eq_false, Nat.not_lt.mpr hlo, Nat.not_lt.mpr hhi, hbase, hc, decide_false, Bool.false_and, Bool.or_self, Bool.not_true,
    Bool.and_false, Bool.false_eq_true, if_false]

/-- An enabled submission ring keeps its order: a write of another is counted, and its enable taken. -/
theorem sqCtrlWrite_enabled (hen : m.pol[p].sqs[r].en = true) (horder : v % 16 ≠ m.pol[p].sqs[r].order) :
    sqCtrlWrite m p r v pr = modSq (pinc m p Ctr.ringConfDrop 1) p r (fun x => { x with en := bit v 8 }) := by
  rw [sqCtrlWrite, polWrite_ok hok]
  have hnew : (v % 16 != m.pol[p].sqs[r].order) = true := bne_iff_ne.mpr horder
  simp only [hen, hnew, Bool.true_or, if_true]

/-- A disabled completion ring takes a legal configuration, and waiting events post. -/
theorem cqCtrlWrite_disabled (hen : m.pol[p].cqs[r].en = false) (hlo : 4 ≤ v % 16) (hhi : v % 16 ≤ 14) (hbase : m.pol[p].cqs[r].base % 4096 = 0) :
    cqCtrlWrite m p r v pr =
      flushEvents (modCq m p r (fun x => { x with order := v % 16, vector := v / 16 % 32, en := bit v 9 })) p := by
  rw [cqCtrlWrite, polWrite_ok hok]
  simp only [hen, Nat.not_lt.mpr hlo, Nat.not_lt.mpr hhi, hbase, bne_self_eq_false, decide_false, Bool.or_self, Bool.and_false, Bool.false_eq_true,
    if_false]

/-- An enabled completion ring with slots reserved stays enabled; a write that would disable it is counted. -/
theorem cqCtrlWrite_stays (hen : m.pol[p].cqs[r].en = true) (horder : v % 16 = m.pol[p].cqs[r].order) (hoff : bit v 9 = false)
    (hbusy : 0 < m.pol[p].cqs[r].inflight) :
    cqCtrlWrite m p r v pr = modCq (pinc m p Ctr.ringConfDrop 1) p r (fun x => { x with vector := v / 16 % 32, en := true }) := by
  rw [cqCtrlWrite, polWrite_ok hok]
  simp only [hen, horder, hoff, hbusy, Bool.not_false, decide_true, Bool.and_self, Bool.or_true, if_true]

end

/-- Settles O19: the advanced index, then each doorbell where its ring has room and where it has not. -/
theorem doorbellWrites : Obligations.DoorbellWrites := by
  unfold Obligations.DoorbellWrites
  refine ⟨fun old v => ⟨le_advance16 old v, advance16_lt old v, advance16_mod old v⟩, fun s p r v pr hw hok => ⟨?fits, ?overfills, ?frees, ?beyond⟩⟩
  case fits =>
    intro h
    rw [exec_sqTailWrite_working hw, sqTailWrite_fits hok h]
  case overfills =>
    intro h
    rw [exec_sqTailWrite_working hw, sqTailWrite_overfills hok h]
  case frees =>
    intro h
    rw [exec_cqHeadWrite_working hw, cqHeadWrite_frees hok h]
  case beyond =>
    intro h
    rw [exec_cqHeadWrite_working hw, cqHeadWrite_beyond hok h]

/-- Settles O20: each control write on a disabled and on an enabled ring. -/
theorem ringConfiguration : Obligations.RingConfiguration := by
  unfold Obligations.RingConfiguration
  refine fun s p r v pr hw hok => ⟨?sqDisabled, ?sqEnabled, ?cqDisabled, ?cqStays⟩
  case sqDisabled =>
    intro hen hcq hlo hhi hbase hc
    rw [exec_sqCtrlWrite_working hw, sqCtrlWrite_disabled hok hen hcq hlo hhi hbase hc]
  case sqEnabled =>
    intro hen horder
    rw [exec_sqCtrlWrite_working hw, sqCtrlWrite_enabled hok hen horder]
  case cqDisabled =>
    intro hen hlo hhi hbase
    rw [exec_cqCtrlWrite_working hw, cqCtrlWrite_disabled hok hen hlo hhi hbase]
  case cqStays =>
    intro hen horder hoff hbusy
    rw [exec_cqCtrlWrite_working hw, cqCtrlWrite_stays hok hen horder hoff hbusy]

-- Events and moderation (R423, R426).

/-- The counter's reading taken in a polder. -/
theorem tickPol_pol_self (m : Mod) (p : Fin 16) (t : Nat) : (tickPol m p t).pol[p] = { m.pol[p] with clk := max m.pol[p].clk t } :=
  tickPol_pol_same m p t

section
variable {m : Mod} {p : Fin 16}

/-- The one waiting event takes a free slot. -/
theorem eventPost_single {e : Event} (hone : m.pol[p].events = [e]) (hen : m.pol[p].cqs[(0 : Fin 16)].en = true)
    (hroom : m.pol[p].cqs[(0 : Fin 16)].used < m.pol[p].cqs[(0 : Fin 16)].depth) :
    eventPost m p = postEvent (modPol m p (fun q => { q with events := [] })) p e := by
  simp only [eventPost, flushEvents, hone, List.length_singleton, flushEventsN, hen, hroom, Bool.not_true, Bool.false_eq_true, if_false, if_true]

theorem polIrqOn_congr {m m' : Mod} (p : Fin 16) (h : m'.pol[p].pintEn = m.pol[p].pintEn) (v : Nat) : polIrqOn m' p v = polIrqOn m p v := by
  simp only [polIrqOn, h]

/-- An interrupt that is enabled is counted and sent. -/
theorem polIrq_counted (v k : Nat) (hon : polIrqOn m p v = true) :
    polIrq (pincIf m p (polIrqOn m p v) k) p v = emit (pinc m p k 1) (.irq (32 * p.val + v)) := by
  have hstill : polIrqOn (pinc m p k 1) p v = true := (polIrqOn_congr p (by simp) v).trans hon
  simp only [hon, pincIf, polIrq, hstill, if_true]

/-- The oldest entry not signalled has waited CQ_MOD_US. -/
theorem cqModTimer_due {c : Fin 16} {t : Nat} (hunsig : m.pol[p].cqs[c].unsig ≠ 0) (hmod : m.pol[p].cqs[c].modUs ≠ 0)
    (hdue : m.pol[p].cqs[c].oldest + m.pol[p].cqs[c].modUs * 1000 ≤ max m.pol[p].clk t) (hon : polIrqOn m p m.pol[p].cqs[c].vector = true) :
    cqModTimer m p c t = emit (pinc (modCq (tickPol m p t) p c (fun r => { r with unsig := 0 })) p (Ctr.cqIrq c.val) 1)
      (.irq (32 * p.val + m.pol[p].cqs[c].vector)) := by
  have hnow : polIrqOn (modCq (tickPol m p t) p c (fun r => { r with unsig := 0 })) p m.pol[p].cqs[c].vector = true :=
    (polIrqOn_congr p (by simp [modCq]) _).trans hon
  have hwait : (m.pol[p].cqs[c].unsig == 0 || m.pol[p].cqs[c].modUs == 0 ||
      decide (max m.pol[p].clk t < m.pol[p].cqs[c].oldest + m.pol[p].cqs[c].modUs * 1000)) = false := by
    simp only [beq_eq_false_iff_ne.mpr hunsig, beq_eq_false_iff_ne.mpr hmod, decide_eq_false (Nat.not_lt.mpr hdue), Bool.or_self]
  have hcall : cqModTimer m p c t = polIrq (pincIf (modCq (tickPol m p t) p c (fun r => { r with unsig := 0 })) p
      (polIrqOn (tickPol m p t) p m.pol[p].cqs[c].vector) (Ctr.cqIrq c.val)) p m.pol[p].cqs[c].vector := by
    simp only [cqModTimer, tickPol_pol_self, hwait, Bool.false_eq_true, if_false]
  have hsame : polIrqOn (tickPol m p t) p m.pol[p].cqs[c].vector =
      polIrqOn (modCq (tickPol m p t) p c (fun r => { r with unsig := 0 })) p m.pol[p].cqs[c].vector :=
    (polIrqOn_congr p (by simp [modCq]) _).symm
  rw [hcall, hsame, polIrq_counted _ _ hnow]

theorem cqModTimer_early {c : Fin 16} {t : Nat} (h : max m.pol[p].clk t < m.pol[p].cqs[c].oldest + m.pol[p].cqs[c].modUs * 1000) :
    cqModTimer m p c t = tickPol m p t := by
  simp only [cqModTimer, tickPol_pol_self, h, decide_true, Bool.or_true, if_true]

end

/-- Settles O21: the waiting event posted, and the moderation timer when due and before. -/
theorem eventsAndModerationTimers : Obligations.EventsAndModerationTimers := by
  unfold Obligations.EventsAndModerationTimers
  refine ⟨?event, ?due, ?early⟩
  case event =>
    intro s p e hw hone hen hroom
    rw [exec_eventPost_working hw, eventPost_single hone hen hroom]
  case due =>
    intro s p c t hw hunsig hmod hdue hon
    rw [exec_cqModTimer_working hw, cqModTimer_due hunsig hmod hdue hon]
  case early =>
    intro s p c t hw h
    rw [exec_cqModTimer_working hw, cqModTimer_early h]

end Sys2Proof.Machine

/-! PROOFS. Completion slots (O23, O24): what one ring's turn can do, the slots it keeps, and the slot a
completion fills. -/

namespace Sys2Proof.Machine

-- A change of the polder named, read back.

theorem modPol_pol_self (m : Mod) (p : Fin 16) (f : Polder → Polder) : (modPol m p f).pol[p] = f m.pol[p] := modPol_pol_same m p f

theorem pinc_pol_self (m : Mod) (p : Fin 16) (k n : Nat) : (pinc m p k n).pol[p] = { m.pol[p] with ctr := m.pol[p].ctr.inc k n } := pinc_pol_same m p k n

/-- A change that leaves the polder as it is leaves the module. -/
theorem modPol_of_eq {m : Mod} {p : Fin 16} {f : Polder → Polder} (h : f m.pol[p] = m.pol[p]) : modPol m p f = m := by
  have hset : m.pol.set p m.pol[p] = m.pol := Vector.set_getElem_self _
  simp only [modPol, h, hset]

/-- A change that leaves the submission ring as it is leaves the module. -/
theorem modSq_of_eq {m : Mod} {p s : Fin 16} {f : Sq → Sq} (h : f m.pol[p].sqs[s] = m.pol[p].sqs[s]) : modSq m p s f = m := by
  have hset : m.pol[p].sqs.set s m.pol[p].sqs[s] = m.pol[p].sqs := Vector.set_getElem_self _
  refine modPol_of_eq ?_
  simp only [h, hset]

-- An entry posted to a completion ring (R417, R426).

/-- A completion ring after one more entry: posted, and signalled or counted as waiting. -/
def postedRing (q : Polder) (r : Cq) : Cq :=
  { r with
    posted := r.posted + 1
    unsig := if max 1 r.modCount ≤ r.unsig + 1 then 0 else r.unsig + 1
    oldest := if r.unsig == 0 then q.clk else r.oldest }

/-- A polder after an entry has been posted to one of its completion rings, counters and bounce counters aside. -/
def postedPolder (q : Polder) (c : Fin 16) : Polder := { q with cqs := q.cqs.set c (postedRing q q.cqs[c]) }

theorem postedRing_used {q : Polder} {r : Cq} (h : r.head ≤ r.posted) : (postedRing q r).used = r.used + 1 := by
  simp only [postedRing, Cq.used]
  omega

section
variable {α : Type} (f : Polder → α) (m : Mod) (p : Fin 16)

theorem emit_reads (x : Out) : f (emit m x).pol[p] = f m.pol[p] := rfl

theorem polIrq_reads (v : Nat) : f (polIrq m p v).pol[p] = f m.pol[p] := congrArg (fun pols => f pols[p]) (polIrq_pol m p v)

end

section
variable {α : Type} {f : Polder → α} (hf : ∀ q ctr sec, f { q with ctr := ctr, sec := sec } = f q) (m : Mod) (p : Fin 16)
include hf

theorem pinc_reads (k n : Nat) : f (pinc m p k n).pol[p] = f m.pol[p] := by
  rw [pinc_pol_self]
  exact hf m.pol[p] _ m.pol[p].sec

theorem pincIf_reads (c : Bool) (k : Nat) : f (pincIf m p c k).pol[p] = f m.pol[p] := by
  unfold pincIf
  split
  · exact pinc_reads hf m p k 1
  · rfl

theorem wfqServe_reads (arb len : Nat) : f (wfqServe m p arb len).pol[p] = f m.pol[p] := pinc_reads hf { m with net := _ } p _ _

theorem m2h_reads (n : Nat) : f (m2h m p n).pol[p] = f m.pol[p] := by
  unfold m2h
  rw [modPol_pol_self]
  split
  · exact hf m.pol[p] m.pol[p].ctr _
  · rfl

/-- Counters and bounce counters aside, a posted entry changes only its ring. -/
theorem postCq_reads (c : Fin 16) (mk : Nat → Cq → CqEntry) :
    f (postCq m p c mk).pol[p] = f (postedPolder m.pol[p] c) := by
  simp only [postCq]
  split
  next hfire =>
    rw [polIrq_reads f, pincIf_reads hf, emit_reads f, wfqServe_reads hf, m2h_reads hf, modPol_pol_self]
    refine Eq.trans ?_ (hf (postedPolder m.pol[p] c) (m.pol[p].ctr.inc (Ctr.cmdDone c) 1) m.pol[p].sec)
    simp only [postedPolder, postedRing, decide_eq_true_eq.mp hfire, if_true]
  next hfire =>
    rw [emit_reads f, wfqServe_reads hf, m2h_reads hf, modPol_pol_self]
    refine Eq.trans ?_ (hf (postedPolder m.pol[p] c) (m.pol[p].ctr.inc (Ctr.cmdDone c) 1) m.pol[p].sec)
    simp only [postedPolder, postedRing, of_decide_eq_false (Bool.eq_false_iff.mpr hfire), if_false]

end

/-- The entry of a post leaves the module at the next place of its ring. -/
theorem mem_out_postCq (m : Mod) (p c : Fin 16) (mk : Nat → Cq → CqEntry) :
    Out.cq p.val c.val m.pol[p].cqs[c].posted (slotOut m.pol[p] p.val (cqAddr m.pol[p] m.pol[p].cqs[c] m.pol[p].cqs[c].posted) 32
      (cqBytes (mk m.pol[p].cqs[c].posted m.pol[p].cqs[c]))) ∈ (postCq m p c mk).out := by
  have hsend : ∀ (m : Mod) (x : Out), x ∈ (emit m x).out := fun m x => List.mem_append_right _ (List.mem_singleton_self x)
  have hirq : ∀ (m : Mod) (v : Nat) (x : Out), x ∈ m.out → x ∈ (polIrq m p v).out := by
    intro m v x hx
    unfold polIrq
    split
    · exact List.mem_append_left _ hx
    · exact hx
  have hcount : ∀ (m : Mod) (b : Bool) (k : Nat), (pincIf m p b k).out = m.out := fun m b k => pincIf_out m p b k
  simp only [postCq]
  split
  · refine hirq _ _ _ ?_
    rw [hcount]
    exact hsend _ _
  · exact hsend _ _

-- A completion (R415, R417, R420).

/-- A polder with a command no longer in flight: its reserved slot and its engine operation given back, its status counted. -/
def unflown (q : Polder) (t : Taken) (r : Res) : Polder :=
  { q with
    taken := q.taken.filter (fun x => x.tag != t.tag)
    ops := if t.engine then q.ops - 1 else q.ops
    cqs := q.cqs.set (pn t.cq) { q.cqs[pn t.cq] with inflight := q.cqs[pn t.cq].inflight - 1 }
    ctr := q.ctr.inc (Ctr.cmdStatus r.status) 1 }

/-- The module before the completion's entry is posted. -/
def landed (m : Mod) (p : Fin 16) (t : Taken) (r : Res) : Mod :=
  pincIf (modPol m p (fun q => unflown q t r)) p (r.status == stStale) Ctr.staleEpochCnt

/-- The entry a completion posts as the k-th of its ring (R417). -/
def completionEntry (m : Mod) (p : Fin 16) (t : Taken) (r : Res) (k : Nat) (cq : Cq) : CqEntry :=
  { tag := t.tag, job := t.job, status := r.status, opcode := t.opcode, sq := t.sq, event := false, recallShort := r.short
    phase := phaseOf k cq.depth, sqHead := m.pol[p].sqs[pn t.sq].head % 65536, resv := 0, detail := r.detail, result := r.result }

section
variable {m : Mod} {p : Fin 16} {t : Taken} {r : Res}

theorem complete_taken (h : findTaken m.pol[p] t.tag = some t) :
    complete m p t.tag r = postCq (landed m p t r) p (pn t.cq) (completionEntry (landed m p t r) p t r) := by
  unfold complete
  rw [h]
  rfl

theorem landed_reads {α : Type} {f : Polder → α} (hf : ∀ q ctr sec, f { q with ctr := ctr, sec := sec } = f q) (m : Mod) (p : Fin 16) (t : Taken)
    (r : Res) : f (landed m p t r).pol[p] = f (unflown m.pol[p] t r) := by
  rw [landed, pincIf_reads hf, modPol_pol_self]

/-- Counters and bounce counters aside, a completion takes its command out of flight and posts to its ring. -/
theorem complete_reads {α : Type} {f : Polder → α} (hf : ∀ q ctr sec, f { q with ctr := ctr, sec := sec } = f q)
    (h : findTaken m.pol[p] t.tag = some t) (r : Res) :
    f (complete m p t.tag r).pol[p] = f (postedPolder (unflown m.pol[p] t r) (pn t.cq)) := by
  rw [complete_taken h, postCq_reads hf]
  exact landed_reads (f := fun q => f (postedPolder q (pn t.cq))) (fun q ctr sec => hf (postedPolder q (pn t.cq)) ctr sec) m p t r

/-- The ring of a completion: one slot less reserved, one entry more posted. -/
theorem complete_ring (h : findTaken m.pol[p] t.tag = some t) (r : Res) :
    (complete m p t.tag r).pol[p].cqs[pn t.cq] =
      postedRing m.pol[p] { m.pol[p].cqs[pn t.cq] with inflight := m.pol[p].cqs[pn t.cq].inflight - 1 } := by
  have hring := complete_reads (f := fun q => q.cqs[pn t.cq]) (fun q ctr sec => rfl) h r
  rw [hring]
  simp [postedPolder, unflown, postedRing]

theorem complete_not_taken (h : findTaken m.pol[p] t.tag = some t) (r : Res) : findTaken (complete m p t.tag r).pol[p] t.tag = none := by
  rw [complete_reads (f := fun q => findTaken q t.tag) (fun q ctr sec => rfl) h r]
  simp [findTaken, postedPolder, unflown]

/-- The entry a completion posts leaves the module at the next place of its ring. -/
theorem mem_out_complete (h : findTaken m.pol[p] t.tag = some t) (r : Res) :
    Out.cq p.val (pn t.cq).val m.pol[p].cqs[pn t.cq].posted (slotOut m.pol[p] p.val
      (cqAddr m.pol[p] m.pol[p].cqs[pn t.cq] m.pol[p].cqs[pn t.cq].posted) 32
      (cqBytes (completionEntry (landed m p t r) p t r m.pol[p].cqs[pn t.cq].posted m.pol[p].cqs[pn t.cq]))) ∈ (complete m p t.tag r).out := by
  have hpost := mem_out_postCq (landed m p t r) p (pn t.cq) (completionEntry (landed m p t r) p t r)
  have hring : (landed m p t r).pol[p].cqs[pn t.cq] = { m.pol[p].cqs[pn t.cq] with inflight := m.pol[p].cqs[pn t.cq].inflight - 1 } := by
    rw [landed_reads (f := fun q => q.cqs[pn t.cq]) (fun q ctr sec => rfl) m p t r]
    simp [unflown]
  have hslot : ∀ addr b, slotOut (landed m p t r).pol[p] p.val addr 32 b = slotOut m.pol[p] p.val addr 32 b := by
    intro addr b
    simp only [landed, pincIf]
    split <;> simp only [pinc_pol_self, modPol_pol_self] <;> rfl
  have hsealed : (landed m p t r).pol[p].sealed = m.pol[p].sealed := landed_reads (f := Polder.sealed) (fun q ctr sec => rfl) m p t r
  rw [complete_taken h]
  rw [hring, hslot] at hpost
  simp only [cqAddr, hsealed] at hpost
  exact hpost

end

/-- Settles O24: the completion's effect on its polder, its ring and the outputs, and the frame of a change of one polder. -/
theorem completionUsesItsReservedSlot : Obligations.CompletionUsesItsReservedSlot := by
  unfold Obligations.CompletionUsesItsReservedSlot
  intro m p t r h hreserved hposted
  have honly := OnlyPolder.complete p m t.tag r
  refine ⟨complete_not_taken h r, ?used, ?posted, ⟨_, mem_out_complete h r, rfl, rfl, rfl, rfl, rfl, rfl, rfl, rfl, rfl⟩, honly.pol, honly.dir, honly.sys,
    honly.front⟩
  case used =>
    rw [complete_ring h r]
    simp only [postedRing, Cq.used]
    omega
  case posted =>
    rw [complete_ring h r]
    rfl

-- A ring's turn (R414, R415, R416, R419).

/-- What no waiting changes: the polder's completion rings, its commands in flight, and the completion ring a submission ring names. -/
structure KeepsSlots (p s : Fin 16) (m m' : Mod) : Prop where
  cqs : m'.pol[p].cqs = m.pol[p].cqs
  taken : m'.pol[p].taken = m.pol[p].taken
  cq : m'.pol[p].sqs[s].cq = m.pol[p].sqs[s].cq

namespace KeepsSlots

variable {p s : Fin 16} {m m' m'' : Mod}

theorem refl (p s : Fin 16) (m : Mod) : KeepsSlots p s m m := ⟨rfl, rfl, rfl⟩

theorem trans (h : KeepsSlots p s m m') (h' : KeepsSlots p s m' m'') : KeepsSlots p s m m'' :=
  ⟨h'.cqs.trans h.cqs, h'.taken.trans h.taken, h'.cq.trans h.cq⟩

theorem modPol {f : Polder → Polder} (hcqs : (f m.pol[p]).cqs = m.pol[p].cqs) (htaken : (f m.pol[p]).taken = m.pol[p].taken)
    (hsqs : (f m.pol[p]).sqs = m.pol[p].sqs) : KeepsSlots p s m (modPol m p f) :=
  ⟨by rw [modPol_pol_self, hcqs], by rw [modPol_pol_self, htaken], by rw [modPol_pol_self, hsqs]⟩

theorem modSq {f : Sq → Sq} (hf : ∀ r, (f r).cq = r.cq) : KeepsSlots p s m (modSq m p s f) :=
  ⟨by rw [Machine.modSq, modPol_pol_self], by rw [Machine.modSq, modPol_pol_self], by simp [Machine.modSq, hf]⟩

theorem pinc (k n : Nat) : KeepsSlots p s m (pinc m p k n) := modPol rfl rfl rfl

theorem endWait (since : Option Nat) (k : Nat) : KeepsSlots p s m (endWait m p since k) := by
  unfold Machine.endWait
  split
  · exact refl p s m
  · exact pinc _ _

theorem countColour (i : Fin 6) (colour n : Nat) (red : Bool) : KeepsSlots p s m (countColour m p i colour n red) := by
  unfold Machine.countColour
  split
  · exact pinc _ _
  · exact pinc _ _
  · split
    · exact refl p s m
    · exact pinc _ _

theorem ring (h : KeepsSlots p s m m') : m'.pol[p].cqs[pn m'.pol[p].sqs[s].cq] = m.pol[p].cqs[pn m.pol[p].sqs[s].cq] := by
  simp only [h.cqs, h.cq]

/-- Every completion ring stays within its depth. -/
theorem ok (h : KeepsSlots p s m m') (hok : ∀ c : Fin 16, (m.pol[p].cqs[c]).ok) (c : Fin 16) : (m'.pol[p].cqs[c]).ok := by
  rw [h.cqs]
  exact hok c

end KeepsSlots

/-- What one ring's turn can do: it waits and keeps every slot, or it takes the head entry, with a slot of its completion ring free. -/
theorem tryRing_cases (m : Mod) (p s : Fin 16) (heads : List HeadEntry) :
    (∃ m', tryRing m p s heads = (false, m') ∧ KeepsSlots p s m m') ∨
    (∃ m' h act, tryRing m p s heads = (true, takeEntry' m' p s h act) ∧ KeepsSlots p s m m' ∧
      m.pol[p].cqs[pn m.pol[p].sqs[s].cq].used < m.pol[p].cqs[pn m.pol[p].sqs[s].cq].depth) := by
  generalize hres : tryRing m p s heads = res
  unfold tryRing at hres
  extract_lets q r at hres
  split at hres
  · exact .inl ⟨_, hres.symm, .refl p s m⟩
  · next c m1 m2 _ h _ =>
    extract_lets e op i at hres
    have hm1 : KeepsSlots p s m m1 := (KeepsSlots.endWait r.cqSince Ctr.cqWaitNs).trans (.modSq fun _ => rfl)
    have hm2 : KeepsSlots p s m m2 := hm1.trans ((KeepsSlots.endWait r.shareSince Ctr.shareWaitNs).trans (.modSq fun _ => rfl))
    split at hres
    · exact .inl ⟨_, hres.symm, .refl p s m⟩
    split at hres
    · exact .inl ⟨_, hres.symm, .refl p s m⟩
    split at hres
    · exact .inl ⟨_, hres.symm, .modSq fun _ => rfl⟩
    next hroom =>
      split at hres
      · exact .inl ⟨_, hres.symm, hm1.trans (.modSq fun _ => rfl)⟩
      split at hres
      · exact .inl ⟨_, hres.symm, hm2⟩
      split at hres
      next col act pl _ =>
        extract_lets m3 at hres
        have hm3 : KeepsSlots p s m m3 := hm2.trans (.modPol rfl rfl rfl)
        split at hres
        · have hm4 : KeepsSlots p s m (if col == 2 then countColour m3 p i 2 1 r.red else m3) := by
            split
            · exact hm3.trans (.countColour _ _ _ _)
            · exact hm3
          exact .inl ⟨_, hres.symm, hm4.trans (.modSq fun _ => rfl)⟩
        · exact .inr ⟨_, h, act, hres.symm, (hm3.trans (.countColour _ _ _ _)).trans (.endWait _ _), Nat.lt_of_not_le hroom⟩

/-- A completion ring replaced by one within its depth leaves all of them so. -/
theorem set_ring_ok {cqs : Vector Cq 16} {c : Fin 16} {r : Cq} (hr : r.ok) (hok : ∀ d : Fin 16, (cqs[d]).ok) (d : Fin 16) : ((cqs.set c r)[d]).ok := by
  by_cases hd : c.val = d.val
  · simp only [Fin.getElem_fin, Vector.getElem_set, hd, if_true]
    exact hr
  · simp only [Fin.getElem_fin, Vector.getElem_set, hd, if_false]
    exact hok d

theorem postedRing_ok {q : Polder} {r : Cq} (h : r.ok) (hroom : r.used < r.depth) : (postedRing q r).ok := by
  refine ⟨Nat.le_succ_of_le h.1, ?_⟩
  rw [postedRing_used h.1]
  exact hroom

theorem reserved_ok {r : Cq} (h : r.ok) (hroom : r.used < r.depth) : ({ r with inflight := r.inflight + 1 } : Cq).ok := by
  simp only [Cq.ok, Cq.used, Cq.depth] at *
  omega

section
variable {m : Mod} {p s : Fin 16} (hok : ∀ c : Fin 16, (m.pol[p].cqs[c]).ok)
  (hroom : m.pol[p].cqs[pn m.pol[p].sqs[s].cq].used < m.pol[p].cqs[pn m.pol[p].sqs[s].cq].depth)
include hok hroom

/-- A completion posted for an entry that starts no command takes a free slot. -/
theorem postEntry_ok (tag job op : Nat) (r : Res) (c : Fin 16) : ((postEntry m p s tag job op r).pol[p].cqs[c]).ok := by
  have hpinc : (pinc m p (Ctr.cmdStatus r.status) 1).pol[p].cqs = m.pol[p].cqs := (KeepsSlots.pinc (s := s) _ _).cqs
  rw [postEntry, postCq_reads (f := fun q => q.cqs[c]) (fun q ctr sec => rfl)]
  exact set_ring_ok (postedRing_ok (by rw [hpinc]; exact hok _) (by rw [hpinc]; exact hroom)) (by rw [hpinc]; exact hok) c

end

/-- An entry taken reserves or fills a free slot of its completion ring. -/
theorem takeEntry'_ok {m : Mod} {p s : Fin 16} (hok : ∀ c : Fin 16, (m.pol[p].cqs[c]).ok)
    (hroom : m.pol[p].cqs[pn m.pol[p].sqs[s].cq].used < m.pol[p].cqs[pn m.pol[p].sqs[s].cq].depth) (h : HeadEntry) (act : Nat) (c : Fin 16) :
    ((takeEntry' m p s h act).pol[p].cqs[c]).ok := by
  have hpost : ∀ (m' : Mod), KeepsSlots p s m m' → ∀ tag job op r, ((postEntry m' p s tag job op r).pol[p].cqs[c]).ok := by
    intro m' hm' tag job op r
    refine postEntry_ok (hm'.ok hok) ?_ tag job op r c
    rw [hm'.ring]
    exact hroom
  generalize hres : takeEntry' m p s h act = res
  unfold takeEntry' at hres
  extract_lets q m1 m1' at hres
  have hhead : KeepsSlots p s m m1 := 
    (KeepsSlots.modSq (f := fun r => { r with head := r.head + 1, held := none, red := false }) fun _ => rfl).trans (.pinc _ _)
  have hm1 : KeepsSlots p s m m1' := hhead.trans (.modPol rfl rfl rfl)
  split at hres
  · rw [← hres]
    exact hpost _ (hm1.trans (.pinc _ _)) _ _ _ _
  next ctr m2 _ _ e _ =>
    extract_lets tag job op at hres
    have hm2 : KeepsSlots p s m m2 := by
      unfold m2
      split
      · exact hm1.trans (.modSq fun _ => rfl)
      · exact hm1
    split at hres
    · rw [← hres]
      exact hpost _ (hm2.trans (.pinc _ _)) _ _ _ _
    split at hres
    next r _ =>
      have hm3 : KeepsSlots p s m (if r.detail == 2 then pinc m2 p Ctr.tagDup 1 else m2) := by
        split
        · exact hm2.trans (.pinc _ _)
        · exact hm2
      rw [← hres]
      exact hpost _ hm3 _ _ _ _
    · rw [← hres, modPol_pol_self]
      have hring : m2.pol[p].cqs[pn q.sqs[s].cq] = m.pol[p].cqs[pn m.pol[p].sqs[s].cq] := by rw [hm2.cqs]
      refine set_ring_ok ?_ (hm2.ok hok) c
      rw [hring]
      exact reserved_ok (hok _) hroom

/-- Settles O23: a turn that waits keeps every slot, and one that takes an entry has found a slot free. -/
theorem intakeKeepsCompletionSlots : Obligations.IntakeKeepsCompletionSlots := by
  unfold Obligations.IntakeKeepsCompletionSlots
  intro m p r heads hok
  obtain ⟨m', hturn, hkeep⟩ | ⟨m', h, act, hturn, hkeep, hroom⟩ := tryRing_cases m p r heads
  · rw [hturn]
    exact ⟨hkeep.ok hok, fun _ => ⟨rfl, hkeep.taken⟩⟩
  · rw [hturn]
    refine ⟨fun c => takeEntry'_ok (hkeep.ok hok) ?_ h act c, fun hfull => absurd hroom (Nat.not_lt.mpr hfull)⟩
    rw [hkeep.ring]
    exact hroom

end Sys2Proof.Machine

/-! PROOFS. Intake of a head entry (O22): what taking an entry that nothing keeps from starting leaves, and a turn of the ring engine. -/

namespace Sys2Proof.Machine

/-- Two changes of one polder are one. -/
theorem modPol_modPol (m : Mod) (p : Fin 16) (f g : Polder → Polder) : modPol (modPol m p f) p g = modPol m p (fun q => g (f q)) := by
  simp [modPol]

/-- Changes that agree on the polder as it stands are the same. -/
theorem modPol_congr {m : Mod} {p : Fin 16} {f g : Polder → Polder} (h : f m.pol[p] = g m.pol[p]) : modPol m p f = modPol m p g := by
  simp only [modPol, h]

-- What an entry reads of the module.

section
variable {m : Mod} {p s : Fin 16}

/-- In a polder that is not sealed every head slot is accepted, as its 64 bytes stand (R371). -/
theorem headEntry_plain (h : m.pol[p].sealed = false) (x : HeadEntry) : headEntry m p s x = some (x.slot % 2 ^ 512) := by
  simp only [headEntry, headIn, slotIn, h, Bool.not_false, Bool.false_and, Bool.false_eq_true, if_false, if_true]

theorem headIn_plain (h : m.pol[p].sealed = false) (x : HeadEntry) : (headIn m p s x).1 = 0 := by
  simp only [headIn, slotIn, h, Bool.not_false, if_true]

theorem entryBad_plain_congr {m' : Mod} (h : m.pol[p].sealed = false) (h' : m'.pol[p].sealed = false) (ht : m'.pol[p].taken = m.pol[p].taken)
    (e : Block) : entryBad m' p e = entryBad m p e := by
  simp only [entryBad, findTaken, h, h', ht, Bool.false_eq_true, if_false]

theorem namedSess_congr {m' : Mod} (h : m'.dir = m.dir) (p : Fin 16) (e : Block) : namedSess m' p e = namedSess m p e := by
  simp only [namedSess, findSid, h]

end

-- An entry taken in a polder that is not sealed, where nothing keeps it from starting.

/-- The polder with the head entry of a ring in flight: the head moved, the ring next in turn, a slot of its completion ring reserved. -/
def entryTaken (q : Polder) (s : Fin 16) (t : Taken) : Polder :=
  { q with
    sqs := q.sqs.set s { q.sqs[s] with head := q.sqs[s].head + 1, held := none, red := false }
    ctr := q.ctr.inc (Ctr.cmdTaken s.val) 1
    rrNext := (s.val + 1) % 16
    ops := if t.engine then q.ops + 1 else q.ops
    cqs := q.cqs.set (pn q.sqs[s].cq) { q.cqs[pn q.sqs[s].cq] with inflight := q.cqs[pn q.sqs[s].cq].inflight + 1 }
    taken := q.taken ++ [t] }

section
variable {m : Mod} {p s : Fin 16} {h : HeadEntry} {e : Block}

theorem takeEntry'_starts (hopen : m.pol[p].sealed = false) (he : headEntry m p s h = some e) (hgood : entryBad m p e = none) :
    takeEntry' m p s h 0 = modPol m p (fun q => entryTaken q s (takenOf m p s e)) := by
  have hzero : (headIn m p s h).1 = 0 := headIn_plain hopen h
  have hact : ((0 : Nat) == 3) = false := rfl
  unfold takeEntry'
  simp only [he, hgood, hopen, hzero, hact, Bool.false_eq_true, if_false, pinc, modSq, modPol_modPol]
  refine modPol_congr ?_
  simp only [entryTaken, takenOf, hopen, Bool.false_eq_true, if_false] <;> rfl

/-- Where nothing holds it a ring's head entry is taken, counted green at the CMD policer that is off. -/
theorem tryRing_takes {heads : List HeadEntry} (hh : heads.find? (fun x => x.sq == s) = some h) (hopen : m.pol[p].sealed = false)
    (hen : m.pol[p].sqs[s].en = true) (hne : m.pol[p].sqs[s].tail ≠ m.pol[p].sqs[s].head) (hcen : m.pol[p].cqs[pn m.pol[p].sqs[s].cq].en = true)
    (hroom : m.pol[p].cqs[pn m.pol[p].sqs[s].cq].used < m.pol[p].cqs[pn m.pol[p].sqs[s].cq].depth) (hcq : m.pol[p].sqs[s].cqSince = none)
    (hshare : m.pol[p].sqs[s].shareSince = none) (hheld : m.pol[p].sqs[s].held = none) (hops : m.pol[p].ops < opsShare m)
    (hoff : ∀ i : Fin 6, m.pol[p].polic[i].set.en = false) (he : headEntry m p s h = some e) :
    tryRing m p s heads = (true, takeEntry' (pinc m p (Ctr.polGreen (polIdx 0 (cmdClass m p e))) 1) p s h 0) := by
  have hempty : (m.pol[p].sqs[s].tail == m.pol[p].sqs[s].head) = false := beq_eq_false_iff_ne.mpr hne
  have hwait : modSq m p s (fun r => { r with cqSince := none }) = m := modSq_of_eq (by rw [← hcq])
  have hshareWait : modSq m p s (fun r => { r with shareSince := none }) = m := modSq_of_eq (by rw [← hshare])
  have hsame : ∀ i : Fin 6, modPol m p (fun q => { q with polic := q.polic.set i m.pol[p].polic[i] }) = m := by
    intro i
    have hset : m.pol[p].polic.set i m.pol[p].polic[i] = m.pol[p].polic := Vector.set_getElem_self _
    exact modPol_of_eq (by simp only [hset])
  have hpass : ∀ i : Fin 6, police m.pol[p].polic[i] 1000000 false = (0, 0, m.pol[p].polic[i]) := fun i => police_disabled (hoff i) _ _
  have hact : ((0 : Nat) == 2) = false := rfl
  unfold tryRing
  simp only [hh, hen, hempty, hcen, hopen, Nat.not_le.mpr hroom, hcq, hshare, hheld, endWait, hwait, hshareWait, he, Option.getD_some,
    Nat.not_le.mpr hops, hpass, hsame, hact, countColour, decide_false, Option.isSome_none, Bool.not_true, Bool.and_false, Bool.false_and, Bool.or_self,
    Bool.false_eq_true, if_false]

end

-- A turn of the ring engine (R414).

section
variable {m : Mod} {p : Fin 16}

/-- A turn with no head held starts at the ring next in turn; the first entry that can be taken ends it. -/
theorem ringIntake_first {t : Nat} {heads : List HeadEntry} {m1 : Mod} (hc : m.pol[p].composed = true) (hf : m.pol[p].fenced = false)
    (hr : m.pol[p].resetting = false) (hready : m.front.ready = true) (hact : m.sys.fw.act = none) (hlive : m.sys.wd.sealed = false)
    (hopen : m.pol[p].sealed = false) (hheld : ∀ r : Fin 16, m.pol[p].sqs[r].held = none)
    (htry : tryRing (tickPol m p t) p (pn m.pol[p].rrNext) heads = (true, m1)) : ringIntake m p t heads = m1 := by
  have hsome : ∀ r : Fin 16, m.pol[p].sqs[r].held.isSome = false := fun r => by rw [hheld r]; rfl
  have hnone : ∀ r : Fin 16, m.pol[p].sqs[r].held.isNone = true := fun r => by rw [hheld r]; rfl
  have hrange : (List.range 16).map (fun i => pn (m.pol[p].rrNext + i)) =
      pn m.pol[p].rrNext :: (List.range 15).map (fun i => pn (m.pol[p].rrNext + (i + 1))) := by
    simp [List.range_succ_eq_map]
  have hdrop : ∀ l : List (Fin 16), l.filter (fun _ => false) = [] := fun _ => List.filter_eq_nil_iff.mpr (fun _ _ => Bool.false_ne_true)
  have hkeep : ∀ l : List (Fin 16), l.filter (fun _ => true) = l := fun _ => List.filter_eq_self.mpr (fun _ _ => rfl)
  unfold ringIntake
  simp only [tickPol_pol_self, tickPol_front, tickPol_sys, hc, hf, hr, hready, hact, hlive, hopen, hsome, hnone, hdrop, hkeep, hrange,
    Bool.not_true, Option.isSome_none, Bool.false_and, Bool.or_self, Bool.false_eq_true, if_false, sortBy, List.foldl_nil, List.nil_append, tryRings, htry]

end

/-- Settles O22: the entry taken is read off the polder it leaves, its frame off the change of one polder; then the engine's turn. -/
theorem intakeTakesTheHeadEntry : Obligations.IntakeTakesTheHeadEntry := by
  unfold Obligations.IntakeTakesTheHeadEntry
  refine ⟨?taken, ?turn⟩
  case taken =>
    intro m p r heads h e hh hopen hen hne hcen hroom hcq hshare hheld hops hoff he hgood
    have hgreen : (pinc m p (Ctr.polGreen (polIdx 0 (cmdClass m p e))) 1).pol[p] =
      { m.pol[p] with ctr := m.pol[p].ctr.inc (Ctr.polGreen (polIdx 0 (cmdClass m p e))) 1 } := pinc_pol_self ..
    have hopen' : (pinc m p (Ctr.polGreen (polIdx 0 (cmdClass m p e))) 1).pol[p].sealed = false := by rw [hgreen, hopen]
    have htaken := tryRing_takes hh hopen hen hne hcen hroom hcq hshare hheld hops hoff he
    rw [takeEntry'_starts hopen' ((headEntry_plain hopen' h).trans ((headEntry_plain hopen h).symm.trans he))
      ((entryBad_plain_congr hopen hopen' (by rw [hgreen]) e).trans hgood)] at htaken
    have honly := (OnlyPolder.pinc p m (Ctr.polGreen (polIdx 0 (cmdClass m p e))) 1).trans (OnlyPolder.modPol p _ fun q =>
      entryTaken q r (takenOf (pinc m p (Ctr.polGreen (polIdx 0 (cmdClass m p e))) 1) p r e))
    refine ⟨_, htaken, ?head, ?inflight, ?flight, honly.pol, honly.dir, honly.sys, rfl⟩
    case head =>
      rw [modPol_pol_self, hgreen]
      simp [entryTaken]
    case inflight =>
      rw [modPol_pol_self, hgreen]
      simp [entryTaken]
    case flight =>
      rw [modPol_pol_self]
      simp only [entryTaken, takenOf, hgreen, namedSess_congr (pinc_dir m p _ _)]
  case turn =>
    intro s p t heads hv m1 hw hc hf hr hready hact hlive hopen hheld htry
    rw [exec_ringIntake_working hw, ringIntake_first hc hf hr hready hact hlive hopen hheld htry]

end Sys2Proof.Machine

/-! PROOFS. What follows an effect (O6), the comparison window (O15), one bad copy of a triplicated field (O17), and user writes of the privileged
apertures (O12). -/

namespace Sys2Proof.Machine

-- What follows an effect: interrupts, where no polder is being dissolved (R425, R436).

/-- A fold whose steps all leave their start. -/
theorem foldl_fixed {α β : Type} {f : α → β → α} {a : α} (h : ∀ b, f a b = a) (l : List β) : l.foldl f a = a := by
  induction l with
  | nil => rfl
  | cons b l ih => rw [List.foldl_cons, h b, ih]

theorem dissolveAll_none {m : Mod} (h : NoDissolve m) : dissolveAll m = m :=
  foldl_fixed (fun p => dissolveGo_none (h p)) _

theorem mgmtIrq_enabled {m : Mod} {n : Nat} (h : bit m.front.intEn n = true) : mgmtIrq m n = { m with out := m.out ++ [Out.irq (512 + n)] } := by
  simp only [mgmtIrq, h, if_true, emit]

theorem mgmtIrq_masked {m : Mod} {n : Nat} (h : bit m.front.intEn n = false) : mgmtIrq m n = m := by
  simp only [mgmtIrq, h, Bool.false_eq_true, if_false]

theorem mgmtIrqs_masked {m : Mod} {v : Nat} (h : bit m.front.intEn v = false) (k : Nat) : (List.range k).foldl (fun m _ => mgmtIrq m v) m = m :=
  foldl_fixed (f := fun m _ => mgmtIrq m v) (fun _ => mgmtIrq_masked h) _

theorem mgmtIrqs_enabled {m : Mod} {v : Nat} (h : bit m.front.intEn v = true) (k : Nat) :
    (List.range k).foldl (fun m _ => mgmtIrq m v) m = { m with out := m.out ++ List.replicate k (Out.irq (512 + v)) } := by
  induction k with
  | zero => simp
  | succ k ih =>
    rw [List.range_succ, List.foldl_append, ih]
    simp only [List.foldl_cons, List.foldl_nil]
    rw [mgmtIrq_enabled (m := { m with out := m.out ++ List.replicate k (Out.irq (512 + v)) }) h]
    simp [List.replicate_succ']

theorem levelIrq_eq (old m : Mod) :
    levelIrq old m =
      if bit m.front.intEn 2 then
        { m with out := m.out ++ List.replicate (popcount ((fltBits old ^^^ fltBits m) + 32 * (pwrBits old ^^^ pwrBits m)) 16) (Out.irq 514) }
      else m := by
  unfold levelIrq
  split
  · next h => exact mgmtIrqs_enabled h _
  · next h => exact mgmtIrqs_masked (Bool.eq_false_iff.mpr h) _

/-- A module with more output sent, and nothing else: some management interrupts, each of a vector that a list of numbers allows. -/
def SentIrqs (vs : List Nat) (m m' : Mod) : Prop := ∃ l : List Nat, (∀ v ∈ l, v ∈ vs) ∧ m' = { m with out := m.out ++ l.map Out.irq }

namespace SentIrqs

theorem refl (vs : List Nat) (m : Mod) : SentIrqs vs m m := ⟨[], by simp, by simp⟩

theorem trans {vs : List Nat} {m m1 m2 : Mod} (h1 : SentIrqs vs m m1) (h2 : SentIrqs vs m1 m2) : SentIrqs vs m m2 := by
  obtain ⟨l1, hl1, rfl⟩ := h1
  obtain ⟨l2, hl2, rfl⟩ := h2
  refine ⟨l1 ++ l2, fun v hv => ?_, by simp⟩
  rcases List.mem_append.mp hv with hv | hv
  · exact hl1 v hv
  · exact hl2 v hv

theorem mgmtIrq {vs : List Nat} (m : Mod) {n : Nat} (hn : 512 + n ∈ vs) : SentIrqs vs m (mgmtIrq m n) := by
  cases h : bit m.front.intEn n
  · rw [mgmtIrq_masked h]
    exact refl vs m
  · exact ⟨[512 + n], by simpa using hn, mgmtIrq_enabled h⟩

theorem levelIrq (old m : Mod) : SentIrqs [514, 515] m (levelIrq old m) := by
  rw [levelIrq_eq]
  split
  · exact ⟨List.replicate (popcount ((fltBits old ^^^ fltBits m) + 32 * (pwrBits old ^^^ pwrBits m)) 16) 514,
      fun v hv => List.mem_cons.mpr (.inl (List.eq_of_mem_replicate hv)), by rw [List.map_replicate]⟩
  · exact refl _ m

theorem settled (old : Mod) {m : Mod} (h : NoDissolve m) : SentIrqs [514, 515] m (settled old m) := by
  simp only [Machine.settled, dissolveAll_none h]
  split
  · exact (levelIrq old m).trans (mgmtIrq _ (by simp))
  · exact levelIrq old m

end SentIrqs

/-- Settles O6: nothing goes on being dissolved, and each interrupt only sends. -/
theorem aftermathOnlySendsInterrupts : Obligations.AftermathOnlySendsInterrupts := by
  unfold Obligations.AftermathOnlySendsInterrupts
  refine ⟨fun old m h => ?_, levelIrq_eq⟩
  obtain ⟨l, hl, he⟩ := SentIrqs.settled old h
  exact ⟨l, fun v hv => by simpa using hl v hv, he⟩

-- The comparison window (R448, R449).

/-- The high word of a comparison register latched, and the latch counted (R449). -/
def cmpLatched (m : Mod) (i : Fin 16) : Mod :=
  { m with front := { m.front with cmpShadow := cmpValue m i.val / 2 ^ 32, cmpLatches := (m.front.cmpLatches + 1) % 2 ^ 32 } }

theorem cmpLoRead_seen {m : Mod} {pr : Priv} (h : cmpSeen m pr = true) (i : Fin 16) :
    cmpLoRead m i pr = emit (cmpLatched m i) (.reg (cmpValue m i.val % 2 ^ 32)) := by
  simp only [cmpLoRead, h, Bool.not_true, Bool.false_eq_true, if_false, cmpLatched]

theorem cmpHiRead_seen {m : Mod} {pr : Priv} (h : cmpSeen m pr = true) (i : Fin 16) : cmpHiRead m i pr = emit m (.reg m.front.cmpShadow) := by
  simp only [cmpHiRead, h, if_true]

section
variable {s : State} (hw : s.m.working = true)
include hw

theorem exec_cmpLoRead_working (i : Fin 16) (pr : Priv) : exec (.cmpLoRead i pr) s = after s (cmpLoRead s.m i pr) :=
  work_on (f := fun _ m => cmpLoRead m i pr) hw

theorem exec_cmpHiRead_working (i : Fin 16) (pr : Priv) : exec (.cmpHiRead i pr) s = after s (cmpHiRead s.m i pr) :=
  work_on (f := fun _ m => cmpHiRead m i pr) hw

end

/-- A register read sends one value; what follows it only sends interrupts. -/
theorem after_read {s t : State} {m : Mod} {v : Nat} (hnd : NoDissolve m) (h : after s (emit m (.reg v)) = .next t) :
    ∃ l, t = { s with m := { m with out := m.out ++ Out.reg v :: l } } := by
  obtain ⟨l, -, he⟩ := SentIrqs.settled s.m (m := emit m (.reg v)) hnd
  unfold after at h
  rw [he] at h
  cases h
  exact ⟨l.map Out.irq, by simp [emit]⟩

/-- Settles O15: the two reads at work; the high word read is the one that the low word's read latched. -/
theorem comparisonWindowLatches : Obligations.ComparisonWindowLatches := by
  unfold Obligations.ComparisonWindowLatches
  intro s i j pr hw hseen
  refine ⟨by rw [exec_cmpLoRead_working hw, cmpLoRead_seen hseen, cmpLatched], by rw [exec_cmpHiRead_working hw, cmpHiRead_seen hseen], ?_⟩
  intro t u hnd ht hu
  rw [exec_cmpLoRead_working hw, cmpLoRead_seen hseen] at ht
  obtain ⟨l1, rfl⟩ := after_read (m := cmpLatched s.m i) hnd ht
  rw [exec_cmpHiRead_working (by exact hw), cmpHiRead_seen (by exact hseen)] at hu
  obtain ⟨l2, rfl⟩ := after_read (by exact hnd) hu
  exact ⟨_, _, l1, l2, rfl, rfl, Nat.mod_lt _ (by decide), Nat.div_add_mod' _ _⟩

-- A triplicated field with one bad copy (R437).

section
variable {α : Type} [DecidableEq α] {t : Tri α} {v : α}

theorem Tri.read_of_vote (h : t.vote = some v) (safe : α → α → α → α) : t.read safe = v := by
  simp only [Tri.read, h, Option.getD_some]

theorem sweepTri_of_vote (h : t.vote = some v) (safe : α → α → α → α) :
    sweepTri t safe = (Tri.mk1 v, !(decide (t.a = v) && decide (t.b = v) && decide (t.c = v)), false) := by
  simp only [sweepTri, h]

end

theorem Tri.vote_bad_c {α : Type} [DecidableEq α] (v x : α) : (Tri.mk v v x).vote = some v := by simp [Tri.vote]

theorem Tri.vote_bad_b {α : Type} [DecidableEq α] (v x : α) : (Tri.mk v x v).vote = some v := by
  by_cases h : v = x <;> simp [Tri.vote, h]

theorem Tri.vote_bad_a {α : Type} [DecidableEq α] (v x : α) : (Tri.mk x v v).vote = some v := by
  by_cases h : x = v <;> simp [Tri.vote, h]

/-- Settles O17: the two copies that agree outvote the third. -/
theorem oneBadCopyIsMasked : Obligations.OneBadCopyIsMasked := by
  unfold Obligations.OneBadCopyIsMasked
  intro v x safe
  have hc := Tri.vote_bad_c v x
  have hb := Tri.vote_bad_b v x
  have ha := Tri.vote_bad_a v x
  refine ⟨Tri.read_of_vote hc safe, Tri.read_of_vote hb safe, Tri.read_of_vote ha safe, ?_, ?_, ?_, ?_, ?_⟩
  · rw [sweepTri_of_vote hc]
  · rw [sweepTri_of_vote hb]
  · rw [sweepTri_of_vote ha]
  · rw [sweepTri_of_vote hc]
    simp
  · rw [sweepTri_of_vote (t := Tri.mk1 v) (Tri.vote_bad_c v v)]
    simp [Tri.mk1]

-- A user's writes of registers that are PV (R431, R451).

theorem pvWrite_user (m : Mod) (f : Mod → Mod) : pvWrite m .user f = minc m Ctr.pvRefused 1 := rfl

/-- What a user's write leaves of the module: as it was, a count in PV_REFUSED, or a count in TST_IGNORED while DEBUG_LOCK is blown. -/
def UserRefused (fz : Fuses) (m m' : Mod) : Prop :=
  m' = m ∨ m' = minc m Ctr.pvRefused 1 ∨ (fz.debugLock = true ∧ m' = modWd m (fun w => { w with tstIgnored := (w.tstIgnored + 1) % 2 ^ 32 }))

theorem userRefused_pvWrite (fz : Fuses) (m : Mod) (f : Mod → Mod) : UserRefused fz m (pvWrite m .user f) := .inr (.inl rfl)

theorem userRefused_tstWrite (fz : Fuses) (m : Mod) (f : Mod → Mod) : UserRefused fz m (tstWrite fz m .user f) := by
  unfold tstWrite
  split
  · next h => exact .inr (.inr ⟨h, rfl⟩)
  · exact userRefused_pvWrite fz m f

theorem userRefused_ite {fz : Fuses} {m m₁ m₂ : Mod} {c : Prop} [Decidable c] (h1 : UserRefused fz m m₁) (h2 : UserRefused fz m m₂) :
    UserRefused fz m (if c then m₁ else m₂) := by
  split
  · exact h1
  · exact h2

/-- Every register of the management aperture that takes writes is PV or a TST_ register. -/
theorem userRefused_mgmtWrite (fz : Fuses) (m : Mod) (off v : Nat) : UserRefused fz m (mgmtWrite fz m off v .user) := by
  have hpv := userRefused_pvWrite fz m
  have htst := userRefused_tstWrite fz m
  have hnone : UserRefused fz m m := .inl rfl
  refine userRefused_ite (hpv _) (userRefused_ite (hpv _) (userRefused_ite (hpv _) ?_))
  exact userRefused_ite (htst _) (userRefused_ite (htst _) (userRefused_ite (htst _) (userRefused_ite (htst _) (userRefused_ite (htst _)
    (userRefused_ite (htst _) (userRefused_ite (htst _) hnone))))))

/-- Settles O12: every register of the three apertures that takes writes is PV or a TST_ register. -/
theorem userWritesOfPrivilegedApertures : Obligations.UserWritesOfPrivilegedApertures := by
  unfold Obligations.UserWritesOfPrivilegedApertures
  intro fz m r off v hr
  have hpv := userRefused_pvWrite fz m
  have hnone : UserRefused fz m m := .inl rfl
  change UserRefused fz m (registerWrite fz m r off v .user)
  refine userRefused_ite hnone ?_
  cases r with
  | mgmt => exact userRefused_mgmtWrite fz m off _
  | pol p => exact absurd rfl (hr p)
  | sec => exact userRefused_ite (hpv _) (userRefused_ite (hpv _) hnone)
  | wmb => exact userRefused_ite (hpv _) hnone

end Sys2Proof.Machine

/-! PROOFS. Register writes (O13, O11): a polder's aperture touches its polder alone, and what a register takes, ignores and counts. -/

namespace Sys2Proof.Machine

-- A write to a polder's aperture (R403, R431 to R433).

namespace OnlyPolder

variable {p : Fin 16} {m m' : Mod}

/-- A step taken only where a condition holds. -/
theorem ite {m₁ m₂ : Mod} {c : Prop} [Decidable c] (h1 : OnlyPolder p m m₁) (h2 : OnlyPolder p m m₂) : OnlyPolder p m (if c then m₁ else m₂) := by
  split
  · exact h1
  · exact h2

theorem polWrite (m : Mod) (pr : Priv) {f : Mod → Mod} (h : OnlyPolder p m (f m)) : OnlyPolder p m (polWrite m p pr f) := ite h (minc p m _ _)

theorem sqBaseWrite (m : Mod) (p r : Fin 16) (hi : Bool) (v : Nat) : OnlyPolder p m (sqBaseWrite m p r hi v) :=
  ite (ite (pinc p m _ _) (refl p m)) (modPol p m _)

theorem cqBaseWrite (m : Mod) (p c : Fin 16) (hi : Bool) (v : Nat) : OnlyPolder p m (cqBaseWrite m p c hi v) :=
  ite (ite (pinc p m _ _) (refl p m)) (modPol p m _)

theorem cqModWrite (m : Mod) (p c : Fin 16) (v : Nat) : OnlyPolder p m (cqModWrite m p c v) := by
  unfold Machine.cqModWrite modCq
  exact modPol p m _

theorem sqTailWrite (m : Mod) (p r : Fin 16) (v : Nat) (pr : Priv) : OnlyPolder p m (sqTailWrite m p r v pr) :=
  polWrite m pr (ite (pinc p m _ _) (modPol p m _))

theorem cqHeadWrite (m : Mod) (p c : Fin 16) (v : Nat) (pr : Priv) : OnlyPolder p m (cqHeadWrite m p c v pr) :=
  polWrite m pr (ite (pinc p m _ _) ((modPol p m _).trans (flushEvents p _)))

theorem sqCtrlWrite (m : Mod) (p r : Fin 16) (v : Nat) (pr : Priv) : OnlyPolder p m (sqCtrlWrite m p r v pr) := by
  refine polWrite m pr (ite ?_ (ite (pinc p m _ _) ?_))
  · exact (ite (pinc p m _ _) (refl p m)).trans (modPol p _ _)
  · exact (ite (pinc p m _ _) (refl p m)).trans (modPol p _ _)

theorem cqCtrlWrite (m : Mod) (p c : Fin 16) (v : Nat) (pr : Priv) : OnlyPolder p m (cqCtrlWrite m p c v pr) := by
  refine polWrite m pr (ite ?_ (ite (pinc p m _ _) ?_))
  · exact (ite (pinc p m _ _) (refl p m)).trans (modPol p _ _)
  · exact (modPol p m _).trans (flushEvents p _)

theorem modMbx (m : Mod) (p : Fin 16) (f : Mbx → Mbx) : OnlyPolder p m (modMbx m (.pol p) f) :=
  modPol p m (fun q => { q with mbx := f q.mbx })

theorem mbxDone (m : Mod) (p : Fin 16) (st : Nat) (res : Block) : OnlyPolder p m (mbxDone m (.pol p) st res) :=
  ite (((modMbx m p _).trans (pinc p _ _ _)).trans (polIrq p p _ _)) ((modMbx m p _).trans (pinc p _ _ _))

theorem goWrite (m : Mod) (p : Fin 16) (pr : Priv) : OnlyPolder p m (goWrite m (.pol p) pr) := by
  have haccept : OnlyPolder p m (Machine.modMbx m (.pol p) (fun x => acceptGo x pr)) := modMbx m p _
  refine ite (refl p m) ?_
  dsimp only
  split
  · exact (ite (haccept.trans (minc p _ _ _)) haccept).trans (mbxDone _ p _ _)
  · exact ite (haccept.trans (minc p _ _ _)) haccept

theorem mbxWrite (m : Mod) (p : Fin 16) (off v : Nat) (pr : Priv) : OnlyPolder p m (mbxWrite m (.pol p) off v pr) :=
  ite (refl p m) (ite (modMbx m p _) (ite (modMbx m p _) (ite (goWrite m p pr) (modMbx m p _))))

theorem polAperture (m : Mod) (p : Fin 16) (off v : Nat) (pr : Priv) : OnlyPolder p m (polAperture m p off v pr) := by
  refine ite (mbxWrite m p off v pr) (ite ?submission (ite ?completion (ite (modPol p m _) (refl p m))))
  case submission =>
    split
    · exact sqBaseWrite m p _ _ v
    · exact sqBaseWrite m p _ _ v
    · exact sqCtrlWrite m p _ v pr
    · exact sqTailWrite m p _ v pr
    · exact refl p m
  case completion =>
    split
    · exact cqBaseWrite m p _ _ v
    · exact cqBaseWrite m p _ _ v
    · exact cqCtrlWrite m p _ v pr
    · exact cqModWrite m p _ v
    · exact cqHeadWrite m p _ v pr
    · exact refl p m

theorem registerWrite (fz : Fuses) (m : Mod) (p : Fin 16) (off v : Nat) (pr : Priv) : OnlyPolder p m (registerWrite fz m (.pol p) off v pr) :=
  ite (refl p m) (polWrite m pr (polAperture m p off _ pr))

end OnlyPolder

/-- Settles O13: every register of a polder's aperture touches that polder alone. -/
theorem polderApertureIsolation : Obligations.PolderApertureIsolation := by
  unfold Obligations.PolderApertureIsolation
  intro fz m p q off v pr hq
  obtain ⟨hpol, hdir, hfence, hftl, hpeers, hjr, hsys, hfront⟩ := OnlyPolder.registerWrite fz m p off v pr
  exact ⟨hpol q hq, hdir, hfence, hftl, hpeers, hjr, hsys, hfront⟩

-- What registers take, ignore and count (R431 to R433, R405, Table 15-2).

theorem Priv.pv_of_ne {pr : Priv} (h : pr ≠ .user) : pr.pv = true := bne_iff_ne.mpr h

theorem pvWrite_pv {m : Mod} {pr : Priv} (h : pr.pv = true) (f : Mod → Mod) : pvWrite m pr f = f m := by
  simp only [pvWrite, h, if_true]

theorem registerWrite_unaligned {off : Nat} (h : off % 4 ≠ 0) (fz : Fuses) (m : Mod) (r : Region) (v : Nat) (pr : Priv) :
    registerWrite fz m r off v pr = m := by
  simp only [registerWrite, bne_iff_ne, ne_eq, h, not_false_eq_true, if_true]

theorem registerWrite_aligned {off : Nat} (h : off % 4 = 0) (fz : Fuses) (m : Mod) (p : Fin 16) (v : Nat) (pr : Priv) :
    registerWrite fz m (.pol p) off v pr = polWrite m p pr (fun m => polAperture m p off (v % 2 ^ 32) pr) := by
  simp only [registerWrite, h, bne_self_eq_false, Bool.false_eq_true, if_false]

/-- A write that POLDER_PRIV keeps from a user is ignored and counted. -/
theorem polWrite_refused {m : Mod} {p : Fin 16} {pr : Priv} (h : polWriteOk m p pr = false) (f : Mod → Mod) :
    polWrite m p pr f = minc m Ctr.pvRefused 1 := by
  simp only [polWrite, h, Bool.false_eq_true, if_false]

section
variable {m : Mod} {b : Box} (v : Nat) (pr : Priv)

theorem mbxWrite_cmd_idle (h : (getMbx m b).busy = false) :
    mbxWrite m b 0 v pr = modMbx m b (fun x => { x with cmd := v % 2 ^ 14 + v / 2 ^ 16 * 2 ^ 16 }) := by
  simp [mbxWrite, h]

theorem mbxWrite_cmd_busy (h : (getMbx m b).busy = true) :
    mbxWrite m b 0 v pr = modMbx m b (fun x => { x with dropped := (x.dropped + 1) % 2 ^ 32 }) := by
  simp [mbxWrite, h]

end

section
variable {s : State} (hw : s.m.working = true)
include hw

theorem exec_secPrivMapWrite_working (v : Nat) (pr : Priv) : exec (.secPrivMapWrite v pr) s = after s (secPrivMapWrite s.m v pr) :=
  work_on (f := fun _ m => secPrivMapWrite m v pr) hw

theorem exec_registerWrite_working (r : Region) (off v : Nat) (pr : Priv) :
    exec (.registerWrite r off v pr) s = after s (registerWrite s.fuses s.m r off v pr) :=
  work_on (f := fun z m => registerWrite z m r off v pr) hw

end

/-- Settles O11: each register at its offset, for the masters it takes and those it refuses. -/
theorem registerWrites : Obligations.RegisterWrites := by
  unfold Obligations.RegisterWrites
  refine ⟨fun s v pr hw => ⟨?map, ?mapUser⟩, fun s v hw => ⟨?intEn, ?intEnUser, ?cmd, ?cmdBusy, ?conf, ?polIntEn, ?polUser, ?unaligned⟩⟩
  case map =>
    intro hpr
    rw [exec_secPrivMapWrite_working hw, secPrivMapWrite, pvWrite_pv (Priv.pv_of_ne hpr)]
  case mapUser =>
    rintro rfl
    exact exec_secPrivMapWrite_working hw v .user
  case intEn => exact exec_registerWrite_working hw .mgmt 0x800 v .privileged
  case intEnUser => exact exec_registerWrite_working hw .mgmt 0x800 v .user
  case cmd =>
    intro hidle
    have hcmd := mbxWrite_cmd_idle (m := s.m) (b := .mgmt) (v % 2 ^ 32) .privileged hidle
    rw [← hcmd]
    exact exec_registerWrite_working hw .mgmt 0x400 v .privileged
  case cmdBusy =>
    intro hbusy
    have hcmd := mbxWrite_cmd_busy (m := s.m) (b := .mgmt) (v % 2 ^ 32) .privileged hbusy
    rw [← hcmd]
    exact exec_registerWrite_working hw .mgmt 0x400 v .privileged
  case conf => exact exec_registerWrite_working hw .wmb 0x018 v .privileged
  case polIntEn =>
    intro p pr hok
    rw [exec_registerWrite_working hw, registerWrite_aligned (by rfl), polWrite_ok hok]
    rfl
  case polUser =>
    intro p off hno hoff
    rw [exec_registerWrite_working hw, registerWrite_aligned hoff, polWrite_refused hno]
  case unaligned =>
    intro r off pr hoff
    rw [exec_registerWrite_working hw, registerWrite_unaligned hoff]

end Sys2Proof.Machine

/-! PROOFS. Test perturbations (O14) and cross-domain reads (O16). -/

namespace Sys2Proof.Machine

-- What each command does in a module at work.

section
variable {s : State} (hw : s.m.working = true)
include hw

section
variable (v : Nat) (pr : Priv)

theorem exec_tstResInject_working : exec (.tstResInject v pr) s = after s (tstResInject s.fuses s.m v pr) :=
  work_on (f := fun z m => tstResInject z m v pr) hw

theorem exec_tstEccInject_working : exec (.tstEccInject v pr) s = after s (tstEccInject s.fuses s.m v pr) :=
  work_on (f := fun z m => tstEccInject z m v pr) hw

theorem exec_tstStallInject_working : exec (.tstStallInject v pr) s = after s (tstStallInject s.fuses s.m v pr) :=
  work_on (f := fun z m => tstStallInject z m v pr) hw

theorem exec_tstLockstepInject_working : exec (.tstLockstepInject v pr) s = after s (tstLockstepInject s.fuses s.m v pr) :=
  work_on (f := fun z m => tstLockstepInject z m v pr) hw

theorem exec_tstTrInject_working : exec (.tstTrInject v pr) s = after s (tstTrInject s.fuses s.m v pr) :=
  work_on (f := fun z m => tstTrInject z m v pr) hw

theorem exec_tstSensorOffset_working : exec (.tstSensorOffset v pr) s = after s (tstSensorOffset s.fuses s.m v pr) :=
  work_on (f := fun z m => tstSensorOffset z m v pr) hw

end

theorem exec_xdStallRead_working (r : Region) (a : ReadAt) (pr : Priv) :
    exec (.xdStallRead r a pr) s = after s (xdStallRead s.fuses s.m r a.off pr a.wide) :=
  work_on (f := fun z m => xdStallRead z m r a.off pr a.wide) hw

theorem exec_xdTimeout_working (r : Region) (off : Nat) : exec (.xdTimeout r off) s = after s (xdTimeoutRow s.m r off) :=
  work_on (f := fun _ m => xdTimeoutRow m r off) hw

theorem exec_mirrorRefresh_working : exec .mirrorRefresh s = after s (mirrorRefresh s.fuses s.m) := work_on (f := mirrorRefresh) hw

end

-- Test perturbations (R451, Table 15-14).

/-- While DEBUG_LOCK is blown a TST_ write is ignored and counted. -/
theorem tstWrite_blown {fz : Fuses} (h : fz.debugLock = true) (m : Mod) (pr : Priv) (f : Mod → Mod) :
    tstWrite fz m pr f = modWd m (fun w => { w with tstIgnored := (w.tstIgnored + 1) % 2 ^ 32 }) := by
  simp only [tstWrite, h, if_true]

section
variable {fz : Fuses} (hd : fz.debugLock = false) (m : Mod) {v : Nat}
include hd

/-- While it is intact a privileged one is taken. -/
theorem tstWrite_intact (f : Mod → Mod) : tstWrite fz m .privileged f = f m := by
  simp only [tstWrite, hd, Bool.false_eq_true, if_false]
  exact pvWrite_pv rfl f

theorem tstResInject_arms (hgo : bit v 8 = true) (hf : arrayFenced m (v % 256) = false) :
    tstResInject fz m v .privileged = armAdd m { kind := 0, target := 0, double := false, unit := v % 256 } := by
  rw [tstResInject, tstWrite_intact hd]
  simp only [hgo, hf, Bool.not_false, Bool.and_self, if_true]

theorem tstStallInject_arms (hgo : bit v 8 = true) (hf : arrayFenced m (v % 256) = false) :
    tstStallInject fz m v .privileged = armAdd m { kind := 2, target := 0, double := false, unit := v % 256 } := by
  rw [tstStallInject, tstWrite_intact hd]
  simp only [hgo, hf, Bool.not_false, Bool.and_self, if_true]

theorem tstEccInject_armsCrest (hgo : bit v 16 = true) (htgt : v % 4 = 0) :
    tstEccInject fz m v .privileged = armAdd m { kind := 1, target := 0, double := bit v 2, unit := 0 } := by
  rw [tstEccInject, tstWrite_intact hd]
  simp only [hgo, htgt, Bool.and_self, beq_self_eq_true, if_true]

theorem tstLockstepInject_arms (hgo : bit v 2 = true) (hf : unitFenced m 0x06 (v % 4) = false) :
    tstLockstepInject fz m v .privileged = armAdd m { kind := 3, target := 0, double := false, unit := v % 4 } := by
  rw [tstLockstepInject, tstWrite_intact hd]
  simp only [hgo, hf, Bool.not_false, Bool.and_self, if_true]

theorem tstTrInject_inverts (hgo : bit v 5 = true) (hrow : v % 8 ≠ 7) (hcopy : v / 8 % 4 ≠ 3) :
    tstTrInject fz m v .privileged =
      modWd (flipRow m (v % 8) (v / 8 % 4)) (fun w => { w with tstInjected := (w.tstInjected + 1) % 2 ^ 32 }) := by
  rw [tstTrInject, tstWrite_intact hd]
  simp only [hgo, bne_iff_ne.mpr hrow, bne_iff_ne.mpr hcopy, Bool.and_self, if_true]

theorem tstSensorOffset_sets (hi : v % 64 < 36) (hf : fencedBit m.fence.sensor (v % 64) = false) (hpos : bit v 31 = false) :
    tstSensorOffset fz m v .privileged = modWd m (fun w => { w with
      sensorReg := v % 64 + v / 65536 % 65536 * 65536, sensorOff := w.sensorOff.put (v % 64) ((v / 65536 % 65536 : Nat) : Int) }) := by
  rw [tstSensorOffset, tstWrite_intact hd]
  simp only [decide_eq_false (Nat.not_le.mpr hi), hf, hpos, Bool.or_self, Bool.false_eq_true, if_false]

end

/-- Settles O14: each TST_ register while DEBUG_LOCK is intact, then all of them while it is blown. -/
theorem testPerturbations : Obligations.TestPerturbations := by
  unfold Obligations.TestPerturbations
  refine ⟨fun s v hw hd => ⟨?arrays, ?ecc, ?lockstep, ?copies, ?sensor⟩, ?blown⟩
  case arrays =>
    intro hgo hf
    rw [exec_tstResInject_working hw, exec_tstStallInject_working hw, tstResInject_arms hd s.m hgo hf, tstStallInject_arms hd s.m hgo hf]
    exact ⟨rfl, rfl⟩
  case ecc =>
    intro hgo htgt
    rw [exec_tstEccInject_working hw, tstEccInject_armsCrest hd s.m hgo htgt]
  case lockstep =>
    intro hgo hf
    rw [exec_tstLockstepInject_working hw, tstLockstepInject_arms hd s.m hgo hf]
  case copies =>
    intro hgo hrow hcopy
    rw [exec_tstTrInject_working hw, tstTrInject_inverts hd s.m hgo hrow hcopy]
  case sensor =>
    intro hi hf hpos
    rw [exec_tstSensorOffset_working hw, tstSensorOffset_sets hd s.m hi hf hpos]
  case blown =>
    intro s v pr c hw hd hc
    simp only [List.mem_cons, List.not_mem_nil, or_false] at hc
    obtain rfl | rfl | rfl | rfl | rfl | rfl := hc
    · rw [exec_tstResInject_working hw, tstResInject, tstWrite_blown hd]
    · rw [exec_tstEccInject_working hw, tstEccInject, tstWrite_blown hd]
    · rw [exec_tstStallInject_working hw, tstStallInject, tstWrite_blown hd]
    · rw [exec_tstLockstepInject_working hw, tstLockstepInject, tstWrite_blown hd]
    · rw [exec_tstTrInject_working hw, tstTrInject, tstWrite_blown hd]
    · rw [exec_tstSensorOffset_working hw, tstSensorOffset, tstWrite_blown hd]

-- Cross-domain reads (R434, R435).

/-- No cross-domain register lies in the comparison window. -/
theorem isXd_not_window {r : Region} {off : Nat} (h : isXd r off = true) :
    (r == .mgmt && decide (0x4100 ≤ off) && decide (off < 0x4180)) = false := by
  cases r with
  | mgmt =>
    simp only [isXd, Bool.or_eq_true, Bool.and_eq_true, beq_iff_eq, decide_eq_true_eq] at h
    simp only [beq_self_eq_true, Bool.true_and, Bool.and_eq_false_iff, decide_eq_false_iff_not]
    omega
  | pol p => rfl
  | sec => rfl
  | wmb => rfl

section
variable {fz : Fuses} {m : Mod} {r : Region} {off : Nat} (hxd : isXd r off = true)
include hxd

/-- A 4-byte read of a cross-domain register, as its mode and its domain have it. -/
theorem xdStallRead_xd (hoff : off % 4 = 0) (pr : Priv) :
    xdStallRead fz m r off pr false =
      if mirrorMode m then emit m (.reg (mirrorRead fz m r off pr))
      else if ownerDown m r off then m
      else emit m (.reg (seen r off pr (rawRead fz m r off .secure))) := by
  simp only [xdStallRead, hoff, isXd_not_window hxd, hxd, bne_self_eq_false, Bool.not_true, Bool.false_eq_true, if_false]

theorem xdTimeoutRow_stalled (hmode : mirrorMode m = false) :
    xdTimeoutRow m r off = emit { m with front := { m.front with xdTimeout := (m.front.xdTimeout + 1) % 2 ^ 32 } } (.reg 0xFFFFFFFF) := by
  simp only [xdTimeoutRow, hxd, hmode, Bool.not_false, Bool.and_self, if_true]

end

/-- A tick with neither wedge. -/
theorem mirrorRefresh_running (fz : Fuses) {m : Mod} (hcores : m.sys.wd.coresWedged = false) (hfab : m.sys.wd.fabWedged = false) :
    mirrorRefresh fz m =
      if mirrorMode m then takeMirrors fz (modWd m (fun w => { w with ticks := w.ticks + 1 })) else modWd m (fun w => { w with ticks := w.ticks + 1 }) := by
  have hcount : ((modWd m (fun w => { w with ticks := w.ticks + 1 })).sys.wd.coresWedged ||
      (modWd m (fun w => { w with ticks := w.ticks + 1 })).sys.wd.fabWedged) = false := by
    change (m.sys.wd.coresWedged || m.sys.wd.fabWedged) = false
    rw [hcores, hfab]
    rfl
  simp only [mirrorRefresh, hcount, Bool.false_and, Bool.false_eq_true, if_false]
  rfl

/-- Settles O16: a read by mode and domain, its timeout, and a tick by mode. -/
theorem crossDomainReads : Obligations.CrossDomainReads := by
  unfold Obligations.CrossDomainReads
  refine ⟨fun s r off pr hw hxd hoff => ⟨?up, ?down, ?timeout, ?mirror⟩, fun s hw hcores hfab => ⟨?taken, ?left⟩⟩
  case up =>
    intro hmode hup
    rw [exec_xdStallRead_working hw, xdStallRead_xd hxd hoff, if_neg (Bool.eq_false_iff.mp hmode), if_neg (Bool.eq_false_iff.mp hup)]
  case down =>
    intro hmode hdown
    rw [exec_xdStallRead_working hw, xdStallRead_xd hxd hoff, if_neg (Bool.eq_false_iff.mp hmode), if_pos hdown]
  case timeout =>
    intro hmode
    rw [exec_xdTimeout_working hw, xdTimeoutRow_stalled hxd hmode]
  case mirror =>
    intro hmode
    rw [exec_xdStallRead_working hw, xdStallRead_xd hxd hoff, if_pos hmode]
  case taken =>
    intro hmode
    rw [exec_mirrorRefresh_working hw, mirrorRefresh_running _ hcores hfab, if_pos hmode]
  case left =>
    intro hmode
    rw [exec_mirrorRefresh_working hw, mirrorRefresh_running _ hcores hfab, if_neg (Bool.eq_false_iff.mp hmode)]

end Sys2Proof.Machine

/-! PROOFS. The sweep of triplicated fields (O18): a field whose copies have a majority is swept to three equal copies, and what is swept
later leaves them. -/

namespace Sys2Proof.Machine

/-- Of the units behind the front end, a fault record changes the warden's log and the number of its next record, and nothing else. -/
theorem logFault_sys (m : Mod) (ty idx fault action : Nat) (env : Bool) (detail : Block) :
    ∃ l n, (logFault m ty idx fault action env detail).sys = { m.sys with wd := { m.sys.wd with log := l, nextSeq := n } } := by
  unfold logFault
  dsimp only
  split
  · rw [mgmtIrq_sys]
    split <;> exact ⟨_, _, rfl⟩
  · split
    · exact ⟨_, _, rfl⟩
    · rw [mgmtIrq_sys]
      split <;> exact ⟨_, _, rfl⟩

-- A field while other fields are swept.

/-- A field that has a majority keeps its copies, or holds three equal copies of the majority. -/
def TriKept {α : Type} [DecidableEq α] (t t' : Tri α) : Prop := ∀ v, t.vote = some v → t' = t ∨ t' = Tri.mk1 v

section
variable {α : Type} [DecidableEq α] {t t' t'' : Tri α} {v : α}

theorem Tri.vote_mk1 (v : α) : (Tri.mk1 v).vote = some v := Tri.vote_bad_c v v

theorem TriKept.refl (t : Tri α) : TriKept t t := fun _ _ => .inl rfl

theorem TriKept.of_eq (h : t' = t) : TriKept t t' := fun _ _ => .inl h

theorem TriKept.repaired (h : t.vote = some v) : TriKept t (Tri.mk1 v) := by
  intro u hu
  cases h.symm.trans hu
  exact .inr rfl

theorem TriKept.vote (h : TriKept t t') (hv : t.vote = some v) : t'.vote = some v := by
  rcases h v hv with rfl | rfl
  · exact hv
  · exact Tri.vote_mk1 v

theorem TriKept.trans (h : TriKept t t') (h' : TriKept t' t'') : TriKept t t'' := by
  intro v hv
  rcases h v hv with rfl | rfl
  · exact h' v hv
  · exact .inr ((h' v (Tri.vote_mk1 v)).elim id id)

theorem TriKept.mk1 (h : TriKept (Tri.mk1 v) t) : t = Tri.mk1 v := (h v (Tri.vote_mk1 v)).elim id id

theorem TriKept.isSome (h : TriKept t t') (hs : t.vote.isSome = true) : t'.vote.isSome = true := by
  obtain ⟨v, hv⟩ := Option.isSome_iff_exists.mp hs
  rw [h.vote hv]
  rfl

end

/-- Every triplicated field of the module is kept so (Table 15-3), and what is being dissolved. -/
structure Voted (m m' : Mod) : Prop where
  diss : ∀ p : Fin 16, m'.pol[p].diss = m.pol[p].diss
  profile : TriKept m.front.profile m'.front.profile
  masks : ∀ p : Fin 16, TriKept m.pol[p].masks m'.pol[p].masks
  keysel : ∀ p : Fin 16, TriKept m.pol[p].sec.keysel m'.pol[p].sec.keysel
  caps : TriKept m.sys.pw.caps m'.sys.pw.caps
  privMap : TriKept m.front.privMap m'.front.privMap
  conf : TriKept m.sys.wd.conf m'.sys.wd.conf
  fences : ∀ f ∈ fenceFields, TriKept (f m.fence) (f m'.fence)

namespace Voted

variable {m m' m'' : Mod}

/-- A step that leaves every triplicated field. -/
theorem of_eq (hfront : m'.front = m.front) (hpol : m'.pol = m.pol) (hcaps : m'.sys.pw = m.sys.pw) (hconf : m'.sys.wd.conf = m.sys.wd.conf)
    (hfence : m'.fence = m.fence) : Voted m m' where
  diss p := by rw [hpol]
  profile := .of_eq (by rw [hfront])
  masks p := .of_eq (by rw [hpol])
  keysel p := .of_eq (by rw [hpol])
  caps := .of_eq (by rw [hcaps])
  privMap := .of_eq (by rw [hfront])
  conf := .of_eq hconf
  fences f _ := .of_eq (by rw [hfence])

theorem refl (m : Mod) : Voted m m := of_eq rfl rfl rfl rfl rfl

theorem trans (h : Voted m m') (h' : Voted m' m'') : Voted m m'' where
  diss p := (h'.diss p).trans (h.diss p)
  profile := h.profile.trans h'.profile
  masks p := (h.masks p).trans (h'.masks p)
  keysel p := (h.keysel p).trans (h'.keysel p)
  caps := h.caps.trans h'.caps
  privMap := h.privMap.trans h'.privMap
  conf := h.conf.trans h'.conf
  fences f hf := (h.fences f hf).trans (h'.fences f hf)

theorem votes (h : Voted m m') (hv : EveryFieldVotes m) : EveryFieldVotes m' := by
  obtain ⟨hprofile, hpol, hcaps, hmap, hconf, hfence⟩ := hv
  exact ⟨h.profile.isSome hprofile, fun p => ⟨(h.masks p).isSome (hpol p).1, (h.keysel p).isSome (hpol p).2⟩, h.caps.isSome hcaps,
    h.privMap.isSome hmap, h.conf.isSome hconf, fun f hf => (h.fences f hf).isSome (hfence f hf)⟩

/-- A change of one polder's fields that keeps both. -/
theorem modPol (p : Fin 16) {f : Polder → Polder} (hmasks : TriKept m.pol[p].masks (f m.pol[p]).masks)
    (hkeysel : TriKept m.pol[p].sec.keysel (f m.pol[p]).sec.keysel) (hdiss : (f m.pol[p]).diss = m.pol[p].diss) : Voted m (modPol m p f) where
  diss q := by
    rcases Decidable.em (q = p) with rfl | hq
    · rw [modPol_pol_self]
      exact hdiss
    · exact congrArg Polder.diss (modPol_pol_other m p q f hq)
  profile := .refl _
  masks q := by
    rcases Decidable.em (q = p) with rfl | hq
    · rw [modPol_pol_self]
      exact hmasks
    · exact .of_eq (congrArg Polder.masks (modPol_pol_other m p q f hq))
  keysel q := by
    rcases Decidable.em (q = p) with rfl | hq
    · rw [modPol_pol_self]
      exact hkeysel
    · exact .of_eq (congrArg (fun q : Polder => q.sec.keysel) (modPol_pol_other m p q f hq))
  caps := .refl _
  privMap := .refl _
  conf := .refl _
  fences _ _ := .refl _

end Voted

-- One field swept.

/-- A correction counted and logged, where the sweep made one. -/
def trNoted (fixed : Bool) (m : Mod) : Mod := if fixed then logFault (minc m Ctr.trCorrected 1) 0x1F 0 fTrVote 1 false 0 else m

theorem voted_trNoted (fixed : Bool) (m : Mod) : Voted m (trNoted fixed m) := by
  unfold trNoted
  split
  · obtain ⟨l, n, hsys⟩ := logFault_sys (minc m Ctr.trCorrected 1) 0x1F 0 fTrVote 1 false 0
    exact .of_eq (logFault_front ..) (logFault_pol ..) (by rw [hsys]; rfl) (by rw [hsys]; rfl) (logFault_fence ..)
  · exact .refl m

/-- A field with a majority is set to it. -/
theorem sweepField_vote {α : Type} [DecidableEq α] {m : Mod} {get : Mod → Tri α} {v : α} (h : (get m).vote = some v)
    (set : Mod → Tri α → Mod) (safe : α → α → α → α) (bad : Mod → Mod) :
    ∃ fixed, sweepField m get set safe bad = trNoted fixed (set m (Tri.mk1 v)) := by
  refine ⟨!(decide ((get m).a = v) && decide ((get m).b = v) && decide ((get m).c = v)), ?_⟩
  unfold sweepField trNoted
  rw [sweepTri_of_vote h]
  rfl

/-- What it does when its write keeps every other field. -/
theorem voted_sweepField {α : Type} [DecidableEq α] {m : Mod} {get : Mod → Tri α} (h : (get m).vote.isSome = true)
    {set : Mod → Tri α → Mod} (hset : ∀ v, (get m).vote = some v → Voted m (set m (Tri.mk1 v))) (safe : α → α → α → α) (bad : Mod → Mod) :
    Voted m (sweepField m get set safe bad) := by
  obtain ⟨v, hv⟩ := Option.isSome_iff_exists.mp h
  obtain ⟨fixed, hs⟩ := sweepField_vote hv set safe bad
  rw [hs]
  exact (hset v hv).trans (voted_trNoted fixed _)

/-- A sweep as it is in any module whose fields have a majority: it keeps them, and repairs its own. -/
structure Sweeps {α : Type} [DecidableEq α] (get : Mod → Tri α) (f : Mod → Mod) : Prop where
  keeps : ∀ m, EveryFieldVotes m → Voted m (f m)
  repairs : ∀ m v, EveryFieldVotes m → (get m).vote = some v → get (f m) = Tri.mk1 v

/-- What it repairs stays so while what follows keeps the fields. -/
theorem Sweeps.lasts {α : Type} [DecidableEq α] {get : Mod → Tri α} {f : Mod → Mod} (hf : Sweeps get f)
    (hget : ∀ m m', Voted m m' → TriKept (get m) (get m')) {m m1 m2 m' : Mod} (hm : EveryFieldVotes m) (hbefore : Voted m m1) (hswept : f m1 = m2)
    (hafter : Voted m2 m') {v : α} (hv : (get m).vote = some v) : get m' = Tri.mk1 v := by
  subst hswept
  have hkept := hget _ _ hafter
  rw [hf.repairs m1 v (hbefore.votes hm) ((hget _ _ hbefore).vote hv)] at hkept
  exact hkept.mk1

/-- A sweep of one field, by what its write keeps and how its field fares under a change that keeps all. -/
theorem sweeps_field {α : Type} [DecidableEq α] {get : Mod → Tri α} {set : Mod → Tri α → Mod} (safe : α → α → α → α) (bad : Mod → Mod)
    (hget : ∀ m m', Voted m m' → TriKept (get m) (get m')) (hvotes : ∀ m, EveryFieldVotes m → (get m).vote.isSome = true)
    (hset : ∀ m v, (get m).vote = some v → Voted m (set m (Tri.mk1 v))) (hown : ∀ m t, get (set m t) = t) :
    Sweeps get (fun m => sweepField m get set safe bad) where
  keeps m hv := voted_sweepField (hvotes m hv) (hset m) safe bad
  repairs m v _ h := by
    obtain ⟨fixed, hs⟩ := sweepField_vote h set safe bad
    have hkept := hget _ _ (voted_trNoted fixed (set m (Tri.mk1 v)))
    rw [hown] at hkept
    rw [hs]
    exact hkept.mk1

-- Sweeps one after another.

section
variable {β : Type} {g : Mod → β → Mod} (hg : ∀ m b, EveryFieldVotes m → Voted m (g m b))
include hg

theorem voted_foldl (l : List β) {m : Mod} (hm : EveryFieldVotes m) : Voted m (l.foldl g m) := by
  induction l generalizing m with
  | nil => exact .refl m
  | cons b l ih => exact (hg m b hm).trans (ih ((hg m b hm).votes hm))

/-- Each of them starts from a module whose fields are kept, and what it leaves is kept to the end. -/
theorem foldl_reaches {l : List β} {b : β} (hb : b ∈ l) {m : Mod} (hm : EveryFieldVotes m) : ∃ m1, Voted m m1 ∧ Voted (g m1 b) (l.foldl g m) := by
  induction l generalizing m with
  | nil => cases hb
  | cons c l ih =>
    have hc := hg m c hm
    rcases List.mem_cons.mp hb with rfl | hb
    · exact ⟨m, .refl m, voted_foldl hg l (hc.votes hm)⟩
    · obtain ⟨m1, h1, h2⟩ := ih hb (hc.votes hm)
      exact ⟨m1, hc.trans h1, h2⟩

end

-- The fields in the order of the sweep.

/-- The profile's sweep: without a majority the module is sealed. -/
def sweepProfile (fz : Fuses) (m : Mod) : Mod :=
  sweepField m (fun m => m.front.profile) (fun m t => { m with front := { m.front with profile := t } }) (fun a _ _ => a)
    (fun m => moduleFault fz m 0x1F 0 fTrVote 0)

/-- The sweep of the caps: without a majority the least of the three holds. -/
def sweepCaps (m : Mod) : Mod :=
  sweepField m (fun m => m.sys.pw.caps) (fun m t => modPw m (fun x => { x with caps := t })) (fun a b c => min a (min b c)) capChanged

/-- The sweep of SEC_PRIV_MAP: without a majority every bit is set. -/
def sweepPrivMap (m : Mod) : Mod :=
  sweepField m (fun m => m.front.privMap) (fun m t => { m with front := { m.front with privMap := t } }) (fun _ _ _ => 0x1FFFF) (fun m => m)

/-- The sweep of WMB_CONF: without a majority it is set. -/
def sweepConf (m : Mod) : Mod :=
  sweepField m (fun m => m.sys.wd.conf) (fun m t => modWd m (fun w => { w with conf := t })) (fun _ _ _ => 1) (fun m => m)

theorem sweeps_profile (fz : Fuses) : Sweeps (fun m => m.front.profile) (sweepProfile fz) :=
  sweeps_field _ _ (fun _ _ h => h.profile) (fun _ h => h.1)
    (fun _ _ h => ⟨fun _ => rfl, .repaired h, fun _ => .refl _, fun _ => .refl _, .refl _, .refl _, .refl _, fun _ _ => .refl _⟩) (fun _ _ => rfl)

theorem sweeps_caps : Sweeps (fun m => m.sys.pw.caps) sweepCaps :=
  sweeps_field _ _ (fun _ _ h => h.caps) (fun _ h => h.2.2.1)
    (fun _ _ h => ⟨fun _ => rfl, .refl _, fun _ => .refl _, fun _ => .refl _, .repaired h, .refl _, .refl _, fun _ _ => .refl _⟩) (fun _ _ => rfl)

theorem sweeps_privMap : Sweeps (fun m => m.front.privMap) sweepPrivMap :=
  sweeps_field _ _ (fun _ _ h => h.privMap) (fun _ h => h.2.2.2.1)
    (fun _ _ h => ⟨fun _ => rfl, .refl _, fun _ => .refl _, fun _ => .refl _, .refl _, .repaired h, .refl _, fun _ _ => .refl _⟩) (fun _ _ => rfl)

theorem sweeps_conf : Sweeps (fun m => m.sys.wd.conf) sweepConf :=
  sweeps_field _ _ (fun _ _ h => h.conf) (fun _ h => h.2.2.2.2.1)
    (fun _ _ h => ⟨fun _ => rfl, .refl _, fun _ => .refl _, fun _ => .refl _, .refl _, .refl _, .repaired h, fun _ _ => .refl _⟩) (fun _ _ => rfl)

theorem sweeps_masks (p : Fin 16) (safe : Masks → Masks → Masks → Masks) (bad : Mod → Mod) : Sweeps (fun m => m.pol[p].masks) (fun m =>
    sweepField m (fun m => m.pol[p].masks) (fun m t => modPol m p (fun q => { q with masks := t })) safe bad) :=
  sweeps_field safe bad (fun _ _ h => h.masks p) (fun _ h => (h.2.1 p).1)
    (fun _ _ h => Voted.modPol p (.repaired h) (.refl _) rfl) (fun _ _ => by rw [modPol_pol_self])

theorem sweeps_keysel (p : Fin 16) (safe : Nat → Nat → Nat → Nat) (bad : Mod → Mod) : Sweeps (fun m => m.pol[p].sec.keysel) (fun m =>
    sweepField m (fun m => m.pol[p].sec.keysel) (fun m t => modPol m p (fun q => { q with sec := { q.sec with keysel := t } })) safe bad) :=
  sweeps_field safe bad (fun _ _ h => h.keysel p) (fun _ h => (h.2.1 p).2)
    (fun _ _ h => Voted.modPol p (.refl _) (.repaired h) rfl) (fun _ _ => by rw [modPol_pol_self])

/-- A polder's two fields. -/
theorem voted_sweepPolder (m : Mod) (p : Fin 16) (hm : EveryFieldVotes m) : Voted m (sweepPolder m p) := by
  have h1 := (sweeps_masks p (fun a _ _ => a) (fun m => fencePolder m p)).keeps m hm
  exact h1.trans ((sweeps_keysel p (fun a _ _ => a) (fun m => fencePolder m p)).keeps _ (h1.votes hm))

theorem sweeps_polder_masks (p : Fin 16) : Sweeps (fun m => m.pol[p].masks) (fun m => sweepPolder m p) where
  keeps m hm := voted_sweepPolder m p hm
  repairs m v hm h := by
    have h1 := (sweeps_masks p (fun a _ _ => a) (fun m => fencePolder m p)).keeps m hm
    have h2 := ((sweeps_keysel p (fun a _ _ => a) (fun m => fencePolder m p)).keeps _ (h1.votes hm)).masks p
    rw [(sweeps_masks p (fun a _ _ => a) (fun m => fencePolder m p)).repairs m v hm h] at h2
    exact h2.mk1

theorem sweeps_polder_keysel (p : Fin 16) : Sweeps (fun m => m.pol[p].sec.keysel) (fun m => sweepPolder m p) where
  keeps m hm := voted_sweepPolder m p hm
  repairs m v hm h := by
    have h1 := (sweeps_masks p (fun a _ _ => a) (fun m => fencePolder m p)).keeps m hm
    exact (sweeps_keysel p (fun a _ _ => a) (fun m => fencePolder m p)).repairs _ v (h1.votes hm) ((h1.keysel p).vote h)

/-- The nine fence masks with how each is written, in the order of their sweep. -/
def fenceSweeps : List ((Fences → Tri Nat) × (Fences → Tri Nat → Fences)) :=
  [(fun f => f.polder, fun f t => { f with polder := t }), (fun f => f.array, fun f t => { f with array := t }),
   (fun f => f.berm, fun f t => { f with berm := t }), (fun f => f.toe, fun f t => { f with toe := t }), (fun f => f.link, fun f t => { f with link := t }),
   (fun f => f.units, fun f t => { f with units := t }), (fun f => f.vdom, fun f t => { f with vdom := t }),
   (fun f => f.phase, fun f t => { f with phase := t }), (fun f => f.sensor, fun f t => { f with sensor := t })]

/-- One of them swept. -/
def sweepFence (m : Mod) (x : (Fences → Tri Nat) × (Fences → Tri Nat → Fences)) : Mod :=
  sweepField m (fun m => x.1 m.fence) (fun m t => modFence m (fun f => x.2 f t)) or3 (fun m => m)

theorem sweepFences_eq (m : Mod) : sweepFences m = fenceSweeps.foldl sweepFence m := by
  simp only [sweepFences, fenceSweeps, List.foldl_cons, List.foldl_nil, sweepFence]

/-- The write of one mask leaves the eight others. -/
theorem fenceSweeps_write : ∀ x ∈ fenceSweeps, ∀ g ∈ fenceFields, ∀ f t, g (x.2 f t) = g f ∨ (g f = x.1 f ∧ g (x.2 f t) = t) := by
  simp [fenceSweeps, fenceFields]

theorem fenceSweeps_own : ∀ x ∈ fenceSweeps, x.1 ∈ fenceFields ∧ ∀ f t, x.1 (x.2 f t) = t := by
  simp [fenceSweeps, fenceFields]

theorem fenceFields_swept : ∀ g ∈ fenceFields, ∃ x ∈ fenceSweeps, x.1 = g := by
  simp [fenceSweeps, fenceFields]

theorem sweeps_fence {x : (Fences → Tri Nat) × (Fences → Tri Nat → Fences)} (hx : x ∈ fenceSweeps) :
    Sweeps (fun m => x.1 m.fence) (fun m => sweepFence m x) := by
  obtain ⟨hmem, hown⟩ := fenceSweeps_own x hx
  refine sweeps_field or3 (fun m => m) (fun _ _ h => h.fences x.1 hmem) (fun _ h => h.2.2.2.2.2 x.1 hmem) (fun m v h => ?_) (fun _ _ => hown _ _)
  refine ⟨fun _ => rfl, .refl _, fun _ => .refl _, fun _ => .refl _, .refl _, .refl _, .refl _, fun g hg => ?_⟩
  rcases fenceSweeps_write x hx g hg m.fence (Tri.mk1 v) with hsame | ⟨hval, hnew⟩
  · exact .of_eq hsame
  · have hrep : TriKept (g m.fence) (Tri.mk1 v) := .repaired (by rw [hval]; exact h)
    rw [← hnew] at hrep
    exact hrep

theorem voted_sweepFence (m : Mod) (x : {x // x ∈ fenceSweeps}) (hm : EveryFieldVotes m) : Voted m (sweepFence m x.1) := (sweeps_fence x.2).keeps m hm

theorem sweepFences_eq_attach (m : Mod) : sweepFences m = fenceSweeps.attach.foldl (fun m x => sweepFence m x.1) m := by
  rw [sweepFences_eq, List.foldl_attach]

theorem voted_sweepFences {m : Mod} (hm : EveryFieldVotes m) : Voted m (sweepFences m) := by
  rw [sweepFences_eq_attach]
  exact voted_foldl voted_sweepFence _ hm

theorem sweepFences_repairs {m : Mod} (hm : EveryFieldVotes m) {f : Fences → Tri Nat} (hf : f ∈ fenceFields) {v : Nat} (hv : (f m.fence).vote = some v) :
    f (sweepFences m).fence = Tri.mk1 v := by
  obtain ⟨x, hx, rfl⟩ := fenceFields_swept f hf
  obtain ⟨m1, hbefore, hafter⟩ := foldl_reaches voted_sweepFence (List.mem_attach fenceSweeps ⟨x, hx⟩) hm
  rw [sweepFences_eq_attach]
  exact (sweeps_fence hx).lasts (fun _ _ h => h.fences x.1 hf) hm hbefore rfl hafter hv

/-- The two fields of every polder. -/
theorem voted_sweepPolders {m : Mod} (hm : EveryFieldVotes m) : Voted m ((List.finRange 16).foldl sweepPolder m) :=
  voted_foldl voted_sweepPolder _ hm

theorem sweepPolders_masks {m : Mod} (hm : EveryFieldVotes m) {p : Fin 16} {v : Masks} (hv : m.pol[p].masks.vote = some v) :
    ((List.finRange 16).foldl sweepPolder m).pol[p].masks = Tri.mk1 v := by
  obtain ⟨m1, hbefore, hafter⟩ := foldl_reaches voted_sweepPolder (List.mem_finRange p) hm
  exact (sweeps_polder_masks p).lasts (fun _ _ h => h.masks p) hm hbefore rfl hafter hv

theorem sweepPolders_keysel {m : Mod} (hm : EveryFieldVotes m) {p : Fin 16} {v : Nat} (hv : m.pol[p].sec.keysel.vote = some v) :
    ((List.finRange 16).foldl sweepPolder m).pol[p].sec.keysel = Tri.mk1 v := by
  obtain ⟨m1, hbefore, hafter⟩ := foldl_reaches voted_sweepPolder (List.mem_finRange p) hm
  exact (sweeps_polder_keysel p).lasts (fun _ _ h => h.keysel p) hm hbefore rfl hafter hv

theorem sweeps_polders_masks (p : Fin 16) : Sweeps (fun m => m.pol[p].masks) (fun m => (List.finRange 16).foldl sweepPolder m) :=
  ⟨fun _ hm => voted_sweepPolders hm, fun _ _ hm hv => sweepPolders_masks hm hv⟩

theorem sweeps_polders_keysel (p : Fin 16) : Sweeps (fun m => m.pol[p].sec.keysel) (fun m => (List.finRange 16).foldl sweepPolder m) :=
  ⟨fun _ hm => voted_sweepPolders hm, fun _ _ hm hv => sweepPolders_keysel hm hv⟩

theorem sweeps_fences {f : Fences → Tri Nat} (hf : f ∈ fenceFields) : Sweeps (fun m => f m.fence) sweepFences :=
  ⟨fun _ hm => voted_sweepFences hm, fun _ _ hm hv => sweepFences_repairs hm hf hv⟩

-- The whole sweep.

/-- Every field that has a majority holds three equal copies of it afterwards. -/
structure Repaired (m m' : Mod) : Prop where
  profile : ∀ v, m.front.profile.vote = some v → m'.front.profile = Tri.mk1 v
  masks : ∀ (p : Fin 16) (v : Masks), m.pol[p].masks.vote = some v → m'.pol[p].masks = Tri.mk1 v
  keysel : ∀ (p : Fin 16) (v : Nat), m.pol[p].sec.keysel.vote = some v → m'.pol[p].sec.keysel = Tri.mk1 v
  caps : ∀ v, m.sys.pw.caps.vote = some v → m'.sys.pw.caps = Tri.mk1 v
  privMap : ∀ v, m.front.privMap.vote = some v → m'.front.privMap = Tri.mk1 v
  conf : ∀ v, m.sys.wd.conf.vote = some v → m'.sys.wd.conf = Tri.mk1 v
  fences : ∀ f ∈ fenceFields, ∀ v, (f m.fence).vote = some v → f m'.fence = Tri.mk1 v

/-- The rows swept one after another. -/
def sweepAll (fz : Fuses) (m : Mod) : Mod :=
  sweepConf (sweepPrivMap (sweepFences (sweepCaps ((List.finRange 16).foldl sweepPolder (sweepProfile fz m)))))

/-- Each row is swept by its own sweep, and what follows keeps it. -/
theorem sweepAll_repairs (fz : Fuses) {m m0 : Mod} (hm : EveryFieldVotes m) (v0 : Voted m m0) : Voted m (sweepAll fz m0) ∧ Repaired m (sweepAll fz m0) := by
  unfold sweepAll
  generalize h1 : sweepProfile fz m0 = m1
  generalize h2 : (List.finRange 16).foldl sweepPolder m1 = m2
  generalize h3 : sweepCaps m2 = m3
  generalize h4 : sweepFences m3 = m4
  generalize h5 : sweepPrivMap m4 = m5
  generalize h6 : sweepConf m5 = m6
  have k1 : Voted m0 m1 := h1 ▸ (sweeps_profile fz).keeps m0 (v0.votes hm)
  have v1 := v0.trans k1
  have k2 : Voted m1 m2 := h2 ▸ voted_sweepPolders (v1.votes hm)
  have v2 := v1.trans k2
  have k3 : Voted m2 m3 := h3 ▸ sweeps_caps.keeps m2 (v2.votes hm)
  have v3 := v2.trans k3
  have k4 : Voted m3 m4 := h4 ▸ voted_sweepFences (v3.votes hm)
  have v4 := v3.trans k4
  have k5 : Voted m4 m5 := h5 ▸ sweeps_privMap.keeps m4 (v4.votes hm)
  have v5 := v4.trans k5
  have k6 : Voted m5 m6 := h6 ▸ sweeps_conf.keeps m5 (v5.votes hm)
  have after4 := k5.trans k6
  have after2 := k3.trans (k4.trans after4)
  refine ⟨v5.trans k6, ?_⟩
  exact {
    profile := fun v hv => (sweeps_profile fz).lasts (fun _ _ h => h.profile) hm v0 h1 (k2.trans after2) hv
    masks := fun p v hv => (sweeps_polders_masks p).lasts (fun _ _ h => h.masks p) hm v1 h2 after2 hv
    keysel := fun p v hv => (sweeps_polders_keysel p).lasts (fun _ _ h => h.keysel p) hm v1 h2 after2 hv
    caps := fun v hv => sweeps_caps.lasts (fun _ _ h => h.caps) hm v2 h3 (k4.trans after4) hv
    fences := fun f hf v hv => (sweeps_fences hf).lasts (fun _ _ h => h.fences f hf) hm v3 h4 after4 hv
    privMap := fun v hv => sweeps_privMap.lasts (fun _ _ h => h.privMap) hm v4 h5 k6 hv
    conf := fun v hv => sweeps_conf.lasts (fun _ _ h => h.conf) hm v5 h6 (.refl m6) hv }

section
variable (fz : Fuses) {m : Mod} {u : Nat}

theorem trSweep_early (h : max m.hvl u < m.sys.wd.trAt + 1000000) : trSweep fz m u = tickHvl m u := if_pos h

/-- Once its millisecond has passed. -/
theorem trSweep_due (h : m.sys.wd.trAt + 1000000 ≤ max m.hvl u) :
    trSweep fz m u = sweepAll fz (modWd (tickHvl m u) (fun w => { w with trAt := (tickHvl m u).hvl })) := if_neg (Nat.not_lt.mpr h)

end

theorem exec_trSweep_working {s : State} (hw : s.m.working = true) (u : Nat) : exec (.trSweep u) s = after s (trSweep s.fuses s.m u) :=
  work_on (f := fun z m => trSweep z m u) hw

/-- Settles O18: each field is repaired by its own sweep, and nothing that follows touches it. -/
theorem sweepRepairsEveryField : Obligations.SweepRepairsEveryField := by
  unfold Obligations.SweepRepairsEveryField
  refine ⟨fun s u hw hnd hdue hvotes => ?due, fun s u hw hearly => ?early⟩
  case due =>
    obtain ⟨hkept, hrep⟩ := sweepAll_repairs s.fuses hvotes
      (m0 := modWd (tickHvl s.m u) (fun w => { w with trAt := (tickHvl s.m u).hvl })) (.of_eq rfl rfl rfl rfl rfl)
    rw [exec_trSweep_working hw, trSweep_due s.fuses hdue]
    generalize sweepAll s.fuses _ = m' at hkept hrep ⊢
    obtain ⟨l, -, hsent⟩ := SentIrqs.settled s.m (m := m') (fun p => (hkept.diss p).trans (hnd p))
    obtain ⟨hprofile, hmasks, hkeysel, hcaps, hmap, hconf, hfences⟩ := hrep
    refine ⟨_, rfl, rfl, rfl, ?_⟩
    simp only [hsent]
    exact ⟨hprofile, hmasks, hkeysel, hcaps, hmap, hconf, hfences⟩
  case early => rw [exec_trSweep_working hw, trSweep_early _ hearly]

end Sys2Proof.Machine

/-! PROOFS. The sideband and the test port (O10): what each instruction and each reading does, block accesses to the warden aperture, and the
value a LINEAR11 word stands for. -/

namespace Sys2Proof.Machine

-- The test port (R479).

section
variable {m : Mod} (hoff : m.sys.pins.off = false) (hup : m.working = true ∨ m.sys.pins.test ≠ 0)
include hoff hup

/-- A module with power that works, or that an instruction has stopped, takes one. -/
theorem testPort_takes : (m.sys.pins.off || (!m.working && m.sys.pins.test == 0)) = false := by
  rcases hup with h | h
  · simp [hoff, h]
  · simp [hoff, h]

theorem testPort_selects (code : Nat) : testPort m code false = modPins m (fun p => { p with test := code }) := by
  simp only [testPort, testPort_takes hoff hup, Bool.false_eq_true, if_false]

theorem testPort_stops (code : Nat) : testPort m code true = stopWork (modPins m (fun p => { p with test := code })) := by
  simp only [testPort, testPort_takes hoff hup, Bool.false_eq_true, if_false, if_true]

theorem idcode_answers : idcode m = emit (modPins m (fun p => { p with test := 2 })) (.reg 0x116005CF) := by
  simp only [idcode, testPort_takes hoff hup, Bool.false_eq_true, if_false, testPort_selects hoff hup]

end

-- Sideband readings (R476, Table 16-7).

theorem statusWord_eq (m : Mod) :
    statusWord m = emit m (.reg (
      (if 10 * (m.sys.pw.conf.tjSoft : Int) ≤ m.sys.pw.tj then 4 else 0) + (if m.sys.wd.vinGood then 0 else 8) +
      (if m.sys.pw.mode = 2 then 2048 else 0))) := by
  have hbit : ∀ (k : Nat) (c : Bool), k * b2n c = if c then k else 0 := by
    intro k c
    cases c <;> simp [b2n]
  simp only [statusWord, hbit, decide_eq_true_eq, beq_iff_eq]
  cases m.sys.wd.vinGood <;> rfl

theorem alertResponse_asserted {m : Mod} (h : alert m = true) : alertResponse m = emit m (.reg (2 * (0x58 + m.sys.pins.smbAddr))) := by
  simp only [alertResponse, h, if_true]

theorem alertResponse_silent {m : Mod} (h : alert m = false) : alertResponse m = m := by
  simp only [alertResponse, h, Bool.false_eq_true, if_false]

-- The warden aperture over SMBus (R477).

section
variable {m : Mod}

theorem wmbOffset_sets {off : Nat} (hoff : off % 4 = 0) (hmax : off ≤ 0xFFC) : wmbOffset m off true = modPins m (fun p => { p with smbOff := off }) := by
  simp only [wmbOffset, hoff, decide_eq_false (Nat.not_lt.mpr hmax), Bool.not_true, bne_self_eq_false, Bool.or_self, Bool.false_eq_true, if_false]

theorem wmbOffset_badPec (off : Nat) : wmbOffset m off false = m := by
  simp only [wmbOffset, Bool.not_false, Bool.true_or, if_true]

theorem wmbWrite_badPec (ws : List Nat) : wmbWrite m ws false = m := by
  simp only [wmbWrite, Bool.not_false, Bool.true_or, if_true]

theorem wmbWrite_word {w : Nat} (h : m.sys.pins.smbOff + 4 ≤ 0x1000) :
    wmbWrite m [w] true = modPins (wmbPut m m.sys.pins.smbOff (w % 2 ^ 32) true) (fun p => { p with smbOff := m.sys.pins.smbOff + 4 }) :=
  if_neg (by simpa using h)

theorem wmbReadRow_word (h : m.sys.pins.smbOff + 4 ≤ 0x1000) :
    wmbReadRow m 1 = modPins (emit m (.reg (wmbRead m m.sys.pins.smbOff .privileged))) (fun p => { p with smbOff := m.sys.pins.smbOff + 4 }) :=
  if_neg (by simpa using h)

theorem wmbWrite_beyond {ws : List Nat} (h : 0x1000 < m.sys.pins.smbOff + 4 * ws.length) (pec : Bool) : wmbWrite m ws pec = m := if_pos (by simp [h])

theorem wmbReadRow_beyond {n : Nat} (h : 0x1000 < m.sys.pins.smbOff + 4 * n) : wmbReadRow m n = m := if_pos (by simp [h])

end

-- LINEAR11 (R477).

/-- A value below 1,024 is held at the smallest exponent i − 16 whose mantissa fits, at most 0. -/
theorem linear11_nat {n d : Nat} (hn : n < 1024 * d) :
    ∃ i ≤ 16, linear11 n d = (i + 16) % 32 * 2048 + n * 2 ^ (16 - i) / d ∧ n * 2 ^ (16 - i) / d < 1024 := by
  have hval : ∀ i ≤ 16, (if i < 16 then n * 2 ^ (16 - i) / d else n / (d * 2 ^ (i - 16))) = n * 2 ^ (16 - i) / d := by
    intro i hi
    rcases Nat.lt_or_eq_of_le hi with h | rfl
    · rw [if_pos h]
    · simp
  have hsixteen : n * 2 ^ (16 - 16) / d ≤ 1023 := by
    rw [Nat.sub_self, Nat.pow_zero, Nat.mul_one]
    exact Nat.le_of_lt_succ (Nat.div_lt_of_lt_mul (by rwa [Nat.mul_comm]))
  have hneg : ¬ ((n : Int) < 0) := by omega
  simp only [linear11, Int.natAbs_natCast, if_neg hneg]
  split
  · next hnone =>
    have hbig := List.find?_range_eq_none.mp hnone 16 (by decide)
    rw [hval 16 (Nat.le_refl 16)] at hbig
    simp only [hsixteen, decide_true, Bool.not_true, Bool.false_eq_true] at hbig
  · next i hi =>
    obtain ⟨hfits, -, hleast⟩ := List.find?_range_eq_some.mp hi
    have hle : i ≤ 16 := by
      refine Nat.le_of_not_lt fun hlt => ?_
      have hbig := hleast 16 hlt
      rw [hval 16 (Nat.le_refl 16)] at hbig
      simp only [hsixteen, decide_true, Bool.not_true, Bool.false_eq_true] at hbig
    rw [hval i hle] at hfits ⊢
    exact ⟨i, hle, rfl, Nat.lt_succ_of_le (of_decide_eq_true hfits)⟩

/-- The value of a word with a mantissa that is not negative and an exponent i − 16 of at most 0. -/
theorem lin11_word {i y : Nat} (hi : i ≤ 16) (hy : y < 1024) : lin11 ((i + 16) % 32 * 2048 + y) = ((y * 2 ^ i : Nat) : Int) := by
  have hmant : ((i + 16) % 32 * 2048 + y) % 2048 = y := by omega
  have hexp : ((i + 16) % 32 * 2048 + y) / 2048 = (i + 16) % 32 := by omega
  have hpow : (if (i + 16) % 32 < 16 then 2 ^ ((i + 16) % 32 + 16) else 2 ^ ((i + 16) % 32 - 16) : Nat) = 2 ^ i := by
    rcases Nat.lt_or_eq_of_le hi with h | rfl
    · rw [if_neg (by omega)]
      congr 1
      omega
    · rfl
  unfold lin11
  rw [hmant, hexp, hpow, if_pos hy]
  push_cast
  rfl

/-- It is never above the value encoded, and short of it by less than one unit. -/
theorem linear11_bounds {n d : Nat} (hd : 0 < d) (hn : n < 1024 * d) :
    linear11 n d < 65536 ∧ lin11 (linear11 n d) * d ≤ (n : Int) * 65536 ∧ ((n : Int) - d) * 65536 < lin11 (linear11 n d) * d := by
  obtain ⟨i, hi, hw, hy⟩ := linear11_nat hn
  have hpow : 2 ^ (16 - i) * 2 ^ i = 65536 := by
    rw [← Nat.pow_add, Nat.sub_add_cancel hi]
  have hmax : 2 ^ i ≤ 65536 := Nat.pow_le_pow_right (by decide) hi
  have hlow : n * 2 ^ (16 - i) / d * d ≤ n * 2 ^ (16 - i) := Nat.div_mul_le_self _ _
  have hhigh : n * 2 ^ (16 - i) < (n * 2 ^ (16 - i) / d + 1) * d := (Nat.div_lt_iff_lt_mul hd).mp (Nat.lt_succ_self _)
  rw [hw, lin11_word hi hy]
  generalize n * 2 ^ (16 - i) / d = y at *
  refine ⟨by omega, ?_, ?_⟩
  · have h : y * 2 ^ i * d ≤ n * 65536 := by
      calc y * 2 ^ i * d = y * d * 2 ^ i := Nat.mul_right_comm y (2 ^ i) d
        _ ≤ n * 2 ^ (16 - i) * 2 ^ i := Nat.mul_le_mul_right _ hlow
        _ = n * 65536 := by rw [Nat.mul_assoc, hpow]
    rw [← Int.natCast_mul]
    generalize y * 2 ^ i * d = a at h ⊢
    omega
  · have h : n * 65536 < y * 2 ^ i * d + d * 65536 := by
      calc n * 65536 = n * 2 ^ (16 - i) * 2 ^ i := by rw [Nat.mul_assoc, hpow]
        _ < (y + 1) * d * 2 ^ i := Nat.mul_lt_mul_of_pos_right hhigh (Nat.two_pow_pos i)
        _ = y * 2 ^ i * d + d * 2 ^ i := by rw [Nat.add_mul, Nat.add_mul, Nat.one_mul, Nat.mul_right_comm y d]
        _ ≤ y * 2 ^ i * d + d * 65536 := Nat.add_le_add_left (Nat.mul_le_mul_left d hmax) _
    rw [← Int.natCast_mul]
    generalize y * 2 ^ i * d = a at h ⊢
    omega

-- What each command does: an instruction in any module, a sideband access in a module at work.

section
variable {s : State} (hw : s.m.working = true)
include hw

theorem exec_statusWord_working : exec .statusWord s = after s (statusWord s.m) := work_on (f := fun _ m => statusWord m) hw

theorem exec_readVin_working : exec .readVin s = after s (readVin s.m) := work_on (f := fun _ m => readVin m) hw

theorem exec_readIin_working : exec .readIin s = after s (readIin s.m) := work_on (f := fun _ m => readIin m) hw

theorem exec_readTemperature1_working : exec .readTemperature1 s = after s (readTemperature s.m) := work_on (f := fun _ m => readTemperature m) hw

theorem exec_readPout_working : exec .readPout s = after s (readPout s.m) := work_on (f := fun _ m => readPout m) hw

theorem exec_alertResponse_working : exec .alertResponse s = after s (alertResponse s.m) := work_on (f := fun _ m => alertResponse m) hw

theorem exec_wmbOffset_working (off : Nat) (pec : Bool) : exec (.wmbOffset off pec) s = after s (wmbOffset s.m off pec) :=
  work_on (f := fun _ m => wmbOffset m off pec) hw

theorem exec_wmbWrite_working (ws : List Nat) (pec : Bool) : exec (.wmbWrite ws pec) s = after s (wmbWrite s.m ws pec) :=
  work_on (f := fun _ m => wmbWrite m ws pec) hw

theorem exec_wmbRead_working (n : Nat) : exec (.wmbRead n) s = after s (wmbReadRow s.m n) := work_on (f := fun _ m => wmbReadRow m n) hw

end

/-- The instructions of the test port, each with its code. -/
theorem testPort_instructions (s : State) (hoff : s.m.sys.pins.off = false) (hup : s.m.working = true ∨ s.m.sys.pins.test ≠ 0) :
    exec .bypass s = withMod s (modPins s.m (fun p => { p with test := 1 })) ∧
    exec .idcode s = withMod s (emit (modPins s.m (fun p => { p with test := 2 })) (.reg 0x116005CF)) ∧
    exec .samplePreload s = withMod s (modPins s.m (fun p => { p with test := 3 })) ∧
    exec .extest s = withMod s (stopWork (modPins s.m (fun p => { p with test := 4 }))) ∧
    exec .extestPulse s = withMod s (modPins s.m (fun p => { p with test := 5 })) ∧
    exec .extestTrain s = withMod s (modPins s.m (fun p => { p with test := 6 })) ∧
    exec .clamp s = withMod s (stopWork (modPins s.m (fun p => { p with test := 7 }))) ∧
    exec .highz s = withMod s (stopWork (modPins s.m (fun p => { p with test := 8 }))) := by
  have hselects := testPort_selects hoff hup
  have hstops := testPort_stops hoff hup
  exact ⟨congrArg (withMod s) (hselects 1), congrArg (withMod s) (idcode_answers hoff hup), congrArg (withMod s) (hselects 3),
    congrArg (withMod s) (hstops 4), congrArg (withMod s) (hselects 5), congrArg (withMod s) (hselects 6), congrArg (withMod s) (hstops 7),
    congrArg (withMod s) (hstops 8)⟩

/-- Settles O10: the instructions, the readings, the block accesses, and LINEAR11 by the exponent it takes. -/
theorem sidebandAndTestPort : Obligations.SidebandAndTestPort := by
  unfold Obligations.SidebandAndTestPort
  refine ⟨testPort_instructions, fun s hw => ⟨?status, exec_readVin_working hw, exec_readIin_working hw, exec_readTemperature1_working hw,
    exec_readPout_working hw, ?asserted, ?silent⟩, ⟨?offset, ?write, ?read, ?beyond, ?badPec⟩, fun n d hd hn => linear11_bounds hd hn⟩
  case status => rw [exec_statusWord_working hw, statusWord_eq]
  case asserted =>
    intro h
    rw [exec_alertResponse_working hw, alertResponse_asserted h]
  case silent =>
    intro h
    rw [exec_alertResponse_working hw, alertResponse_silent h]
  case offset =>
    intro s off hw hoff hmax
    rw [exec_wmbOffset_working hw, wmbOffset_sets hoff hmax]
  case write =>
    intro s w hw h
    rw [exec_wmbWrite_working hw, wmbWrite_word h]
  case read =>
    intro s hw h
    rw [exec_wmbRead_working hw, wmbReadRow_word h]
  case beyond =>
    intro s ws hw h
    rw [exec_wmbWrite_working hw, exec_wmbRead_working hw, wmbWrite_beyond h, wmbReadRow_beyond h]
    exact ⟨rfl, rfl⟩
  case badPec =>
    intro s ws off hw
    rw [exec_wmbWrite_working hw, exec_wmbOffset_working hw, wmbWrite_badPec, wmbOffset_badPec]
    exact ⟨rfl, rfl⟩

end Sys2Proof.Machine

/-! PROOFS. Time (O45) and peer discovery (O46). -/

namespace Sys2Proof.Machine

-- What each command does in a module at work.

section
variable {s : State} (hw : s.m.working = true)
include hw

theorem exec_ptpFrame_working (k : Fin 4) (dom profile : Nat) (off hvlOff : Int) (ms : List (Nat × Int)) (t : Nat) :
    exec (.ptpFrame k dom profile off hvlOff ms t) s = after s (ptpFrame s.m k dom profile off hvlOff ms t) :=
  work_on (f := fun _ m => ptpFrame m k dom profile off hvlOff ms t) hw

theorem exec_timeMessage_working (msg : Block) (delay : Nat) (ms : List (Nat × Int)) (t : Nat) :
    exec (.timeMessage msg delay ms t) s = after s (timeMessage s.m msg delay ms t) :=
  work_on (f := fun _ m => timeMessage m msg delay ms t) hw

theorem exec_lockLoss_working (k t : Nat) : exec (.lockLoss k t) s = after s (lockLoss s.m k t) := work_on (f := fun _ m => lockLoss m k t) hw

theorem exec_announce_working (src : Nat) (x : Announce) (coord : Bool) (t : Nat) :
    exec (.announce src x coord t) s = after s (recvAnnounce s.fuses s.m src x coord t) :=
  work_on (f := fun z m => recvAnnounce z m src x coord t) hw

theorem exec_discoveryBackoff_working (coord : Bool) (t : Nat) : exec (.discoveryBackoff coord t) s = after s (discoveryBackoff s.fuses s.m coord t) :=
  work_on (f := fun z m => discoveryBackoff z m coord t) hw

theorem exec_anchorAckTimeout_working (coord : Bool) (t : Nat) : exec (.anchorAckTimeout coord t) s = after s (anchorAckTimeout s.fuses s.m coord t) :=
  work_on (f := fun z m => anchorAckTimeout z m coord t) hw

theorem exec_anchorTick_working (t : Nat) : exec (.anchorTick t) s = after s (anchorTick s.fuses s.m t) := work_on (f := fun z m => anchorTick z m t) hw

theorem exec_relayForward_working (t : Nat) : exec (.relayForward t) s = after s (relayForward s.fuses s.m t) :=
  work_on (f := fun z m => relayForward z m t) hw

theorem exec_relayAckTimeout_working (t : Nat) : exec (.relayAckTimeout t) s = after s (relayAckTimeout s.fuses s.m t) :=
  work_on (f := fun z m => relayAckTimeout z m t) hw

end

-- Measurements (R460 to R463).

section
variable {m : Mod}

/-- A message of the configured domain and profile on the slave port. -/
theorem ptpFrame_slave {k : Fin 4} {dom prof : Nat} (off hv : Int) (t : Nat) (hsource : m.sys.time.conf % 4 = 1) (hport : m.sys.time.conf / 4 % 4 = k.val)
    (hprof : m.sys.time.conf / 16 % 2 = prof % 2) (hdom : m.sys.time.conf / 256 % 256 = dom % 256) (hup : m.net.ports[k].up = true)
    (hfence : fencedBit m.fence.link k.val = false) :
    ptpFrame m k dom prof off hv [] t = measure (measure (tickHvl m t) (1 + k.val) off) 0 hv := by
  have hmatch : ((tickHvl m t).sys.time.conf % 4 == 1 && (tickHvl m t).sys.time.conf / 4 % 4 == k.val && (tickHvl m t).sys.time.conf / 16 % 2 == prof % 2 &&
      (tickHvl m t).sys.time.conf / 256 % 256 == dom % 256 && (tickHvl m t).net.ports[k].up && !fencedBit (tickHvl m t).fence.link k.val) = true := by
    change (m.sys.time.conf % 4 == 1 && m.sys.time.conf / 4 % 4 == k.val && m.sys.time.conf / 16 % 2 == prof % 2 &&
      m.sys.time.conf / 256 % 256 == dom % 256 && m.net.ports[k].up && !fencedBit m.fence.link k.val) = true
    rw [hsource, hport, hprof, hdom, hup, hfence]
    simp
  simp only [ptpFrame, hmatch, if_true]
  rfl

/-- The first time message, from a locked reference, with SOURCE 2. -/
theorem timeMessage_measures {msg : Block} (delay t : Nat) (hlocked : flg msg 12 0 = true) (hfirst : m.sys.time.lastSeq = none)
    (hsource : m.sys.time.conf % 4 = 2) :
    timeMessage m msg delay [] t = measure (modTime (tickHvl m t) (fun y => { y with lastSeq := some (octets msg 8 4) })) 0
      (((max m.hvl t : Nat) : Int) - ((octets msg 0 8 + delay : Nat) : Int)) := by
  have hlocked' : (timeMsgOf msg).refLocked = true := hlocked
  have hfirst' : (tickHvl m t).sys.time.lastSeq = none := hfirst
  have hsource' : ((tickHvl m t).sys.time.conf % 4 != 2) = false := by
    change (m.sys.time.conf % 4 != 2) = false
    rw [hsource]
    exact bne_self_eq_false _
  simp only [timeMessage, hlocked', hfirst', hsource', Bool.not_true, Bool.or_self, Bool.false_eq_true, if_false]
  rfl

/-- A locked counter that no measurement has reached for a second. -/
theorem lockLoss_due {k t : Nat} (hlocked : (syncOf m k).locked = true) (hdue : (syncOf m k).at_ + 1000000000 ≤ max m.hvl t) :
    lockLoss m k t = holdover (tickHvl m t) k := by
  have hgo : ((syncOf (tickHvl m t) k).locked && decide ((syncOf (tickHvl m t) k).at_ + 1000000000 ≤ (tickHvl m t).hvl)) = true := by
    change ((syncOf m k).locked && decide ((syncOf m k).at_ + 1000000000 ≤ max m.hvl t)) = true
    rw [hlocked, decide_eq_true hdue]
    rfl
  simp only [lockLoss, hgo, if_true]

theorem syncOf_put (m : Mod) (k : Nat) (x : Sync) : syncOf (modTime m (fun t => { t with sync := t.sync.put k x })) k = x := by
  simp [syncOf, modTime]

theorem syncOf_holdover (m : Mod) (k : Nat) :
    syncOf (holdover m k) k = { syncOf m k with locked := false, holdover := (syncOf m k).holdover || (syncOf m k).locked, good := 0 } :=
  syncOf_put m k _

/-- A polder's counter after a measurement: it is never stepped. -/
theorem syncOf_measure {k : Nat} (hk : 5 ≤ k) (off : Int) :
    syncOf (measure m k off) k =
      (let good := if off.natAbs ≤ 50 then (syncOf m k).good + 1 else 0
       let lock := if 200 < off.natAbs then false else (syncOf m k).locked || decide (16 ≤ good)
       { syncOf m k with locked := lock, holdover := (syncOf m k).holdover && !lock, good := good, at_ := m.hvl, offset := off }) := by
  simp only [measure, decide_eq_false (Nat.not_lt.mpr hk), Bool.false_and, Bool.false_eq_true, if_false]
  exact syncOf_put m k _

end

/-- Settles O45: each event where it measures or loses its counter, then a counter after holdover and after a measurement of each size. -/
theorem timeEvents : Obligations.TimeEvents := by
  unfold Obligations.TimeEvents
  refine ⟨?ptp, ?message, ?loss, fun m k => ?held, fun m k off hk => ⟨?far, ?near, ?between⟩⟩
  case ptp =>
    intro s k dom prof t off hv hw hsource hport hprof hdom hup hfence
    rw [exec_ptpFrame_working hw, ptpFrame_slave off hv t hsource hport hprof hdom hup hfence]
  case message =>
    intro s msg delay t hw hlocked hfirst hsource
    rw [exec_timeMessage_working hw, timeMessage_measures delay t hlocked hfirst hsource]
  case loss =>
    intro s k t hw hlocked hdue
    rw [exec_lockLoss_working hw, lockLoss_due hlocked hdue]
  case held =>
    rw [syncOf_holdover]
    exact ⟨rfl, fun h => by simp [h]⟩
  case far =>
    intro h
    rw [syncOf_measure hk]
    simp [h]
  case near =>
    intro h hgood
    rw [syncOf_measure hk]
    have hle : ¬ 200 < off.natAbs := by omega
    simp [h, hgood, hle]
  case between =>
    intro hlo hhi
    rw [syncOf_measure hk]
    simp [Nat.not_le.mpr hlo, Nat.not_lt.mpr hhi]

-- Discovery (R496, R497, Table 17-8).

section
variable {fz : Fuses} {m : Mod} {t : Nat}

/-- An announce of the domain, told to a module that is no anchor, of another module. -/
theorem recvAnnounce_records {src : Nat} {x : Announce} (coord : Bool) (harr : Arrived (tickHvl m t) src 0 0 0 0x0B) (hsrc : 4096 ≤ src)
    (hdom : m.net.board.map Board.domain = some x.domain) (hanchor : anchorIndex m = none) (hserial : x.serial ≠ fz.serial) (hlevel : x.level ≠ 2) :
    recvAnnounce fz m src x coord t = putEntry (unlaned (tickHvl m t) src 0) x := by
  have hdom' : ((unlaned (tickHvl m t) src 0).net.board.map Board.domain != some x.domain) = false := by
    change (m.net.board.map Board.domain != some x.domain) = false
    rw [hdom]
    exact bne_self_eq_false _
  have hanchor' : anchorIndex (unlaned (tickHvl m t) src 0) = none := hanchor
  rw [recvAnnounce, deliver_arrived harr]
  simp only [if_neg (Nat.not_lt.mpr hsrc), hdom', hanchor', beq_eq_false_iff_ne.mpr hserial, beq_eq_false_iff_ne.mpr hlevel, Bool.false_eq_true, if_false]

theorem discoveryBackoff_asks (coord : Bool) {d : Nat} (hdue : m.sys.disc.due = some d) (hd : d ≤ max m.hvl t) (hn : (anchors m).length ≠ 0) :
    discoveryBackoff fz m coord t = askAnchor fz (tickHvl m t) (fz.serial % (anchors m).length) coord := by
  have hdue' : (tickHvl m t).sys.disc.due = some d := hdue
  have hgo : ((anchors (tickHvl m t)).length == 0 || decide ((tickHvl m t).hvl < d)) = false := by
    change ((anchors m).length == 0 || decide (max m.hvl t < d)) = false
    rw [beq_eq_false_iff_ne.mpr hn, decide_eq_false (Nat.not_lt.mpr hd)]
    rfl
  simp only [discoveryBackoff, hdue', hgo, Bool.false_eq_true, if_false]
  rfl

theorem anchorAckTimeout_next (coord : Bool) {a : Nat} (hasked : m.sys.disc.asked = some a) (hdue : a + 100000000 ≤ max m.hvl t)
    (hunacked : unackedTo m (anchorDst m.sys.disc.anchor) = true) :
    anchorAckTimeout fz m coord t = askAnchor fz (modDisc (tickHvl m t) (fun d => { d with tries := d.tries + 1 }))
      ((m.sys.disc.anchor + 1) % max 1 (anchors m).length) coord := by
  have hasked' : (tickHvl m t).sys.disc.asked = some a := hasked
  have hunacked' : unackedTo (tickHvl m t) (anchorDst (tickHvl m t).sys.disc.anchor) = true := hunacked
  have hdue' : ¬ (tickHvl m t).hvl < a + 100000000 := Nat.not_lt.mpr hdue
  simp only [anchorAckTimeout, hasked', hunacked', if_neg hdue', Bool.not_true, Bool.false_eq_true, if_false]
  rfl

/-- An anchor's first tick with nothing new. -/
theorem anchorTick_first {me up : Nat} (hanchor : anchorIndex m = some me) (hup : m.sys.disc.up = some up) (hfirst : m.sys.disc.tickAt = 0)
    (hfresh : m.sys.disc.fresh = []) (hdue : up + 1500000000 ≤ max m.hvl t) :
    anchorTick fz m t = modDisc (tickHvl m t) (fun d => { d with fresh := [], tickAt := up + 1500000000 }) := by
  have hanchor' : anchorIndex (tickHvl m t) = some me := hanchor
  have hup' : (tickHvl m t).sys.disc.up = some up := hup
  have hfirst' : (tickHvl m t).sys.disc.tickAt = 0 := hfirst
  have hnone : ((tickHvl m t).sys.disc.table.filter (fun z => (tickHvl m t).sys.disc.fresh.contains z.serial)).isEmpty = true := by
    change (m.sys.disc.table.filter (fun z => m.sys.disc.fresh.contains z.serial)).isEmpty = true
    rw [hfresh]
    simp
  have hdue' : ¬ (tickHvl m t).hvl < up + 1500000000 := Nat.not_lt.mpr hdue
  simp only [anchorTick, hanchor', hup', hfirst', beq_self_eq_true, if_true, if_neg hdue', hnone]

theorem relayForward_numbered {i : Nat} (hid : m.front.modId = some i) :
    relayForward fz m t =
      ((tickHvl m t).sys.disc.forward.filter (fun e => decide (e.1 ≤ (tickHvl m t).hvl))).foldl (fun m e =>
        (cellMembers fz m (i / 64) e.2).foldl (fun m z => sendAnnounce m (announceDst z) 1 e.2) m)
        (modDisc (tickHvl m t) (fun d => { d with forward := d.forward.filter (fun e => !decide (e.1 ≤ (tickHvl m t).hvl)) })) := by
  have hid' : (tickHvl m t).front.modId = some i := hid
  simp only [relayForward, hid']

/-- A relay's second has passed, and its cell has no relay any more. -/
theorem relayAckTimeout_gone {c t0 : Nat} {sers : List Nat} (hone : m.sys.disc.relays = [(c, sers, t0)]) (hdue : t0 + 1000000000 ≤ max m.hvl t)
    (hnone : relayOf m c = none) : relayAckTimeout fz m t = modDisc (tickHvl m t) (fun d => { d with relays := [] }) := by
  have hone' : (tickHvl m t).sys.disc.relays = [(c, sers, t0)] := hone
  have hdue' : t0 + 1000000000 ≤ (tickHvl m t).hvl := hdue
  have hleft : modDisc (tickHvl m t) (fun d => { d with relays := d.relays.filter (fun e => !decide (e.2.2 + 1000000000 ≤ (tickHvl m t).hvl)) }) =
      modDisc (tickHvl m t) (fun d => { d with relays := [] }) := by
    simp only [modDisc, hone', List.filter_cons, List.filter_nil, decide_eq_true hdue', Bool.not_true, Bool.false_eq_true, if_false]
  have hnone' : relayOf (modDisc (tickHvl m t) (fun d => { d with relays := [] })) c = none := hnone
  simp only [relayAckTimeout, hleft]
  simp only [hone', List.filter_cons, List.filter_nil, decide_eq_true hdue', if_true, List.foldl_cons, List.foldl_nil, hnone']

end

/-- Settles O46: each event where it is due. -/
theorem discoveryEvents : Obligations.DiscoveryEvents := by
  unfold Obligations.DiscoveryEvents
  refine fun s hw => ⟨?announce, ?backoff, ?ack, ?tick, ?forward, ?relay⟩
  case announce =>
    intro src x coord t harr hsrc hdom hanchor hserial hlevel
    rw [exec_announce_working hw, recvAnnounce_records coord harr hsrc hdom hanchor hserial hlevel]
  case backoff =>
    intro coord t d hdue hd hn
    rw [exec_discoveryBackoff_working hw, discoveryBackoff_asks coord hdue hd hn]
  case ack =>
    intro coord t a hasked hdue hunacked
    rw [exec_anchorAckTimeout_working hw, anchorAckTimeout_next coord hasked hdue hunacked]
  case tick =>
    intro t me up hanchor hup hfirst hfresh hdue
    rw [exec_anchorTick_working hw, anchorTick_first hanchor hup hfirst hfresh hdue]
  case forward =>
    intro t i hid
    rw [exec_relayForward_working hw, relayForward_numbered hid]
  case relay =>
    intro t c sers t0 hone hdue hnone
    rw [exec_relayAckTimeout_working hw, relayAckTimeout_gone hone hdue hnone]

end Sys2Proof.Machine

/-! PROOFS. Power, pins and port retries (O8). -/

namespace Sys2Proof.Machine

-- What each command does: on the pins in any module, on VIN and a port in a module at work.

section
variable {m : Mod}

theorem powerFailure_starts (hfailing : m.sys.pins.failing = false) (hoff : m.sys.pins.off = false) :
    powerFailure m = modPins (stopWork (cutOff m)) (fun p => { p with failing := true, hvlGen := 0, bermRate := [] }) := by
  simp only [powerFailure, hfailing, hoff, Bool.or_self, Bool.false_eq_true, if_false]

theorem powerFailDone_ends (hfailing : m.sys.pins.failing = true) :
    powerFailDone m = modPins (flightDone m) (fun p => { p with failing := false, off := true, wp := 0, tripLow := false }) := by
  simp only [powerFailDone, hfailing, Bool.not_true, Bool.false_eq_true, if_false]

theorem moduleReset_stops (hfailing : m.sys.pins.failing = false) (hoff : m.sys.pins.off = false) (hmrst : m.sys.pins.mrst = false) :
    moduleReset m = modPins (stopWork (cutOff m)) (fun p => { p with mrst := true }) := by
  simp only [moduleReset, hfailing, hoff, hmrst, Bool.or_self, Bool.false_eq_true, if_false]

theorem hvlRelease_trains (hrst : m.sys.pins.hvlRst = true) (gen : Nat) : hvlRelease m gen = modPins m (fun p => { p with hvlRst := false, hvlGen := gen }) := by
  simp only [hvlRelease, hrst, Bool.not_true, Bool.false_eq_true, if_false]

theorem vinRange_stays {mv : Nat} (hin : 51000 ≤ mv ∧ mv ≤ 59000) (hgood : m.sys.wd.vinGood = true) :
    vinRange m mv = modPw m (fun x => { x with vin := mv }) := by
  simp only [vinRange, decide_eq_true hin.1, decide_eq_true hin.2, hgood, Bool.and_self, beq_self_eq_true, if_true]

/-- VIN leaves its range. -/
theorem vinRange_lost {mv : Nat} (hout : mv < 51000 ∨ 59000 < mv) (hgood : m.sys.wd.vinGood = true) :
    vinRange m mv = logFault (modWd (modPw m (fun x => { x with vin := mv })) (fun w => { w with vinGood := false })) 0x1F 0 fVinRange 0 true mv := by
  have hbad : (decide (51000 ≤ mv) && decide (mv ≤ 59000)) = false := by
    simp only [Bool.and_eq_false_iff, decide_eq_false_iff_not]
    omega
  simp only [vinRange, hbad, hgood, Bool.false_beq, Bool.not_true, Bool.false_eq_true, if_false]

/-- A port that is down, not fenced, of a READY module with a board record, once its second has passed. -/
theorem portRetry_due {k : Fin 4} {t : Nat} (hready : m.front.ready = true) (hdown : m.net.ports[k].up = false) (hboard : m.net.board.isSome = true)
    (hfence : fencedBit m.fence.link k.val = false) (hdue : m.net.ports[k].retryAt ≤ max m.hvl t) (up : Bool) :
    portRetry m k up t =
      if up then portUp (tickHvl m t) k else modPort (tickHvl m t) k (fun po => { po with retryAt := max m.hvl t + 1000000000 }) := by
  have hgo : (!(tickHvl m t).front.ready || (tickHvl m t).net.ports[k].up || (tickHvl m t).net.board.isNone || fencedBit (tickHvl m t).fence.link k.val ||
      decide ((tickHvl m t).hvl < (tickHvl m t).net.ports[k].retryAt)) = false := by
    change (!m.front.ready || m.net.ports[k].up || m.net.board.isNone || fencedBit m.fence.link k.val ||
      decide (max m.hvl t < m.net.ports[k].retryAt)) = false
    rw [hready, hdown, hfence, decide_eq_false (Nat.not_lt.mpr hdue), Option.isNone_eq_false_iff.mpr hboard]
    rfl
  simp only [portRetry, hgo, Bool.false_eq_true, if_false]
  rfl

end

section
variable {s : State} (hw : s.m.working = true)
include hw

theorem exec_vinRange_working (mv : Nat) : exec (.vinRange mv) s = after s (vinRange s.m mv) := work_on (f := fun _ m => vinRange m mv) hw

theorem exec_portRetry_working (k : Fin 4) (up : Bool) (t : Nat) : exec (.portRetry k up t) s = after s (portRetry s.m k up t) :=
  work_on (f := fun _ m => portRetry m k up t) hw

end

/-- Settles O8: each pin and each supply event in the state that it acts on, then a port's retry by its outcome. -/
theorem powerAndPinCommands : Obligations.PowerAndPinCommands := by
  unfold Obligations.PowerAndPinCommands
  refine ⟨fun s => ⟨?failure, ?done, ?reset, rfl, ?release, ?vinStays, ?vinLost⟩, fun s k t hw hready hdown hboard hfence hdue => ?retry⟩
  case failure => exact fun hfailing hoff => congrArg (withMod s) (powerFailure_starts hfailing hoff)
  case done => exact fun hfailing => congrArg (withMod s) (powerFailDone_ends hfailing)
  case reset => exact fun hfailing hoff hmrst => congrArg (withMod s) (moduleReset_stops hfailing hoff hmrst)
  case release => exact fun gen hrst => congrArg (withMod s) (hvlRelease_trains hrst gen)
  case vinStays =>
    intro mv hw hin hgood
    rw [exec_vinRange_working hw, vinRange_stays hin hgood]
  case vinLost =>
    intro mv hw hout hgood
    rw [exec_vinRange_working hw, vinRange_lost hout hgood]
  case retry =>
    rw [exec_portRetry_working hw, exec_portRetry_working hw, portRetry_due hready hdown hboard hfence hdue, portRetry_due hready hdown hboard hfence hdue]
    exact ⟨rfl, rfl⟩

end Sys2Proof.Machine

/-! PROOFS. Profiles and polders (O26): PROFILE_SELECT, POLDER_COMPOSE, POLDER_DISSOLVE and POLDER_RESET. -/

namespace Sys2Proof.Machine

-- What a mailbox's start leaves of a polder: everything but the mailbox.

theorem mbxBegun_pol {α : Type} (f : Polder → α) (hf : ∀ q x, f { q with mbx := x } = f q) (m : Mod) (b : Box) (p : Fin 16) :
    f (mbxBegun m b).pol[p] = f m.pol[p] := by
  cases b with
  | mgmt => rfl
  | pol q =>
    rcases Decidable.em (p = q) with rfl | hp
    · exact (congrArg f (modPol_pol_self m p (fun q => { q with mbx := { q.mbx with started := true } }))).trans (hf _ _)
    · exact congrArg f (modPol_pol_other m q p (fun q => { q with mbx := { q.mbx with started := true } }) hp)

theorem polderBusy_mbxBegun (m : Mod) (b : Box) (p : Fin 16) : polderBusy (mbxBegun m b) p = polderBusy m p :=
  mbxBegun_pol (fun q => q.rst.isSome || q.diss.isSome) (fun _ _ => rfl) m b p

theorem composed_mbxBegun (m : Mod) (b : Box) (p : Fin 16) : (mbxBegun m b).pol[p].composed = m.pol[p].composed :=
  mbxBegun_pol Polder.composed (fun _ _ => rfl) m b p

-- What each command does in a module at work.

section
variable {s : State} (hw : s.m.working = true) (b : Box)
include hw

theorem exec_profileSelect_working : exec (.profileSelect b) s = after s (profileSelect s.fuses s.m b) :=
  work_on (f := fun z m => profileSelect z m b) hw

theorem exec_polderCompose_working (tenant : Nat) : exec (.polderCompose b tenant) s = after s (polderCompose s.fuses s.m b tenant) :=
  work_on (f := fun z m => polderCompose z m b tenant) hw

theorem exec_polderDissolve_working : exec (.polderDissolve b) s = after s (polderDissolve s.m b) := work_on (f := fun _ m => polderDissolve m b) hw

theorem exec_polderReset_working (step : Nat) (good : List (Nat × Nat)) : exec (.polderReset b step good) s = after s (polderReset s.m b step good) :=
  work_on (f := fun _ m => polderReset m b step good) hw

end

-- Each row of an accepted command.

section
variable {s : State} {b : Box}

/-- With nothing composed, dissolving or saved, the defaults of the profile are composed (R493). -/
theorem profileSelect_defaults (ha : Accepts s b 0x80)
    (hnone : ∀ p : Fin 16, (mbxBegun s.m b).pol[p].composed = false ∧ (mbxBegun s.m b).pol[p].diss = none) (hsaved : s.m.sys.boot.saved = none) :
    profileSelect s.fuses s.m b =
      mbxSaved (composeDefaults s.fuses
        { dropSaved (mbxBegun s.m b) with front := { (dropSaved (mbxBegun s.m b)).front with profile := Tri.mk1 (fld (argOf s b) 0 0 2) } }
        (fld (argOf s b) 0 0 2)) b (at8 16 (fld (argOf s b) 0 0 2)) := by
  have hfree : (List.range 16).any (fun i => (mbxBegun s.m b).pol[pn i].composed || (mbxBegun s.m b).pol[pn i].diss.isSome) = false := by
    rw [List.any_eq_false]
    intro i _
    obtain ⟨hcomposed, hdiss⟩ := hnone (pn i)
    rw [hcomposed, hdiss]
    decide
  have hnew : ((mbxBegun s.m b).sys.boot.saved.map Saved.profile == some (fld (argOf s b) 0 0 2)) = false := by
    rw [mbxBegun_sys, hsaved]
    rfl
  rw [profileSelect, accepts_runs ha]
  simp only [hfree, hnew, Bool.false_eq_true, if_false]

theorem polderCompose_composes {tenant : Nat} (ha : Accepts s b 0x81)
    (hgood : composeBad s.fuses (mbxBegun s.m b) (pn (fld (argOf s b) 0 0 4)) (argOf s b) = false) :
    polderCompose s.fuses s.m b tenant =
      mbxSaved (composeWith (mbxBegun s.m b) (pn (fld (argOf s b) 0 0 4)) (argOf s b) (if flg (argOf s b) 0 4 then tenant else 0)) b 0 := by
  rw [polderCompose, accepts_runs ha]
  simp only [hgood, Bool.false_eq_true, if_false]

/-- A composed polder that is not busy settles; it is freed at once, or waits for its last lease (R495). -/
theorem polderDissolve_settles (ha : Accepts s b 0x82) (hbusy : polderBusy (mbxBegun s.m b) (pn (fld (argOf s b) 0 0 4)) = false)
    (hcomposed : (mbxBegun s.m b).pol[pn (fld (argOf s b) 0 0 4)].composed = true) :
    polderDissolve s.m b =
      (let p := pn (fld (argOf s b) 0 0 4)
       let m1 := settleSessions (stopPolder (mbxBegun s.m b) p stAborted) p
       if leasesLeft m1 p then modPol m1 p (fun q => { q with resetting := true, diss := some b }) else mbxDone (dissolveEnd m1 p) b stOk 0) := by
  rw [polderDissolve, accepts_runs ha]
  simp only [hbusy, hcomposed, Bool.not_true, Bool.false_eq_true, if_false]

end

-- POLDER_RESET (R500, Table 17-10).

/-- The step that a row is in recorded in the polder's reset, where one runs. -/
def rstAt (m : Mod) (p : Fin 16) (k : Nat) : Mod := modPol m p (fun q => { q with rst := q.rst.map (fun r => { r with step := k }) })

/-- A row's steps: those after the last one reached, up to the one it names, the first at least. -/
def resetSteps (b : Box) (p : Fin 16) (good : List (Nat × Nat)) (step : Nat) (m : Mod) (last : Nat) : Mod :=
  ((List.range 6).map (fun i => i + 1)).foldl (fun m k => if last < k && k ≤ max 1 step then resetStep b p good (rstAt m p k) k else m) m

theorem resetSteps_first (b : Box) (p : Fin 16) (good : List (Nat × Nat)) (m : Mod) : resetSteps b p good 1 m 0 = resetStep b p good (rstAt m p 1) 1 := rfl

theorem resetSteps_last (b : Box) (p : Fin 16) (good : List (Nat × Nat)) (m : Mod) : resetSteps b p good 6 m 5 = resetStep b p good (rstAt m p 6) 6 := rfl

section
variable {s : State} {b : Box}

/-- The first row of a composed polder that is not busy. -/
theorem polderReset_starts (ha : Accepts s b 0x83) (hbusy : polderBusy s.m (pn (fld (argOf s b) 0 0 4)) = false)
    (hcomposed : s.m.pol[pn (fld (argOf s b) 0 0 4)].composed = true) (step : Nat) (good : List (Nat × Nat)) :
    polderReset s.m b step good = resetSteps b (pn (fld (argOf s b) 0 0 4)) good step (mbxBegun s.m b) 0 := by
  have hrst : s.m.pol[pn (fld (getMbx s.m b).runArg 0 0 4)].rst = none :=
    Option.isNone_iff_eq_none.mp (Option.isSome_eq_false_iff.mp (Bool.or_eq_false_iff.mp hbusy).1)
  have hbusy' := (polderBusy_mbxBegun s.m b (pn (fld (argOf s b) 0 0 4))).trans hbusy
  have hcomposed' := (composed_mbxBegun s.m b (pn (fld (argOf s b) 0 0 4))).trans hcomposed
  simp only [polderReset, hrst]
  rw [accepts_runs ha]
  simp only [hbusy', hcomposed', Bool.not_true, Bool.false_eq_true, if_false]
  rfl

/-- A later row of the same mailbox goes on. -/
theorem polderReset_continues {m : Mod} {r : RstRun} (hrst : m.pol[pn (fld (getMbx m b).runArg 0 0 4)].rst = some r) (hbox : r.box = b)
    (hbusy : (getMbx m b).busy = true) (hstarted : (getMbx m b).started = true) (hop : (getMbx m b).runCmd % 256 = 0x83) (step : Nat)
    (good : List (Nat × Nat)) : polderReset m b step good = resetSteps b (pn (fld (getMbx m b).runArg 0 0 4)) good step m r.step := by
  simp only [polderReset, hrst, hbox, hbusy, hstarted, hop, beq_self_eq_true, Bool.and_self, if_true]
  rfl

end

/-- Settles O26: each command by its row, and a reset's first and last step. -/
theorem profileAndPolderCommands : Obligations.ProfileAndPolderCommands := by
  unfold Obligations.ProfileAndPolderCommands
  refine ⟨fun s b => ⟨?select, ?compose, ?freed, ?waits⟩, fun s b good => ⟨?first, ?last⟩⟩
  case select =>
    intro ha hnone hsaved
    rw [exec_profileSelect_working ha.1, profileSelect_defaults ha hnone hsaved]
  case compose =>
    intro tenant ha hgood
    rw [exec_polderCompose_working ha.1, polderCompose_composes ha hgood]
  case freed =>
    intro ha hbusy hcomposed hleases
    rw [exec_polderDissolve_working ha.1, polderDissolve_settles ha hbusy hcomposed]
    exact congrArg (after s) (if_neg (Bool.eq_false_iff.mp hleases))
  case waits =>
    intro ha hbusy hcomposed hleases
    rw [exec_polderDissolve_working ha.1, polderDissolve_settles ha hbusy hcomposed]
    exact congrArg (after s) (if_pos hleases)
  case first =>
    intro ha hbusy hcomposed
    rw [exec_polderReset_working ha.1, polderReset_starts ha hbusy hcomposed, resetSteps_first]
    rfl
  case last =>
    intro r hw hrst hbox hstep hbusy hstarted hop
    rw [exec_polderReset_working hw, polderReset_continues hrst hbox hbusy hstarted hop, hstep, resetSteps_last]
    rfl

end Sys2Proof.Machine

/-! PROOFS. Cold starts (O9): what a release of pages and vector work leaves, what a reset leaves composed, and the rows of a start. -/

namespace Sys2Proof.Machine

-- Pages and vector work released: which polders are composed, and the units behind the front end, stay as they were.

/-- A step that releases pages or vector work, and no more than that of a polder or of the module. -/
structure Releases (m m' : Mod) : Prop where
  sys : m'.sys = m.sys
  composed : ∀ p : Fin 16, m'.pol[p].composed = m.pol[p].composed

namespace Releases

variable {m m' m'' : Mod}

theorem refl (m : Mod) : Releases m m := ⟨rfl, fun _ => rfl⟩

theorem trans (h : Releases m m') (h' : Releases m' m'') : Releases m m'' :=
  ⟨h'.sys.trans h.sys, fun p => (h'.composed p).trans (h.composed p)⟩

theorem ite {m₁ m₂ : Mod} {c : Prop} [Decidable c] (h1 : Releases m m₁) (h2 : Releases m m₂) : Releases m (if c then m₁ else m₂) := by
  split
  · exact h1
  · exact h2

theorem foldl {β : Type} {f : Mod → β → Mod} (h : ∀ m b, Releases m (f m b)) (l : List β) (m : Mod) : Releases m (l.foldl f m) := by
  induction l generalizing m with
  | nil => exact refl m
  | cons b l ih => exact (h m b).trans (ih (f m b))

theorem modPol (m : Mod) (p : Fin 16) {f : Polder → Polder} (hf : (f m.pol[p]).composed = m.pol[p].composed) : Releases m (modPol m p f) := by
  refine ⟨rfl, fun q => ?_⟩
  rcases Decidable.em (q = p) with rfl | hq
  · rw [modPol_pol_self, hf]
  · exact congrArg Polder.composed (modPol_pol_other m p q f hq)

theorem dropFrame (m : Mod) (t : Tier) (f : Nat) : Releases m (dropFrame m t f) := ite ⟨rfl, fun _ => rfl⟩ (refl m)

theorem unmapPage (m : Mod) (p : Fin 16) (n : Nat) : Releases m (unmapPage m p n) := by
  unfold Machine.unmapPage
  split
  · exact refl m
  · exact (ite (refl m) (dropFrame m _ _)).trans ((dropFrame _ _ _).trans ((modPol _ p (by rfl)).trans (modPol _ p (by rfl))))

theorem releasePages (m : Mod) (p : Fin 16) (ns : List Nat) : Releases m (releasePages m p ns) := foldl (fun m n => unmapPage m p n) ns m

theorem modIdx (m : Mod) (p : Fin 16) (i : Nat) (f : VIndex → VIndex) : Releases m (modIdx m p i f) := by
  unfold Machine.modIdx modVec
  exact modPol m p rfl

theorem modList (m : Mod) (p : Fin 16) (i l : Nat) (f : VList → VList) : Releases m (modList m p i l f) := modIdx m p i _

theorem vecSweep (m : Mod) (p : Fin 16) (i : Nat) : Releases m (vecSweep m p i) := by
  unfold Machine.vecSweep
  split
  · exact refl m
  · exact (releasePages m p _).trans (modIdx _ p i _)

theorem vecAbort (m : Mod) (p : Fin 16) : Releases m (vecAbort m p) := by
  unfold Machine.vecAbort
  refine (modPol m p (by rfl)).trans (foldl (fun m e => ?_) _ _)
  refine (foldl (fun m l => ?_) e.2.lists m).trans ((modIdx _ p _ _).trans (vecSweep _ p _))
  exact (releasePages m p _).trans ((modList _ p _ _ _).trans (modIdx _ p _ _))

theorem logTrim (m : Mod) (p : Fin 16) (i : Nat) (gone : VLog → Bool) : Releases m (logTrim m p i gone) := by
  unfold Machine.logTrim
  dsimp only
  split
  · exact modIdx m p i _
  · exact (modIdx m p i _).trans (releasePages _ p _)

theorem shrinkStore (m : Mod) (p : Fin 16) (t : Tier) : Releases m (shrinkStore m p t) := releasePages m p _

theorem surplusGone (m : Mod) (p : Fin 16) : Releases m (surplusGone m p) :=
  ((shrinkStore m p .toe).trans (shrinkStore _ p .berm)).trans (foldl (fun m _ => logTrim m p _ _) _ _)

end Releases

-- No polder is composed after a reset (Table 17-9).

/-- A fold whose step ends the composition of its own element, and starts none, leaves none of its list composed. -/
theorem foldl_not_composed {g : Mod → Fin 16 → Mod} (hown : ∀ m p, (g m p).pol[p].composed = false)
    (hother : ∀ m p (q : Fin 16), m.pol[q].composed = false → (g m p).pol[q].composed = false) {l : List (Fin 16)} {q : Fin 16} {m : Mod}
    (h : q ∈ l ∨ m.pol[q].composed = false) : (l.foldl g m).pol[q].composed = false := by
  induction l generalizing m with
  | nil => exact h.resolve_left (by simp)
  | cons p l ih =>
    refine ih ?_
    rcases h with h | h
    · rcases List.mem_cons.mp h with rfl | hl
      · exact .inr (hown m q)
      · exact .inl hl
    · exact .inr (hother m p q h)

/-- What a reset makes of one polder. -/
theorem polder_reset_not_composed (m : Mod) (p q : Fin 16) (ns : List Nat) (units : SMap ToeUnit) (cold : Bool)
    (h : q = p ∨ m.pol[q].composed = false) :
    (surplusGone (modPol (releasePages (vecAbort m p) p ns) p (fun q => polderKept units q cold)) p).pol[q].composed = false := by
  rw [(Releases.surplusGone _ p).composed q]
  by_cases hq : q = p
  · subst hq
    rw [modPol_pol_self]
    rfl
  · refine (congrArg Polder.composed (modPol_pol_other _ p q _ hq)).trans ?_
    exact (((Releases.vecAbort m p).trans (Releases.releasePages _ p ns)).composed q).trans (h.resolve_left hq)

theorem poldersKept_not_composed (m : Mod) (cold : Bool) (q : Fin 16) : (poldersKept m cold).pol[q].composed = false := by
  unfold poldersKept
  exact foldl_not_composed (fun m p => polder_reset_not_composed m p p _ _ cold (.inl rfl))
    (fun m p q h => polder_reset_not_composed m p q _ _ cold (.inr h)) (.inl (List.mem_finRange q))

theorem resetMod_not_composed (m : Mod) (cold hold : Bool) (q : Fin 16) : (resetMod m cold hold).pol[q].composed = false := by
  have hpol : (resetMod m cold hold).pol = (poldersKept (dropActivation m) cold).pol := by
    dsimp only [resetMod, unitsKept]
  rw [hpol]
  exact poldersKept_not_composed (dropActivation m) cold q

-- The rows of a start (R481, R482, Table 17-1).

section
variable {b : BootIn}

/-- A stage waits for the one before it. -/
theorem startStage_waits {cold : Bool} {x : Fuses × Mod} {n : Nat} (h : x.2.front.stage + 1 ≠ n) : startStage b cold x n = x := by
  simp only [startStage, bne_iff_ne, ne_eq, h, not_false_eq_true, if_true]

theorem startStage_last (cold : Bool) (fz : Fuses) {m : Mod} (h : m.front.stage = 13) :
    startStage b cold (fz, m) 14 = (fz, { m with front := { m.front with stage := 14, ready := true } }) := by
  simp only [startStage, h, bne_self_eq_false, Bool.false_eq_true, if_false]

/-- Stage 3 of a cold start takes the profile and the address of the straps. -/
theorem startStage_straps (fz : Fuses) {m : Mod} (h : m.front.stage = 2) :
    startStage b true (fz, m) 3 =
      (fz, modPins { m with front := { m.front with profile := Tri.mk1 (b.straps % 4), stage := 3 } } (fun p => { p with smbAddr := b.smbAddr % 8 })) := by
  simp only [startStage, h, bne_self_eq_false, Bool.false_eq_true, if_false]
  rfl

/-- The first row runs stage 3 alone where it is asked for no more. -/
theorem runStages_first (cold : Bool) (x : Fuses × Mod) : runStages b cold 3 x = startStage b cold x 3 := rfl

/-- A row that goes on from stage 13 runs stage 14. -/
theorem runStages_last (cold : Bool) (fz : Fuses) {m : Mod} (h : m.front.stage = 13) {n : Nat} (hn : 14 ≤ n) :
    runStages b cold n (fz, m) = (fz, { m with front := { m.front with stage := 14, ready := true } }) := by
  have hstages : (List.range 12).map (fun i => i + 3) = (List.range 11).map (fun i => i + 3) ++ [14] := rfl
  have hbefore : ∀ l : List Nat, (∀ k ∈ l, k < 14) →
      l.foldl (fun s k => if k ≤ max 3 n then startStage b cold s k else s) (fz, m) = (fz, m) := by
    intro l
    induction l with
    | nil => exact fun _ => rfl
    | cons k l ih =>
      intro hl
      have hk := hl k (List.mem_cons_self ..)
      have hwait : (if k ≤ max 3 n then startStage b cold (fz, m) k else (fz, m)) = (fz, m) := by
        rw [startStage_waits (by rw [h]; omega), ite_self]
      rw [List.foldl_cons, hwait]
      exact ih (fun j hj => hl j (List.mem_cons_of_mem k hj))
  have hlist : ∀ k ∈ (List.range 11).map (fun i => i + 3), k < 14 := by decide
  rw [runStages, hstages, List.foldl_append, hbefore _ hlist]
  simp only [List.foldl_cons, List.foldl_nil, if_pos (Nat.le_trans hn (Nat.le_max_right 3 n)), startStage_last cold fz h]

section
variable (fz : Fuses) {m : Mod} (hfailing : m.sys.pins.failing = false) (hmrst : m.sys.pins.mrst = false)
include hfailing hmrst

/-- The first row of a start without failed units clears the module and ends stage 3. -/
theorem coldStart_first (hw : m.working = false) (hfails : b.fails = []) :
    coldStart fz m b 3 =
      (fz, modPins { resetMod m true false with front := { (resetMod m true false).front with profile := Tri.mk1 (b.straps % 4), stage := 3 } }
        (fun p => { p with smbAddr := b.smbAddr % 8 })) := by
  have hidle : starting m = false := by simp only [starting, hw, Bool.false_and]
  simp only [coldStart, hfailing, hmrst, hidle, hw, hfails, Bool.or_self, Bool.false_eq_true, if_false, List.filter_nil, List.foldl_nil,
    runStages_first]
  exact startStage_straps fz rfl

/-- A row of a start that has reached stage 13 ends it. -/
theorem coldStart_last (hstarting : starting m = true) (hstage : m.front.stage = 13) {n : Nat} (hn : 14 ≤ n) :
    coldStart fz m b n = (fz, resetDone { m with front := { m.front with stage := 14, ready := true } }) := by
  simp only [coldStart, hfailing, hmrst, hstarting, Bool.or_self, Bool.false_eq_true, if_false, if_true, runStages_last true fz hstage hn]

end

/-- MRST_L returns high on a module with power: a cold start. -/
theorem mrstRelease_starts (fz : Fuses) {m : Mod} (hmrst : m.sys.pins.mrst = true) (hoff : m.sys.pins.off = false) (hfailing : m.sys.pins.failing = false)
    (n : Nat) : mrstRelease fz m b n = coldStart fz (modPins m (fun p => { p with mrst := false })) b n := by
  simp only [mrstRelease, hmrst, hoff, hfailing, Bool.not_true, Bool.or_self, Bool.false_eq_true, if_false]

end

/-- A start leaves the fuses and the module that its row leaves. -/
theorem exec_coldStart (b : BootIn) (n : Nat) (s : State) :
    exec (.coldStart b n) s = .next { s with fuses := (coldStart s.fuses s.m b n).1, m := (coldStart s.fuses s.m b n).2 } := rfl

theorem exec_mrstLRelease (b : BootIn) (n : Nat) (s : State) :
    exec (.mrstLRelease b n) s = .next { s with fuses := (mrstRelease s.fuses s.m b n).1, m := (mrstRelease s.fuses s.m b n).2 } := rfl

/-- Settles O9: the first row, the last row, and the start that MRST_L begins. -/
theorem coldStartRunsTheStages : Obligations.ColdStartRunsTheStages := by
  unfold Obligations.ColdStartRunsTheStages
  refine ⟨fun s b hw hfailing hmrst hfails => ?first, fun s b n hstarting hstage hfailing hmrst hn => ?last, fun s b n hmrst hoff hfailing => ?release⟩
  case first =>
    rw [exec_coldStart, coldStart_first s.fuses hfailing hmrst hw hfails]
    have hpol := resetMod_not_composed s.m true false
    have hwork : (resetMod s.m true false).working = true := rfl
    have hready : (resetMod s.m true false).front.ready = false := rfl
    have hmbx : (resetMod s.m true false).front.mbxReady = false := rfl
    have hhvl : (resetMod s.m true false).hvl = 0 := rfl
    have hctr : (resetMod s.m true false).ctr = [] := rfl
    generalize resetMod s.m true false = r at *
    exact ⟨_, rfl, rfl, rfl, hwork, rfl, hready, hmbx, rfl, rfl, hhvl, hctr, hpol⟩
  case last =>
    rw [exec_coldStart, coldStart_last s.fuses hfailing hmrst hstarting hstage hn]
    rfl
  case release =>
    rw [exec_mrstLRelease, mrstRelease_starts s.fuses hmrst hoff hfailing]
    exact ⟨rfl, _, rfl⟩

end Sys2Proof.Machine

/-! PROOFS. Module faults and the warden's own actions (O41): a sealing keeps the trip state and the pins, so that the end of THERM_TRIP stands. -/

namespace Sys2Proof.Machine

-- What keeps the trip state and the pins: sealing, and what follows every effect.

/-- A step that leaves THERM_TRIP and the pins. -/
structure TripKept (m m' : Mod) : Prop where
  trip : m'.sys.wd.thermTrip = m.sys.wd.thermTrip
  pins : m'.sys.pins = m.sys.pins

namespace TripKept

variable {m m' m'' : Mod}

theorem of_sys (h : m'.sys = m.sys) : TripKept m m' := ⟨by rw [h], by rw [h]⟩

theorem refl (m : Mod) : TripKept m m := of_sys rfl

theorem trans (h : TripKept m m') (h' : TripKept m' m'') : TripKept m m'' := ⟨h'.trip.trans h.trip, h'.pins.trans h.pins⟩

theorem ite {m₁ m₂ : Mod} {c : Prop} [Decidable c] (h1 : TripKept m m₁) (h2 : TripKept m m₂) : TripKept m (if c then m₁ else m₂) := by
  split
  · exact h1
  · exact h2

theorem foldl {β : Type} {f : Mod → β → Mod} (h : ∀ m b, TripKept m (f m b)) (l : List β) (m : Mod) : TripKept m (l.foldl f m) := by
  induction l generalizing m with
  | nil => exact refl m
  | cons b l ih => exact (h m b).trans (ih (f m b))

theorem of_releases (h : Releases m m') : TripKept m m' := of_sys h.sys

theorem modPol (m : Mod) (p : Fin 16) (f : Polder → Polder) : TripKept m (modPol m p f) := of_sys rfl

theorem modFence (m : Mod) (f : Fences → Fences) : TripKept m (modFence m f) := of_sys rfl

theorem modFw (m : Mod) (f : FwState → FwState) : TripKept m (modFw m f) := ⟨rfl, rfl⟩

theorem modBoot (m : Mod) (f : BootState → BootState) : TripKept m (modBoot m f) := ⟨rfl, rfl⟩

theorem minc (m : Mod) (k n : Nat) : TripKept m (minc m k n) := of_sys rfl

theorem modWd (m : Mod) {f : Warden → Warden} (hf : (f m.sys.wd).thermTrip = m.sys.wd.thermTrip) : TripKept m (modWd m f) := ⟨hf, rfl⟩

theorem complete (m : Mod) (p : Fin 16) (tag : Nat) (r : Res) : TripKept m (complete m p tag r) := of_sys (complete_sys ..)

theorem completeAll (m : Mod) (p : Fin 16) (tags : List Nat) (r : Res) : TripKept m (completeAll m p tags r) := foldl (fun m t => complete m p t r) tags m

theorem mbxDone (m : Mod) (b : Box) (st : Nat) (res : Block) : TripKept m (mbxDone m b st res) := of_sys (mbxDone_sys ..)

theorem mgmtIrq (m : Mod) (n : Nat) : TripKept m (mgmtIrq m n) := of_sys (mgmtIrq_sys m n)

theorem logFault (m : Mod) (ty idx fault action : Nat) (env : Bool) (detail : Block) : TripKept m (logFault m ty idx fault action env detail) := by
  obtain ⟨l, n, hsys⟩ := logFault_sys m ty idx fault action env detail
  exact ⟨by rw [hsys], by rw [hsys]⟩

-- A polder stopped and fenced (R389).

theorem finishReq (m : Mod) (p : Fin 16) (r : Req) (status endc stop : Nat) : TripKept m (finishReq m p r status endc stop) := by
  unfold Machine.finishReq
  extract_lets ep m1 m2 m3 st m4 fwd
  have h1 : TripKept m m1 := ite (of_sys ((polIrq_sys ..).trans (pincIf_sys ..))) (refl m)
  have h2 : TripKept m1 m2 := of_sys rfl
  have h3 : TripKept m2 m3 := of_sys (pincIf_sys ..)
  have h4 : TripKept m3 m4 := modPol m3 p _
  exact (h1.trans h2).trans ((h3.trans h4).trans (complete m4 p _ _))

theorem stopPolder (m : Mod) (p : Fin 16) (st : Nat) : TripKept m (stopPolder m p st) := by
  unfold Machine.stopPolder
  extract_lets m0 rs m1 m2 m3 m4
  have h0 : TripKept m m0 := modPol m p _
  have h1 : TripKept m0 m1 := foldl (fun m r => finishReq m p r _ _ _) _ m0
  have h2 : TripKept m1 m2 := of_releases (Releases.vecAbort m1 p)
  have h3 : TripKept m2 m3 := foldl (fun m j => complete m p _ _) _ m2
  have h4 : TripKept m3 m4 := (modPol m3 p _).trans (completeAll _ p _ _)
  exact (h0.trans h1).trans ((h2.trans h3).trans (h4.trans (modPol m4 p _)))

theorem unitsLeave (m : Mod) (p : Fin 16) : TripKept m (unitsLeave m p) := by
  unfold Machine.unitsLeave
  exact foldl (fun m k => of_sys (by rfl)) _ m

theorem fencePolder (m : Mod) (p : Fin 16) : TripKept m (fencePolder m p) := by
  unfold Machine.fencePolder
  refine ite (ite (mbxDone m _ _ _) (refl m)) (ite (refl m) ?_)
  have hlogged : TripKept m (Machine.logFault (Machine.unitsLeave (pinc (Machine.modFence (Machine.modPol m p (fun q => { q with fenced := true }))
      (fun f => { f with polder := maskBit f.polder p.val true })) p Ctr.polderFences 1) p) 0x1F p.val fFenceCmd 5 false 0) :=
    (((modPol m p _).trans (modFence _ _)).trans (modPol _ p _)).trans ((unitsLeave _ p).trans (logFault _ _ _ _ _ _ _))
  exact ite (hlogged.trans (modPol _ p _)) (hlogged.trans (stopPolder _ p _))

-- A module sealed (R384).

theorem dropActivation (m : Mod) : TripKept m (dropActivation m) := by
  unfold Machine.dropActivation
  split
  · exact refl m
  · exact ite (modFw m _) (modFw m _)

theorem sendNotice (fz : Fuses) (m : Mod) (kind : Nat) : TripKept m (sendNotice fz m kind) := by
  unfold Machine.sendNotice
  split
  · exact refl m
  · extract_lets ports x h
    exact foldl (fun m k => foldl (fun m _ => of_sys (emit_sys m _)) _ m) _ m

theorem sealStep (fz : Fuses) (kind : Nat) (m : Mod) (n : Nat) : TripKept m (sealStep fz kind m n) := by
  have hput : ∀ (w : Warden) (k : Nat) (x : Option SealImage), (putSeal w k x).thermTrip = w.thermTrip := by
    intro w k x
    unfold putSeal
    split <;> rfl
  unfold Machine.sealStep
  dsimp only
  split
  · exact (dropActivation m).trans (foldl (fun m i => fencePolder m (pn i)) _ _)
  · exact sendNotice fz m kind
  · exact modWd m (hput _ _ _)
  · exact modWd m (hput _ _ _)
  · exact (minc m _ _).trans (modWd _ (by rfl))

theorem sealTo (fz : Fuses) (kind : Nat) (m : Mod) (n : Nat) : TripKept m (sealTo fz kind m n) :=
  ite (refl m) (foldl (fun m k => ite ((modWd m (by rfl)).trans (sealStep fz kind _ k)) (refl m)) _ m)

-- What follows every effect (R425, R436, R495).

theorem freeSession (m : Mod) (p : Fin 16) (idx : Nat) : TripKept m (freeSession m p idx) := by
  have hqueue : ∀ (m : Mod) (r : JRec), TripKept m (queueRec m idx r) := by
    intro m r
    exact ite (refl m) (of_sys rfl)
  unfold Machine.freeSession
  split
  · exact refl m
  · exact (hqueue m _).trans (of_sys rfl)

theorem policersOff (m : Mod) (p : Fin 16) : TripKept m (policersOff m p) := by
  unfold Machine.policersOff
  extract_lets waits m1
  have h1 : TripKept m m1 := ite (mbxDone m _ _ _) (refl m)
  exact h1.trans (modPol m1 p _)

theorem leaveTraffic (m : Mod) (p : Fin 16) : TripKept m (leaveTraffic m p) := (unitsLeave m p).trans (of_sys rfl)

theorem releaseHeld (m : Mod) (p : Fin 16) : TripKept m (releaseHeld m p) := by
  unfold Machine.releaseHeld
  extract_lets m1
  have h1 : TripKept m m1 := of_releases (Releases.releasePages m p _)
  exact h1.trans (modPol m1 p _)

theorem wipeKeys (m : Mod) (p : Fin 16) : TripKept m (wipeKeys m p) := (modPol m p _).trans (modFw _ _)

theorem dissolveEnd (m : Mod) (p : Fin 16) : TripKept m (dissolveEnd m p) := by
  unfold Machine.dissolveEnd
  extract_lets own m1 m2 blank m3
  have h1 : TripKept m m1 := foldl (fun m i => freeSession m p i) own m
  have h2 : TripKept m1 m2 := (policersOff m1 p).trans ((leaveTraffic _ p).trans ((releaseHeld _ p).trans (wipeKeys _ p)))
  have h3 : TripKept m2 m3 := modPol m2 p _
  exact (h1.trans h2).trans (h3.trans ((modFence m3 _).trans (modBoot _ _)))

theorem dissolveGo (m : Mod) (p : Fin 16) : TripKept m (dissolveGo m p) := by
  unfold Machine.dissolveGo
  split
  · exact refl m
  · exact ite (refl m) ((dissolveEnd m p).trans (mbxDone _ _ _ _))

theorem levelIrq (old m : Mod) : TripKept m (levelIrq old m) := foldl (fun m _ => mgmtIrq m 2) _ m

theorem settled (old m : Mod) : TripKept m (settled old m) := by
  have hlevel : TripKept m (Machine.levelIrq old (dissolveAll m)) := (foldl dissolveGo _ m).trans (levelIrq old _)
  exact ite (hlevel.trans (mgmtIrq _ _)) hlevel

end TripKept

-- Module faults and the warden's own actions (R384, R393, R397, R399).

section
variable {fz : Fuses} {m : Mod} {t wt : Nat}

/-- A Crest die that fails while a management pair runs. -/
theorem crestDieFault_seals {die : Nat} (hd : die < 4) (hlive : m.sys.wd.coresWedged = false) :
    crestDieFault fz m die = sealTo fz 1 (logFault m 0x0B die fEccUncorr 7 false 0) 5 := by
  simp only [crestDieFault, moduleFault, Nat.not_le.mpr hd, hlive, Bool.false_eq_true, if_false]

/-- The warden seals on its own 100 ms after the module wedged, where WMB_CONF asks for it (R384). -/
theorem autoSeal_due (hconf : bit (m.sys.wd.conf.read (fun _ _ _ => 1)) 0 = true) (hwedged : m.sys.wd.coresWedged = true ∨ m.sys.wd.fabWedged = true)
    (hdue : wdPassed (tickWd (tickHvl m t) wt) m.sys.wd.wedgedAt 100000000 = true) (hseal : m.sys.wd.sealing = none) :
    autoSeal fz m t wt = sealTo fz 1 (tickWd (tickHvl m t) wt) 5 := by
  have hnow : (bit ((tickWd (tickHvl m t) wt).sys.wd.conf.read (fun _ _ _ => 1)) 0 &&
      ((tickWd (tickHvl m t) wt).sys.wd.coresWedged || (tickWd (tickHvl m t) wt).sys.wd.fabWedged) &&
      wdPassed (tickWd (tickHvl m t) wt) (tickWd (tickHvl m t) wt).sys.wd.wedgedAt 100000000 &&
      (tickWd (tickHvl m t) wt).sys.wd.sealing.isNone) = true := by
    simp only [tickWd, modWd_sys_wd, tickHvl_sys, Bool.and_eq_true, Bool.or_eq_true]
    exact ⟨⟨⟨hconf, hwedged⟩, hdue⟩, by rw [hseal]; rfl⟩
  simp only [autoSeal, hnow, if_true]

/-- 110 °C held for 1 ms, not yet acted on. -/
theorem wardenThermClamp_due {t0 : Nat} (hhot : m.sys.wd.hotSince = some t0) (hdue : wdPassed (tickWd (tickHvl m t) wt) t0 1000000 = true)
    (hnew : m.sys.wd.thermHigh = false) :
    wardenThermClamp m t wt = modWd (powerClamp (logFault (tickWd (tickHvl m t) wt) 0x1F 0 fThermHigh 6 true m.sys.pw.tj.toNat))
      (fun w => { w with thermHigh := true }) := by
  have hhotNow : (tickWd (tickHvl m t) wt).sys.wd.hotSince = some t0 := hhot
  have hnewNow : (tickWd (tickHvl m t) wt).sys.wd.thermHigh = false := hnew
  have htj : (tickWd (tickHvl m t) wt).sys.pw = m.sys.pw := rfl
  simp only [wardenThermClamp, hhotNow, hdue, hnewNow, htj, Bool.not_true, Bool.or_self, Bool.false_eq_true, if_false]

/-- A tick within ±5 % of the nominal 976.5625 ns. -/
theorem oscCheck_inRange {ps : Nat} (hdue : m.sys.wd.oscAt + 10000000 ≤ max m.hvl t) (hlo : 19 * 1953125 ≤ 40 * ps) (hhi : 40 * ps ≤ 21 * 1953125) :
    oscCheck m t ps = modWd (modWd (tickHvl m t) (fun w => { w with oscAt := max m.hvl t, tickPs := ps })) (fun w => { w with oscBad := false }) := by
  simp only [oscCheck, tickHvl_hvl, tickHvl_sys, Nat.not_lt.mpr hdue, decide_eq_false (Nat.not_lt.mpr hlo), decide_eq_false (Nat.not_lt.mpr hhi),
    Bool.or_self, Bool.false_eq_true, if_false]

theorem faultLogCopy_due (hlive : m.sys.wd.coresWedged = false) (hopen : m.sys.wd.sealed = false)
    (hdue : m.sys.wd.copyAt + 1000000000 ≤ max m.hvl t) :
    faultLogCopy m t = modWd (tickHvl m t) (fun w => { w with copied := w.log, copyAt := max m.hvl t }) := by
  simp only [faultLogCopy, tickHvl_hvl, tickHvl_sys, hlive, hopen, Nat.not_lt.mpr hdue, decide_false, Bool.or_self, Bool.false_eq_true, if_false]

/-- 115 °C, the first time: the trip state is set before the module is sealed, and THERMTRIP_L is low at the end (R397). -/
theorem thermTrip_trips (hfirst : m.sys.wd.thermTrip = false) (hhot : 1150 ≤ m.sys.pw.tj) :
    (thermTrip fz m).sys.wd.thermTrip = true ∧ (thermTrip fz m).sys.pins.tripLow = true := by
  have hgo : (m.sys.wd.thermTrip || decide (m.sys.pw.tj < 1150)) = false := by
    rw [hfirst, decide_eq_false (Int.not_lt.mpr hhot)]
    rfl
  simp only [thermTrip, hgo, Bool.false_eq_true, if_false]
  refine ⟨?_, rfl⟩
  exact (TripKept.foldl (fun m i => TripKept.modPol m (pn i) _) _ _).trip.trans (TripKept.sealTo fz 3 _ 5).trip

end

-- What each command does in a module at work.

section
variable {s : State} (hw : s.m.working = true)
include hw

theorem exec_crestDieFault_working (die : Nat) : exec (.crestDieFault die) s = after s (crestDieFault s.fuses s.m die) :=
  work_on (f := fun z m => crestDieFault z m die) hw

theorem exec_autoSeal_working (c : Clocks) : exec (.autoSeal c) s = after s (autoSeal s.fuses s.m c.hvl c.wd) :=
  work_on (f := fun z m => autoSeal z m c.hvl c.wd) hw

theorem exec_wardenThermClamp_working (c : Clocks) : exec (.wardenThermClamp c) s = after s (wardenThermClamp s.m c.hvl c.wd) :=
  work_on (f := fun _ m => wardenThermClamp m c.hvl c.wd) hw

theorem exec_thermTrip_working : exec .thermTrip s = after s (thermTrip s.fuses s.m) := work_on (f := fun z m => thermTrip z m) hw

theorem exec_oscCheck_working (t ps : Nat) : exec (.oscCheck t ps) s = after s (oscCheck s.m t ps) := work_on (f := fun _ m => oscCheck m t ps) hw

theorem exec_faultLogCopy_working (t : Nat) : exec (.faultLogCopy t) s = after s (faultLogCopy s.m t) := work_on (f := fun _ m => faultLogCopy m t) hw

end

/-- Settles O41: each event where it is due; what THERM_TRIP has set stands after what follows it. -/
theorem moduleFaultsAndWardenActions : Obligations.ModuleFaultsAndWardenActions := by
  unfold Obligations.ModuleFaultsAndWardenActions
  refine fun s hw => ⟨?die, ?wedged, ?clamp, ?trip, ?osc, ?copy⟩
  case die =>
    intro die hd hlive
    rw [exec_crestDieFault_working hw, crestDieFault_seals hd hlive]
  case wedged =>
    intro t wt hconf hwedged hdue hseal
    rw [exec_autoSeal_working hw, autoSeal_due hconf hwedged hdue hseal]
  case clamp =>
    intro t wt t0 hhot hdue hnew
    rw [exec_wardenThermClamp_working hw, wardenThermClamp_due hhot hdue hnew]
  case trip =>
    intro hfirst hhot
    obtain ⟨htrip, hlow⟩ := thermTrip_trips (fz := s.fuses) hfirst hhot
    obtain ⟨hkeepTrip, hkeepPins⟩ := TripKept.settled s.m (thermTrip s.fuses s.m)
    rw [exec_thermTrip_working hw]
    exact ⟨_, rfl, rfl, rfl, hkeepTrip.trans htrip, (congrArg Pins.tripLow hkeepPins).trans hlow⟩
  case osc =>
    intro t ps hdue hlo hhi
    rw [exec_oscCheck_working hw, oscCheck_inRange hdue hlo hhi]
  case copy =>
    intro t hlive hopen hdue
    rw [exec_faultLogCopy_working hw, faultLogCopy_due hlive hopen hdue]

end Sys2Proof.Machine
